-- ==== Sys2Proof/Word.lean ====
section
/-! DEFINITION. The word types of the e500mc: registers and addresses are 32 bits wide, floating-point
registers 64 (10_state.md R21, R25). -/

namespace Sys2Proof

/-- One byte of storage (20_memory.md R280). -/
abbrev Byte := BitVec 8

/-- A 32-bit register, effective address or instruction word (10_state.md R20). -/
abbrev Word := BitVec 32

/-- A 64-bit register (10_state.md R25). -/
abbrev DWord := BitVec 64

end Sys2Proof
end

