-- ==== Sys2Proof/Config.lean ====
section
/-! DEFINITION. What the manual leaves to an implementation and what it leaves open. A free value is a
constant without a body, applied to the state's draw counter, so no proof can rest on what it is (log 9);
the two estimate functions are constants applied to their operand (log 15), and the type of a bus error is one constant
(log 56). -/

namespace Sys2Proof

/-- A free 32-bit value: U25, U27, U28, U31. -/
opaque Config.freeWord : Nat → Word
/-- A free 64-bit value: U29, U30; and what a device answers to a read (20 R280). -/
opaque Config.freeDWord : Nat → DWord
/-- A free truth value: U27, U29. -/
opaque Config.freeBit : Nat → Bool
/-- The free bits LT, GT, EQ of CR0 after an undefined quotient: U28. -/
opaque Config.freeCr : Nat → BitVec 3
/-- The free five bits of FPSCR[FPRF]: U29, U30. -/
opaque Config.freeFprf : Nat → BitVec 5
/-- A free next-victim number: U8. -/
opaque Config.freeVictim : Nat → BitVec 2
/-- The free next-victim number of each TLB0 set, by set, after an invalidation: U21. -/
opaque Config.freeNextVictim : Nat → Nat → BitVec 2
/-- Which of the five error types of L2ERRDIS (12 R201), in the order of its bits, an error from the CoreNet interface is
(log 56). -/
opaque Config.busErrorType : Fin 5
/-- What fres's table gives for an operand (42 R944, D24): any value, narrowed by the operation that uses it. -/
opaque Config.fresTable : DWord → DWord
/-- What frsqrte's table gives for an operand (42 R944, D24). -/
opaque Config.frsqrteTable : DWord → DWord

end Sys2Proof
end

