-- ==== Sys2Proof/Syntax.lean ====
section
/-! DEFINITION. The instructions of the e500mc: one constructor for each row of
spec/opcode_table.json, in the table's order (30_encoding.md rules R374 to R381). Operands carry the
manual's names; a register number is five bits, an immediate is the field of the instruction word as
it stands there, and the one-bit options AA, LK, OE, Rc are truth values. -/

namespace Sys2Proof

/-- The number of a general-purpose register, r0 to r31 (10_state.md R21). -/
abbrev Gpr := BitVec 5

/-- The number of a floating-point register, fr0 to fr31 (10_state.md R25). -/
abbrev Fpr := BitVec 5

/-- An instruction, with the operands that its encoding carries. -/
inductive Instr where
  /-- twi: Trap Word Immediate (43 R1021). -/
  | twi (tO : BitVec 5) (rA : Gpr) (simm : BitVec 16)
  /-- mulli: Multiply Low Immediate (40 R407). -/
  | mulli (rD : Gpr) (rA : Gpr) (simm : BitVec 16)
  /-- subfic: Subtract from Immediate Carrying (40 R406). -/
  | subfic (rD : Gpr) (rA : Gpr) (simm : BitVec 16)
  /-- cmpli: Compare Logical Immediate (40 R427). -/
  | cmpli (crfD : BitVec 3) (l : BitVec 1) (rA : Gpr) (uimm : BitVec 16)
  /-- cmpi: Compare Immediate (40 R425). -/
  | cmpi (crfD : BitVec 3) (l : BitVec 1) (rA : Gpr) (simm : BitVec 16)
  /-- addic: Add Immediate Carrying (40 R404). -/
  | addic (rD : Gpr) (rA : Gpr) (simm : BitVec 16)
  /-- addic.: Add Immediate Carrying and Record (40 R405). -/
  | addicDot (rD : Gpr) (rA : Gpr) (simm : BitVec 16)
  /-- addi: Add Immediate (40 R402). -/
  | addi (rD : Gpr) (rA : Gpr) (simm : BitVec 16)
  /-- addis: Add Immediate Shifted (40 R403). -/
  | addis (rD : Gpr) (rA : Gpr) (simm : BitVec 16)
  /-- bc: Branch Conditional (43 R1004). -/
  | bc (bo : BitVec 5) (bi : BitVec 5) (bd : BitVec 14) (aa : Bool) (lk : Bool)
  /-- sc: System Call (43 R1022). -/
  | sc (lev : BitVec 7)
  /-- b: Branch (43 R1003). -/
  | b (li : BitVec 24) (aa : Bool) (lk : Bool)
  /-- mcrf: Move Condition Register Field (43 R1019). -/
  | mcrf (crfD : BitVec 3) (crfS : BitVec 3)
  /-- bclr: Branch Conditional to Link Register (43 R1005). -/
  | bclr (bo : BitVec 5) (bi : BitVec 5) (bh : BitVec 2) (lk : Bool)
  /-- crnor: Condition Register NOR (43 R1015). -/
  | crnor (crbD : BitVec 5) (crbA : BitVec 5) (crbB : BitVec 5)
  /-- rfmci: Return from Machine Check Interrupt (45 R1115). -/
  | rfmci
  /-- rfdi: Return from Debug Interrupt (45 R1114). -/
  | rfdi
  /-- rfi: Return from Interrupt (45 R1111). -/
  | rfi
  /-- rfci: Return from Critical Interrupt (45 R1113). -/
  | rfci
  /-- rfgi: Return from Guest Interrupt (45 R1112). -/
  | rfgi
  /-- crandc: Condition Register AND with Complement (43 R1012). -/
  | crandc (crbD : BitVec 5) (crbA : BitVec 5) (crbB : BitVec 5)
  /-- isync: Instruction Synchronize (44 R1060). -/
  | isync
  /-- crxor: Condition Register XOR (43 R1018). -/
  | crxor (crbD : BitVec 5) (crbA : BitVec 5) (crbB : BitVec 5)
  /-- dnh: Debugger Notify Halt (45 R1150). -/
  | dnh (dui : BitVec 5) (duis : BitVec 10)
  /-- crnand: Condition Register NAND (43 R1014). -/
  | crnand (crbD : BitVec 5) (crbA : BitVec 5) (crbB : BitVec 5)
  /-- crand: Condition Register AND (43 R1011). -/
  | crand (crbD : BitVec 5) (crbA : BitVec 5) (crbB : BitVec 5)
  /-- creqv: Condition Register Equivalent (43 R1013). -/
  | creqv (crbD : BitVec 5) (crbA : BitVec 5) (crbB : BitVec 5)
  /-- crorc: Condition Register OR with Complement (43 R1017). -/
  | crorc (crbD : BitVec 5) (crbA : BitVec 5) (crbB : BitVec 5)
  /-- cror: Condition Register OR (43 R1016). -/
  | cror (crbD : BitVec 5) (crbA : BitVec 5) (crbB : BitVec 5)
  /-- bcctr: Branch Conditional to Count Register (43 R1006). -/
  | bcctr (bo : BitVec 5) (bi : BitVec 5) (bh : BitVec 2) (lk : Bool)
  /-- rlwimi: Rotate Left Word Immediate then Mask Insert (40 R445). -/
  | rlwimi (rS : Gpr) (rA : Gpr) (sh : BitVec 5) (mb : BitVec 5) (me : BitVec 5) (rc : Bool)
  /-- rlwinm: Rotate Left Word Immediate then AND with Mask (40 R446). -/
  | rlwinm (rS : Gpr) (rA : Gpr) (sh : BitVec 5) (mb : BitVec 5) (me : BitVec 5) (rc : Bool)
  /-- rlwnm: Rotate Left Word then AND with Mask (40 R447). -/
  | rlwnm (rS : Gpr) (rA : Gpr) (rB : Gpr) (mb : BitVec 5) (me : BitVec 5) (rc : Bool)
  /-- ori: OR Immediate (40 R430). -/
  | ori (rS : Gpr) (rA : Gpr) (uimm : BitVec 16)
  /-- oris: OR Immediate Shifted (40 R431). -/
  | oris (rS : Gpr) (rA : Gpr) (uimm : BitVec 16)
  /-- xori: XOR Immediate (40 R432). -/
  | xori (rS : Gpr) (rA : Gpr) (uimm : BitVec 16)
  /-- xoris: XOR Immediate Shifted (40 R433). -/
  | xoris (rS : Gpr) (rA : Gpr) (uimm : BitVec 16)
  /-- andi.: AND Immediate (40 R428). -/
  | andiDot (rS : Gpr) (rA : Gpr) (uimm : BitVec 16)
  /-- andis.: AND Immediate Shifted (40 R429). -/
  | andisDot (rS : Gpr) (rA : Gpr) (uimm : BitVec 16)
  /-- cmp: Compare (40 R424). -/
  | cmp (crfD : BitVec 3) (l : BitVec 1) (rA : Gpr) (rB : Gpr)
  /-- tw: Trap Word (43 R1020). -/
  | tw (tO : BitVec 5) (rA : Gpr) (rB : Gpr)
  /-- subfc: Subtract from Carrying (40 R414). -/
  | subfc (rD : Gpr) (rA : Gpr) (rB : Gpr) (oe : Bool) (rc : Bool)
  /-- addc: Add Carrying (40 R409). -/
  | addc (rD : Gpr) (rA : Gpr) (rB : Gpr) (oe : Bool) (rc : Bool)
  /-- mulhwu: Multiply High Word Unsigned (40 R421). -/
  | mulhwu (rD : Gpr) (rA : Gpr) (rB : Gpr) (rc : Bool)
  /-- isel: Integer Select (43 R1010). -/
  | isel (rD : Gpr) (rA : Gpr) (rB : Gpr) (crbC : BitVec 5)
  /-- tlbilx: TLB Invalidate Local Indexed (21 R351). -/
  | tlbilx (t : BitVec 2) (rA : Gpr) (rB : Gpr)
  /-- mfcr: Move from Condition Register (43 R1032). -/
  | mfcr (rD : Gpr)
  /-- mfocrf: Move from One Condition Register Field (43 R1034). -/
  | mfocrf (rD : Gpr) (crm : BitVec 8)
  /-- lwarx: Load Word and Reserve Indexed (44 R1066). -/
  | lwarx (rD : Gpr) (rA : Gpr) (rB : Gpr)
  /-- icbt: Instruction Cache Block Touch (44 R1081). -/
  | icbt (ct : BitVec 4) (rA : Gpr) (rB : Gpr)
  /-- lwzx: Load Word and Zero Indexed (41 R497). -/
  | lwzx (rD : Gpr) (rA : Gpr) (rB : Gpr)
  /-- slw: Shift Left Word (40 R448). -/
  | slw (rS : Gpr) (rA : Gpr) (rB : Gpr) (rc : Bool)
  /-- cntlzw: Count Leading Zeros Word (40 R444). -/
  | cntlzw (rS : Gpr) (rA : Gpr) (rc : Bool)
  /-- and: AND (40 R434). -/
  | and (rS : Gpr) (rA : Gpr) (rB : Gpr) (rc : Bool)
  /-- lwepx: Load Word by External PID Indexed (41 R547). -/
  | lwepx (rD : Gpr) (rA : Gpr) (rB : Gpr)
  /-- cmpl: Compare Logical (40 R426). -/
  | cmpl (crfD : BitVec 3) (l : BitVec 1) (rA : Gpr) (rB : Gpr)
  /-- subf: Subtract From (40 R413). -/
  | subf (rD : Gpr) (rA : Gpr) (rB : Gpr) (oe : Bool) (rc : Bool)
  /-- dcbst: Data Cache Block Store (44 R1075). -/
  | dcbst (rA : Gpr) (rB : Gpr)
  /-- lwzux: Load Word and Zero with Update Indexed (41 R498). -/
  | lwzux (rD : Gpr) (rA : Gpr) (rB : Gpr)
  /-- andc: AND with Complement (40 R435). -/
  | andc (rS : Gpr) (rA : Gpr) (rB : Gpr) (rc : Bool)
  /-- wait: Wait for Interrupt (43 R1038). -/
  | wait (wc : BitVec 2)
  /-- dcbstep: Data Cache Block Store by External PID Indexed (44 R1093). -/
  | dcbstep (rA : Gpr) (rB : Gpr)
  /-- mulhw: Multiply High Word (40 R420). -/
  | mulhw (rD : Gpr) (rA : Gpr) (rB : Gpr) (rc : Bool)
  /-- mfmsr: Move from Machine State Register (45 R1120). -/
  | mfmsr (rD : Gpr)
  /-- dcbf: Data Cache Block Flush (44 R1073). -/
  | dcbf (rA : Gpr) (rB : Gpr)
  /-- lbzx: Load Byte and Zero Indexed (41 R485). -/
  | lbzx (rD : Gpr) (rA : Gpr) (rB : Gpr)
  /-- lbepx: Load Byte by External PID Indexed (41 R545). -/
  | lbepx (rD : Gpr) (rA : Gpr) (rB : Gpr)
  /-- neg: Negate (40 R418). -/
  | neg (rD : Gpr) (rA : Gpr) (oe : Bool) (rc : Bool)
  /-- lbzux: Load Byte and Zero with Update Indexed (41 R486). -/
  | lbzux (rD : Gpr) (rA : Gpr) (rB : Gpr)
  /-- nor: NOR (40 R440). -/
  | nor (rS : Gpr) (rA : Gpr) (rB : Gpr) (rc : Bool)
  /-- dcbfep: Data Cache Block Flush by External PID Indexed (44 R1092). -/
  | dcbfep (rA : Gpr) (rB : Gpr)
  /-- wrtee: Write MSR External Enable (45 R1122). -/
  | wrtee (rS : Gpr)
  /-- dcbtstls: Data Cache Block Touch for Store and Lock Set (44 R1087). -/
  | dcbtstls (ct : BitVec 4) (rA : Gpr) (rB : Gpr)
  /-- subfe: Subtract from Extended (40 R415). -/
  | subfe (rD : Gpr) (rA : Gpr) (rB : Gpr) (oe : Bool) (rc : Bool)
  /-- adde: Add Extended (40 R410). -/
  | adde (rD : Gpr) (rA : Gpr) (rB : Gpr) (oe : Bool) (rc : Bool)
  /-- mtcrf: Move to Condition Register Fields (43 R1030). -/
  | mtcrf (rS : Gpr) (crm : BitVec 8)
  /-- mtocrf: Move to One Condition Register Field (43 R1033). -/
  | mtocrf (rS : Gpr) (crm : BitVec 8)
  /-- mtmsr: Move to Machine State Register (45 R1121). -/
  | mtmsr (rS : Gpr)
  /-- stwcx.: Store Word Conditional Indexed (44 R1067). -/
  | stwcxDot (rS : Gpr) (rA : Gpr) (rB : Gpr)
  /-- stwx: Store Word Indexed (41 R509). -/
  | stwx (rS : Gpr) (rA : Gpr) (rB : Gpr)
  /-- stwepx: Store Word by External PID Indexed (41 R551). -/
  | stwepx (rS : Gpr) (rA : Gpr) (rB : Gpr)
  /-- wrteei: Write MSR External Enable Immediate (45 R1123). -/
  | wrteei (e : Bool)
  /-- dcbtls: Data Cache Block Touch and Lock Set (44 R1086). -/
  | dcbtls (ct : BitVec 4) (rA : Gpr) (rB : Gpr)
  /-- stwux: Store Word with Update Indexed (41 R510). -/
  | stwux (rS : Gpr) (rA : Gpr) (rB : Gpr)
  /-- subfze: Subtract from Zero Extended (40 R417). -/
  | subfze (rD : Gpr) (rA : Gpr) (oe : Bool) (rc : Bool)
  /-- addze: Add to Zero Extended (40 R412). -/
  | addze (rD : Gpr) (rA : Gpr) (oe : Bool) (rc : Bool)
  /-- msgsnd: Message Send (45 R1140). -/
  | msgsnd (rB : Gpr)
  /-- stbx: Store Byte Indexed (41 R501). -/
  | stbx (rS : Gpr) (rA : Gpr) (rB : Gpr)
  /-- stbepx: Store Byte by External PID Indexed (41 R549). -/
  | stbepx (rS : Gpr) (rA : Gpr) (rB : Gpr)
  /-- icblc: Instruction Cache Block Lock Clear (44 R1088). -/
  | icblc (ct : BitVec 4) (rA : Gpr) (rB : Gpr)
  /-- subfme: Subtract from Minus One Extended (40 R416). -/
  | subfme (rD : Gpr) (rA : Gpr) (oe : Bool) (rc : Bool)
  /-- addme: Add to Minus One Extended (40 R411). -/
  | addme (rD : Gpr) (rA : Gpr) (oe : Bool) (rc : Bool)
  /-- mullw: Multiply Low Word (40 R419). -/
  | mullw (rD : Gpr) (rA : Gpr) (rB : Gpr) (oe : Bool) (rc : Bool)
  /-- msgclr: Message Clear (45 R1141). -/
  | msgclr (rB : Gpr)
  /-- dcbtst: Data Cache Block Touch for Store (44 R1077). -/
  | dcbtst (th : BitVec 4) (rA : Gpr) (rB : Gpr)
  /-- stbux: Store Byte with Update Indexed (41 R502). -/
  | stbux (rS : Gpr) (rA : Gpr) (rB : Gpr)
  /-- dcbtstep: Data Cache Block Touch for Store by External PID Indexed (44 R1095). -/
  | dcbtstep (th : BitVec 4) (rA : Gpr) (rB : Gpr)
  /-- add: Add (40 R408). -/
  | add (rD : Gpr) (rA : Gpr) (rB : Gpr) (oe : Bool) (rc : Bool)
  /-- ehpriv: Generate Embedded Hypervisor Privilege Exception (43 R1023). -/
  | ehpriv (oc : BitVec 15)
  /-- dcbt: Data Cache Block Touch (44 R1076). -/
  | dcbt (th : BitVec 4) (rA : Gpr) (rB : Gpr)
  /-- lhzx: Load Halfword and Zero Indexed (41 R489). -/
  | lhzx (rD : Gpr) (rA : Gpr) (rB : Gpr)
  /-- eqv: Equivalent (40 R441). -/
  | eqv (rS : Gpr) (rA : Gpr) (rB : Gpr) (rc : Bool)
  /-- lhepx: Load Halfword by External PID Indexed (41 R546). -/
  | lhepx (rD : Gpr) (rA : Gpr) (rB : Gpr)
  /-- lhzux: Load Halfword and Zero with Update Indexed (41 R490). -/
  | lhzux (rD : Gpr) (rA : Gpr) (rB : Gpr)
  /-- xor: XOR (40 R438). -/
  | xor (rS : Gpr) (rA : Gpr) (rB : Gpr) (rc : Bool)
  /-- dcbtep: Data Cache Block Touch by External PID Indexed (44 R1094). -/
  | dcbtep (th : BitVec 4) (rA : Gpr) (rB : Gpr)
  /-- mfpmr: Move from Performance Monitor Register (45 R1160). -/
  | mfpmr (rD : Gpr) (pmrn : BitVec 10)
  /-- mfspr: Move from Special-Purpose Register (43 R1035). -/
  | mfspr (rD : Gpr) (spr : BitVec 10)
  /-- lhax: Load Halfword Algebraic Indexed (41 R493). -/
  | lhax (rD : Gpr) (rA : Gpr) (rB : Gpr)
  /-- mftb: Move from Time Base (43 R1037). -/
  | mftb (rD : Gpr) (tbr : BitVec 10)
  /-- lhaux: Load Halfword Algebraic with Update Indexed (41 R494). -/
  | lhaux (rD : Gpr) (rA : Gpr) (rB : Gpr)
  /-- dcblc: Data Cache Block Lock Clear (44 R1085). -/
  | dcblc (ct : BitVec 4) (rA : Gpr) (rB : Gpr)
  /-- sthx: Store Halfword Indexed (41 R505). -/
  | sthx (rS : Gpr) (rA : Gpr) (rB : Gpr)
  /-- orc: OR with Complement (40 R437). -/
  | orc (rS : Gpr) (rA : Gpr) (rB : Gpr) (rc : Bool)
  /-- sthepx: Store Halfword by External PID Indexed (41 R550). -/
  | sthepx (rS : Gpr) (rA : Gpr) (rB : Gpr)
  /-- sthux: Store Halfword with Update Indexed (41 R506). -/
  | sthux (rS : Gpr) (rA : Gpr) (rB : Gpr)
  /-- or: OR (40 R436). -/
  | or (rS : Gpr) (rA : Gpr) (rB : Gpr) (rc : Bool)
  /-- divwu: Divide Word Unsigned (40 R423). -/
  | divwu (rD : Gpr) (rA : Gpr) (rB : Gpr) (oe : Bool) (rc : Bool)
  /-- mtpmr: Move to Performance Monitor Register (45 R1161). -/
  | mtpmr (rS : Gpr) (pmrn : BitVec 10)
  /-- mtspr: Move to Special-Purpose Register (43 R1036). -/
  | mtspr (rS : Gpr) (spr : BitVec 10)
  /-- dcbi: Data Cache Block Invalidate (44 R1074). -/
  | dcbi (rA : Gpr) (rB : Gpr)
  /-- nand: NAND (40 R439). -/
  | nand (rS : Gpr) (rA : Gpr) (rB : Gpr) (rc : Bool)
  /-- dsn: Decorated Storage Notify (41 R543). -/
  | dsn (rA : Gpr) (rB : Gpr)
  /-- icbtls: Instruction Cache Block Touch and Lock Set (44 R1089). -/
  | icbtls (ct : BitVec 4) (rA : Gpr) (rB : Gpr)
  /-- divw: Divide Word (40 R422). -/
  | divw (rD : Gpr) (rA : Gpr) (rB : Gpr) (oe : Bool) (rc : Bool)
  /-- mcrxr: Move to Condition Register from XER (43 R1031). -/
  | mcrxr (crfD : BitVec 3)
  /-- lbdx: Load Byte with Decoration Indexed (41 R535). -/
  | lbdx (rD : Gpr) (rA : Gpr) (rB : Gpr)
  /-- lwbrx: Load Word Byte-Reverse Indexed (41 R512). -/
  | lwbrx (rD : Gpr) (rA : Gpr) (rB : Gpr)
  /-- lfsx: Load Floating-Point Single Indexed (41 R519). -/
  | lfsx (frD : Fpr) (rA : Gpr) (rB : Gpr)
  /-- srw: Shift Right Word (40 R449). -/
  | srw (rS : Gpr) (rA : Gpr) (rB : Gpr) (rc : Bool)
  /-- lhdx: Load Halfword with Decoration Indexed (41 R536). -/
  | lhdx (rD : Gpr) (rA : Gpr) (rB : Gpr)
  /-- tlbsync: TLB Synchronize (21 R354). -/
  | tlbsync
  /-- lfsux: Load Floating-Point Single with Update Indexed (41 R520). -/
  | lfsux (frD : Fpr) (rA : Gpr) (rB : Gpr)
  /-- lwdx: Load Word with Decoration Indexed (41 R537). -/
  | lwdx (rD : Gpr) (rA : Gpr) (rB : Gpr)
  /-- sync: Memory Synchronize (former mnemonic msync) (44 R1061). -/
  | sync (l : BitVec 2)
  /-- lfdx: Load Floating-Point Double Indexed (41 R523). -/
  | lfdx (frD : Fpr) (rA : Gpr) (rB : Gpr)
  /-- lfdepx: Load Floating-Point Doubleword by External PID Indexed (41 R548). -/
  | lfdepx (frD : Fpr) (rA : Gpr) (rB : Gpr)
  /-- lfdux: Load Floating-Point Double with Update Indexed (41 R524). -/
  | lfdux (frD : Fpr) (rA : Gpr) (rB : Gpr)
  /-- stbdx: Store Byte with Decoration Indexed (41 R539). -/
  | stbdx (rS : Gpr) (rA : Gpr) (rB : Gpr)
  /-- stwbrx: Store Word Byte-Reverse Indexed (41 R514). -/
  | stwbrx (rS : Gpr) (rA : Gpr) (rB : Gpr)
  /-- stfsx: Store Floating-Point Single Indexed (41 R527). -/
  | stfsx (frS : Fpr) (rA : Gpr) (rB : Gpr)
  /-- sthdx: Store Halfword with Decoration Indexed (41 R540). -/
  | sthdx (rS : Gpr) (rA : Gpr) (rB : Gpr)
  /-- stfsux: Store Floating-Point Single with Update Indexed (41 R528). -/
  | stfsux (frS : Fpr) (rA : Gpr) (rB : Gpr)
  /-- stwdx: Store Word with Decoration Indexed (41 R541). -/
  | stwdx (rS : Gpr) (rA : Gpr) (rB : Gpr)
  /-- stfdx: Store Floating-Point Double Indexed (41 R531). -/
  | stfdx (frS : Fpr) (rA : Gpr) (rB : Gpr)
  /-- stfdepx: Store Floating-Point Doubleword by External PID Indexed (41 R552). -/
  | stfdepx (frS : Fpr) (rA : Gpr) (rB : Gpr)
  /-- dcba: Data Cache Block Allocate (44 R1071). -/
  | dcba (rA : Gpr) (rB : Gpr)
  /-- dcbal: Data Cache Block Allocate by Line (44 R1072). -/
  | dcbal (rA : Gpr) (rB : Gpr)
  /-- stfdux: Store Floating-Point Double with Update Indexed (41 R532). -/
  | stfdux (frS : Fpr) (rA : Gpr) (rB : Gpr)
  /-- tlbivax: TLB Invalidate Virtual Address Indexed (21 R353). -/
  | tlbivax (rA : Gpr) (rB : Gpr)
  /-- lhbrx: Load Halfword Byte-Reverse Indexed (41 R511). -/
  | lhbrx (rD : Gpr) (rA : Gpr) (rB : Gpr)
  /-- sraw: Shift Right Algebraic Word (40 R450). -/
  | sraw (rS : Gpr) (rA : Gpr) (rB : Gpr) (rc : Bool)
  /-- lfddx: Load Floating-Point Doubleword with Decoration Indexed (41 R538). -/
  | lfddx (frD : Fpr) (rA : Gpr) (rB : Gpr)
  /-- srawi: Shift Right Algebraic Word Immediate (40 R451). -/
  | srawi (rS : Gpr) (rA : Gpr) (sh : BitVec 5) (rc : Bool)
  /-- mbar: Memory Barrier (44 R1062). -/
  | mbar (mo : BitVec 5)
  /-- tlbsx: TLB Search Indexed (21 R350). -/
  | tlbsx (rA : Gpr) (rB : Gpr)
  /-- sthbrx: Store Halfword Byte-Reverse Indexed (41 R513). -/
  | sthbrx (rS : Gpr) (rA : Gpr) (rB : Gpr)
  /-- extsh: Extend Sign Halfword (40 R443). -/
  | extsh (rS : Gpr) (rA : Gpr) (rc : Bool)
  /-- stfddx: Store Floating-Point Doubleword with Decoration Indexed (41 R542). -/
  | stfddx (frS : Fpr) (rA : Gpr) (rB : Gpr)
  /-- tlbre: TLB Read Entry (21 R348). -/
  | tlbre
  /-- extsb: Extend Sign Byte (40 R442). -/
  | extsb (rS : Gpr) (rA : Gpr) (rc : Bool)
  /-- tlbwe: TLB Write Entry (21 R349). -/
  | tlbwe
  /-- icbi: Instruction Cache Block Invalidate (44 R1080). -/
  | icbi (rA : Gpr) (rB : Gpr)
  /-- stfiwx: Store Floating-Point as Integer Word Indexed (41 R533). -/
  | stfiwx (frS : Fpr) (rA : Gpr) (rB : Gpr)
  /-- icbiep: Instruction Cache Block Invalidate by External PID Indexed (44 R1098). -/
  | icbiep (rA : Gpr) (rB : Gpr)
  /-- dcbz: Data Cache Block Set to Zero (44 R1078). -/
  | dcbz (rA : Gpr) (rB : Gpr)
  /-- dcbzl: Data Cache Block Set to Zero by Line (44 R1079). -/
  | dcbzl (rA : Gpr) (rB : Gpr)
  /-- dcbzep: Data Cache Block Zero by External PID Indexed (44 R1096). -/
  | dcbzep (rA : Gpr) (rB : Gpr)
  /-- dcbzlep: Data Cache Block Zero Long by External PID Indexed (44 R1097). -/
  | dcbzlep (rA : Gpr) (rB : Gpr)
  /-- lwz: Load Word and Zero (41 R495). -/
  | lwz (rD : Gpr) (rA : Gpr) (d : BitVec 16)
  /-- lwzu: Load Word and Zero with Update (41 R496). -/
  | lwzu (rD : Gpr) (rA : Gpr) (d : BitVec 16)
  /-- lbz: Load Byte and Zero (41 R483). -/
  | lbz (rD : Gpr) (rA : Gpr) (d : BitVec 16)
  /-- lbzu: Load Byte and Zero with Update (41 R484). -/
  | lbzu (rD : Gpr) (rA : Gpr) (d : BitVec 16)
  /-- stw: Store Word (41 R507). -/
  | stw (rS : Gpr) (rA : Gpr) (d : BitVec 16)
  /-- stwu: Store Word with Update (41 R508). -/
  | stwu (rS : Gpr) (rA : Gpr) (d : BitVec 16)
  /-- stb: Store Byte (41 R499). -/
  | stb (rS : Gpr) (rA : Gpr) (d : BitVec 16)
  /-- stbu: Store Byte with Update (41 R500). -/
  | stbu (rS : Gpr) (rA : Gpr) (d : BitVec 16)
  /-- lhz: Load Halfword and Zero (41 R487). -/
  | lhz (rD : Gpr) (rA : Gpr) (d : BitVec 16)
  /-- lhzu: Load Halfword and Zero with Update (41 R488). -/
  | lhzu (rD : Gpr) (rA : Gpr) (d : BitVec 16)
  /-- lha: Load Halfword Algebraic (41 R491). -/
  | lha (rD : Gpr) (rA : Gpr) (d : BitVec 16)
  /-- lhau: Load Halfword Algebraic with Update (41 R492). -/
  | lhau (rD : Gpr) (rA : Gpr) (d : BitVec 16)
  /-- sth: Store Halfword (41 R503). -/
  | sth (rS : Gpr) (rA : Gpr) (d : BitVec 16)
  /-- sthu: Store Halfword with Update (41 R504). -/
  | sthu (rS : Gpr) (rA : Gpr) (d : BitVec 16)
  /-- lmw: Load Multiple Word (41 R515). -/
  | lmw (rD : Gpr) (rA : Gpr) (d : BitVec 16)
  /-- stmw: Store Multiple Word (41 R516). -/
  | stmw (rS : Gpr) (rA : Gpr) (d : BitVec 16)
  /-- lfs: Load Floating-Point Single (41 R517). -/
  | lfs (frD : Fpr) (rA : Gpr) (d : BitVec 16)
  /-- lfsu: Load Floating-Point Single with Update (41 R518). -/
  | lfsu (frD : Fpr) (rA : Gpr) (d : BitVec 16)
  /-- lfd: Load Floating-Point Double (41 R521). -/
  | lfd (frD : Fpr) (rA : Gpr) (d : BitVec 16)
  /-- lfdu: Load Floating-Point Double with Update (41 R522). -/
  | lfdu (frD : Fpr) (rA : Gpr) (d : BitVec 16)
  /-- stfs: Store Floating-Point Single (41 R525). -/
  | stfs (frS : Fpr) (rA : Gpr) (d : BitVec 16)
  /-- stfsu: Store Floating-Point Single with Update (41 R526). -/
  | stfsu (frS : Fpr) (rA : Gpr) (d : BitVec 16)
  /-- stfd: Store Floating-Point Double (41 R529). -/
  | stfd (frS : Fpr) (rA : Gpr) (d : BitVec 16)
  /-- stfdu: Store Floating-Point Double with Update (41 R530). -/
  | stfdu (frS : Fpr) (rA : Gpr) (d : BitVec 16)
  /-- fdivs: Floating Divide Single (42 R917). -/
  | fdivs (frD : Fpr) (frA : Fpr) (frB : Fpr) (rc : Bool)
  /-- fsubs: Floating Subtract Single (42 R913). -/
  | fsubs (frD : Fpr) (frA : Fpr) (frB : Fpr) (rc : Bool)
  /-- fadds: Floating Add Single (42 R911). -/
  | fadds (frD : Fpr) (frA : Fpr) (frB : Fpr) (rc : Bool)
  /-- fres: Floating Reciprocal Estimate Single (42 R918). -/
  | fres (frD : Fpr) (frB : Fpr) (rc : Bool)
  /-- fmuls: Floating Multiply Single (42 R915). -/
  | fmuls (frD : Fpr) (frA : Fpr) (frC : Fpr) (rc : Bool)
  /-- fmsubs: Floating Multiply-Subtract Single (42 R924). -/
  | fmsubs (frD : Fpr) (frA : Fpr) (frC : Fpr) (frB : Fpr) (rc : Bool)
  /-- fmadds: Floating Multiply-Add Single (42 R922). -/
  | fmadds (frD : Fpr) (frA : Fpr) (frC : Fpr) (frB : Fpr) (rc : Bool)
  /-- fnmsubs: Floating Negative Multiply-Subtract Single (42 R928). -/
  | fnmsubs (frD : Fpr) (frA : Fpr) (frC : Fpr) (frB : Fpr) (rc : Bool)
  /-- fnmadds: Floating Negative Multiply-Add Single (42 R926). -/
  | fnmadds (frD : Fpr) (frA : Fpr) (frC : Fpr) (frB : Fpr) (rc : Bool)
  /-- fcmpu: Floating Compare Unordered (42 R932). -/
  | fcmpu (crfD : BitVec 3) (frA : Fpr) (frB : Fpr)
  /-- frsp: Floating Round to Single-Precision (42 R929). -/
  | frsp (frD : Fpr) (frB : Fpr) (rc : Bool)
  /-- fctiw: Floating Convert to Integer Word (42 R930). -/
  | fctiw (frD : Fpr) (frB : Fpr) (rc : Bool)
  /-- fctiwz: Floating Convert to Integer Word with Round Toward Zero (42 R931). -/
  | fctiwz (frD : Fpr) (frB : Fpr) (rc : Bool)
  /-- fdiv: Floating Divide (Double-Precision) (42 R916). -/
  | fdiv (frD : Fpr) (frA : Fpr) (frB : Fpr) (rc : Bool)
  /-- fsub: Floating Subtract (Double-Precision) (42 R912). -/
  | fsub (frD : Fpr) (frA : Fpr) (frB : Fpr) (rc : Bool)
  /-- fadd: Floating Add (Double-Precision) (42 R910). -/
  | fadd (frD : Fpr) (frA : Fpr) (frB : Fpr) (rc : Bool)
  /-- fsel: Floating Select (42 R920). -/
  | fsel (frD : Fpr) (frA : Fpr) (frC : Fpr) (frB : Fpr) (rc : Bool)
  /-- fmul: Floating Multiply (Double-Precision) (42 R914). -/
  | fmul (frD : Fpr) (frA : Fpr) (frC : Fpr) (rc : Bool)
  /-- frsqrte: Floating Reciprocal Square Root Estimate (42 R919). -/
  | frsqrte (frD : Fpr) (frB : Fpr) (rc : Bool)
  /-- fmsub: Floating Multiply-Subtract (Double-Precision) (42 R923). -/
  | fmsub (frD : Fpr) (frA : Fpr) (frC : Fpr) (frB : Fpr) (rc : Bool)
  /-- fmadd: Floating Multiply-Add (Double-Precision) (42 R921). -/
  | fmadd (frD : Fpr) (frA : Fpr) (frC : Fpr) (frB : Fpr) (rc : Bool)
  /-- fnmsub: Floating Negative Multiply-Subtract (Double-Precision) (42 R927). -/
  | fnmsub (frD : Fpr) (frA : Fpr) (frC : Fpr) (frB : Fpr) (rc : Bool)
  /-- fnmadd: Floating Negative Multiply-Add (Double-Precision) (42 R925). -/
  | fnmadd (frD : Fpr) (frA : Fpr) (frC : Fpr) (frB : Fpr) (rc : Bool)
  /-- fcmpo: Floating Compare Ordered (42 R933). -/
  | fcmpo (crfD : BitVec 3) (frA : Fpr) (frB : Fpr)
  /-- mtfsb1: Move to FPSCR Bit 1 (42 R939). -/
  | mtfsb1 (crbD : BitVec 5) (rc : Bool)
  /-- fneg: Floating Negate (42 R941). -/
  | fneg (frD : Fpr) (frB : Fpr) (rc : Bool)
  /-- mcrfs: Move to Condition Register from FPSCR (42 R935). -/
  | mcrfs (crfD : BitVec 3) (crfS : BitVec 3)
  /-- mtfsb0: Move to FPSCR Bit 0 (42 R938). -/
  | mtfsb0 (crbD : BitVec 5) (rc : Bool)
  /-- fmr: Floating Move Register (42 R940). -/
  | fmr (frD : Fpr) (frB : Fpr) (rc : Bool)
  /-- mtfsfi: Move to FPSCR Field Immediate (42 R936). -/
  | mtfsfi (crfD : BitVec 3) (imm : BitVec 4) (rc : Bool)
  /-- fnabs: Floating Negative Absolute Value (42 R943). -/
  | fnabs (frD : Fpr) (frB : Fpr) (rc : Bool)
  /-- fabs: Floating Absolute Value (42 R942). -/
  | fabs (frD : Fpr) (frB : Fpr) (rc : Bool)
  /-- mffs: Move from FPSCR (42 R934). -/
  | mffs (frD : Fpr) (rc : Bool)
  /-- mtfsf: Move to FPSCR Fields (42 R937). -/
  | mtfsf (fm : BitVec 8) (frB : Fpr) (rc : Bool)
  deriving DecidableEq, Repr

end Sys2Proof
end

