-- ==== Sys2Proof/Machine/State.lean ====
section
/-! DEFINITION. The state of the machine: every piece of state the spec gives the e500mc, the inputs the
integrated device drives, and the model's own bookkeeping, all as plain data; and the state after reset
(70_reset_and_hazards.md R801). INVENTORY.md lists every field with its rule. -/

namespace Sys2Proof.Machine

/-- Why the machine stops without a next state. -/
inductive Fault where
  /-- Two valid TLB entries match one access while HID0[EN_L2MMU_MHD] is 0: "the resulting translation is
  undefined" (21 R337, U18). Raised by every access and by a fetch. Safe: nothing is claimed to follow. -/
  | overlappingTlbEntries
  deriving DecidableEq, Repr

/-- Why the model gives no meaning. -/
inductive Refusal where
  /-- The instruction has no meaning yet. Raised by arms of `exec` only. Safe. -/
  | notModelled (mnemonic : String)
  deriving DecidableEq, Repr

/-- The interrupts (61 R650). -/
inductive IntKind where
  | criticalInput | machineCheck | errorReport | nmi
  | dataStorage | instrStorage | externalInput | alignment | program
  | fpUnavailable | systemCall | hvSystemCall | decrementer | fixedInterval | watchdog
  | dataTlbError | instrTlbError | debug | perfMonitor
  | doorbell | doorbellCritical | guestDoorbell | guestDoorbellCritical | guestDoorbellMachineCheck
  | hvPrivilege
  deriving DecidableEq, Repr

/-- A TLB entry: the fields that the MAS registers carry (21 R332, 13 R235 to R243). -/
structure TlbEntry where
  v     : Bool
  iprot : Bool
  tid   : BitVec 8
  ts    : Bool
  tsize : BitVec 4
  epn   : BitVec 20
  /-- All 24 bits of the real page number: MAS7[RPN] then MAS3[RPN]. -/
  rpn   : BitVec 24
  /-- X0, X1. -/
  x     : BitVec 2
  /-- W, I, M, G, E, as in MAS2. -/
  wimge : BitVec 5
  /-- U0 to U3. -/
  u     : BitVec 4
  /-- UX, SX, UW, SW, UR, SR, as in MAS3. -/
  perm  : BitVec 6
  tgs   : Bool
  vf    : Bool
  tlpid : BitVec 6
  deriving DecidableEq, Repr

/-- Storage: the bytes that differ from what an unlisted address reads as, by rising real address (20 R280). -/
structure Memory where
  cells : List Host.Cell
  deriving DecidableEq, Repr

/-- What lies in a region of real addresses, other than storage (20 R280, PHYS_MAP). -/
inductive RegionKind where
  | device
  | absent
  deriving DecidableEq, Repr

/-- A region of real addresses. -/
structure Region where
  base : Nat
  size : Nat
  kind : RegionKind
  deriving DecidableEq, Repr

/-- Control and identification registers (11 R115 to R118, R135, R145, R146, R150). -/
structure Control where
  msrp   : Word
  epcr   : Word
  pvr    : Word
  svr    : Word
  pir    : Word
  gpir   : Word
  hid0   : Word
  bucsr  : Word
  cdcsr0 : Word
  deriving DecidableEq, Repr

/-- Interrupt registers (11 R125 to R130, R136, R137). -/
structure IntRegs where
  srr0   : Word
  srr1   : Word
  gsrr0  : Word
  gsrr1  : Word
  csrr0  : Word
  csrr1  : Word
  dsrr0  : Word
  dsrr1  : Word
  mcsrr0 : Word
  mcsrr1 : Word
  esr    : Word
  gesr   : Word
  dear   : Word
  gdear  : Word
  epr    : Word
  gepr   : Word
  mcsr   : Word
  mcar   : DWord
  ivpr   : Word
  givpr  : Word
  /-- IVOR0 to IVOR15 at places 0 to 15, IVOR35 to IVOR41 at places 16 to 22. -/
  ivor   : Vector Word 23
  /-- GIVOR2, 3, 4, 8, 13, 14. -/
  givor  : Vector Word 6
  deriving DecidableEq, Repr

/-- Registers for software use (11 R140). -/
structure Sprgs where
  sprg   : Vector Word 10
  gsprg  : Vector Word 4
  usprg0 : Word
  deriving DecidableEq, Repr

/-- Timer registers (11 R119 to R124). -/
structure Timers where
  tb    : DWord
  atb   : DWord
  dec   : Word
  decar : Word
  tcr   : Word
  tsr   : Word
  deriving DecidableEq, Repr

/-- Cache control registers and the locked lines (12 R180 to R207, 20 R323). -/
structure Cache where
  l1csr0 : Word
  l1csr1 : Word
  l1csr2 : Word
  l1cfg0 : Word
  l1cfg1 : Word
  l2cfg0 : Word
  l2csr0 : Word
  l2csr1 : Word
  l2errinten   : Word
  l2errdis     : Word
  l2errdet     : Word
  l2errattr    : Word
  l2erraddr    : Word
  l2erreaddr   : Word
  l2errctl     : Word
  l2errinjhi   : Word
  l2errinjlo   : Word
  l2errinjctl  : Word
  l2captdatahi : Word
  l2captdatalo : Word
  l2captecc    : Word
  /-- The real 64-byte block numbers whose line is locked in the L1 data cache, newest first. -/
  lockD  : List (BitVec 30)
  /-- The same for the L1 instruction cache. -/
  lockI  : List (BitVec 30)
  /-- The same for the L2 cache. -/
  lockL2 : List (BitVec 30)
  /-- The blocks that lock instructions and touches have named since the last sync, newest first: true for the L2
  cache, false for a lock instruction of the L1 data cache (44 R1084 f). -/
  recent : List (Bool × BitVec 30)
  deriving DecidableEq, Repr

/-- Memory management registers and the TLB arrays (13 R220 to R246, 21 R332 to R334). -/
structure Mmu where
  lpidr   : Word
  pid     : Word
  mmucsr0 : Word
  mmucfg  : Word
  tlb0cfg : Word
  tlb1cfg : Word
  mas0 : Word
  mas1 : Word
  mas2 : Word
  mas3 : Word
  mas4 : Word
  mas5 : Word
  mas6 : Word
  mas7 : Word
  mas8 : Word
  eplc : Word
  epsc : Word
  /-- Entry 4 s + w is way w of set s. -/
  tlb0 : Vector TlbEntry 512
  /-- The next-victim way of each set of TLB0. -/
  nv   : Vector (BitVec 2) 128
  tlb1 : Vector TlbEntry 64
  deriving DecidableEq, Repr

/-- The clock-control and silicon-debug registers of the debugger's map, group 0x3: plain storage, as their layouts are
lost (14 R265; 91 N9; log 96). -/
structure ClockControl where
  pllCtrl      : Vector Word 2
  waitrCfg     : Vector Word 2
  waitfCfg     : Vector Word 2
  testMode     : Word
  silcnDbgCtrl : Word
  silcnClkCtrl : Vector Word 3
  deriving DecidableEq, Repr

/-- Debug and Nexus registers (14 R251 to R279). -/
structure Debug where
  dbcr0  : Word
  dbcr1  : Word
  dbcr2  : Word
  dbcr4  : Word
  dbsr   : Word
  iac1   : Word
  iac2   : Word
  dac1   : Word
  dac2   : Word
  nspc   : Word
  devent : Word
  ddam   : Word
  npidr  : Word
  dc1    : Word
  dc2    : Word
  dc4    : Word
  wt1    : Word
  wmsk   : Word
  ovcr   : Word
  edbcr0 : Word
  edbsr0 : Word
  edbsrmsk0 : Word
  edbsr1 : Word
  edesr  : Word
  prsr   : Word
  ijcfg  : Word
  ijir   : Word
  ijdata0 : Word
  ijdata1 : Word
  pcc    : Word
  pmcc   : Vector Word 4
  clock  : ClockControl
  deriving DecidableEq, Repr

/-- Performance monitor registers and the trigger state of each counter (14 R266 to R269, 63 R782). -/
structure PerfMon where
  pmgc0 : Word
  pmlca : Vector Word 4
  pmlcb : Vector Word 4
  pmc   : Vector Word 4
  trig  : Vector Bool 4
  /-- Counters that wrapped in the last step through a chained event, for the next step (63 R791). -/
  wrapped : Vector Bool 4
  deriving DecidableEq, Repr

/-- The power-management state (62 R720). -/
inductive PmState where
  | fullOn
  | pmHalted
  | pmStopped
  deriving DecidableEq, Repr

/-- A reservation (20 R311). -/
structure Reservation where
  /-- The number of the reserved 64-byte granule of real storage. -/
  granule : BitVec 30
  /-- Whether lwarx went through a page with M = 1 (20 R313). -/
  coherent : Bool
  deriving DecidableEq, Repr

/-- State that has no register (10 R75, 62 R720). -/
structure Hidden where
  reserve : Option Reservation
  /-- DBELL_PEND, by message type (45 R1139). -/
  dbell   : Vector Bool 5
  waiting : Bool
  dbgHalted : Bool
  pm      : PmState
  /-- The real address of the next word of the fetch group that the last fetch brought (71 R845; log 94). -/
  fetched : Option (BitVec 36)
  deriving DecidableEq, Repr

/-- What the integrated device, another core or an external debugger does to this core (61 R676, 62 R733,
63 R753, 92 section 3). -/
inductive HostEvent where
  | setInt (level : Bool)
  | setCint (level : Bool)
  | setMcp (level : Bool)
  | setTben (level : Bool)
  | setHalt (level : Bool)
  | setStop (level : Bool)
  | setPmEvent (level : Bool)
  | setPmQual (n : Fin 4) (level : Bool)
  /-- External proxy off (none), or on with the vector the interrupt controller presents. -/
  | setProxy (vector : Option Word)
  | nmi
  | ude
  | tbTick
  /-- ATB_TICKS_PER_STEP and the cycles of a step, from this step on (92 section 2; 63 R791). -/
  | setAtbTicks (n : Nat)
  | setCycles (n : Nat)
  | message (m : Word)
  /-- Another core's tlbivax: its EA, MAS5[SLPID] and MAS5[SGS] (21 R356). -/
  | tlbInvalidate (ea : Word) (slpid : BitVec 6) (sgs : Bool)
  /-- Another core's tlbsync while one is outstanding (61 R654). -/
  | tlbSyncConflict
  /-- Another master stores bytes from a real address on (20 R313). -/
  | store (addr : BitVec 36) (bytes : List Byte)
  /-- Another processor gains ownership of a block without storing (20 R313). -/
  | claim (addr : BitVec 36)
  /-- A snoop invalidates a data block and its lock; an icbi of another core, an instruction block (20 R327, 62 R733). -/
  | snoopData (addr : BitVec 36)
  /-- A lock of the L1 data cache is lost because a store met a line in the shared state (20 R327, U15). -/
  | loseLock (addr : BitVec 36)
  | snoopIcbi (addr : BitVec 36)
  | coreDbgHalt
  | coreResume
  | writeEdbcr0 (w : Word)
  | writeEdbsrmsk0 (w : Word)
  /-- A write of EEDCR0: forced_halt completes a pending debug halt (14 R275). -/
  | writeEedcr0 (w : Word)
  | clearPrsr (w : Word)
  /-- A write of a register of group 0x3 of the debugger's map, by its index (14 R265). -/
  | writeClock (index : BitVec 8) (w : Word)
  /-- A hard reset (D43); the argument is what TSR[WRS] then reads (D6). -/
  | hardReset (wrs : BitVec 2)
  deriving DecidableEq, Repr

/-- The inputs as they stand, and the events still to come: each step takes one batch. -/
structure Env where
  int   : Bool
  cint  : Bool
  mcp   : Bool
  tben  : Bool
  halt  : Bool
  stop  : Bool
  pmEvent : Bool
  pmQual  : Vector Bool 4
  proxy : Option Word
  /-- The NMI edges not yet taken: one interrupt each (D33). -/
  nmi   : Nat
  /-- A UDE edge not yet seen (63 R751). -/
  ude   : Bool
  /-- Time-base ticks that arrive in each step, besides those of the script (62 R700). -/
  tbTicks : Nat
  /-- ATB_TICKS_PER_STEP (D5), until an event changes it. -/
  atbTicks : Nat
  /-- Core cycles that each step stands for, for the cycle-counting event (63 R791). -/
  cycles : Nat
  script : List (List HostEvent)
  deriving DecidableEq, Repr

/-- What an access asks of a device (20 R280, 41 R534): to read, to write, or a decoration alone. -/
inductive DeviceOp where
  | read
  | write
  | notify
  deriving DecidableEq, Repr

/-- An access that the core hands to a device: the real address of each byte, the bytes stored, and the decoration of
a decorated access to a caching-inhibited page (D22). -/
structure DeviceAccess where
  op    : DeviceOp
  addrs : List (BitVec 36)
  data  : List Byte
  decoration : Option (BitVec 4)
  deriving DecidableEq, Repr

/-- What one step did: the model's own record, cleared at the start of each step. It feeds the performance
monitor (63 R791) and carries the outputs toward the integrated device (92 section 3). -/
structure StepLog where
  /-- The instruction completed (60 R627 step 8). -/
  completed : Bool
  /-- The interrupts taken, newest first. -/
  interrupts : List IntKind
  /-- A taken program interrupt was a trap (63 R791, event 89). -/
  trapTaken : Bool
  /-- IAC1 and IAC2 conditions of this step (63 R742). -/
  iac1 : Bool
  iac2 : Bool
  /-- DAC1 and DAC2 conditions of this step (63 R743). -/
  dac1 : Bool
  dac2 : Bool
  /-- The instruction, the data address compare is in a non-exact mode, where the one condition is a performance event of
  both comparators (63 R791). -/
  iacPair : Bool
  dacPair : Bool
  /-- Load and store micro-ops (63 R789). -/
  loads  : Nat
  stores : Nat
  /-- A decorated load, a decorated store, to caching-inhibited storage. -/
  decLoad  : Bool
  decStore : Bool
  /-- Whether a stwcx. stored. -/
  stwcx : Option Bool
  /-- The DEVNT bits of an mtspr DEVENT. -/
  devnt : BitVec 8
  /-- Time-base transitions seen by the performance monitor (63 R784). -/
  tbEvents : Nat
  /-- pm_event rising edges. -/
  pmEdges : Nat
  /-- Rising and falling edges of the qualifier pins. -/
  qualRise : Vector Bool 4
  qualFall : Vector Bool 4
  /-- A message sent by msgsnd (45 R1140). -/
  msgOut : Option Word
  /-- The external-proxy acknowledge (61 R656). -/
  proxyAck : Bool
  /-- DBCR0[RST] as requested (D12). -/
  resetRequest : Bool
  /-- The accesses handed to devices, in order (20 R280, D22). -/
  devices : List DeviceAccess
  deriving DecidableEq, Repr

/-- The state of the machine. -/
structure State where
  gpr   : Vector Word 32
  fpr   : Vector DWord 32
  cr    : Word
  xer   : Word
  lr    : Word
  ctr   : Word
  fpscr : Word
  msr   : Word
  /-- The next instruction address (10 R46). -/
  pc    : Word
  ctl   : Control
  int   : IntRegs
  sprgs : Sprgs
  tim   : Timers
  cache : Cache
  mmu   : Mmu
  dbg   : Debug
  pm    : PerfMon
  hid   : Hidden
  env   : Env
  mem   : Memory
  physMap : List Region
  /-- The number of free values drawn so far (the model's own; log 9). -/
  draws : Nat
  /-- What the step did (the model's own; log 10). -/
  log   : StepLog
  deriving DecidableEq, Repr

/-- A TLB entry that is not valid, its other fields 0 (21 R360; log 6). -/
def TlbEntry.invalid : TlbEntry :=
  { v := false, iprot := false, tid := 0, ts := false, tsize := 0, epn := 0, rpn := 0, x := 0, wimge := 0,
    u := 0, perm := 0, tgs := false, vf := false, tlpid := 0 }

/-- The entry that reset leaves in TLB1[0] (21 R360, 70 R802): the boot page, supervisor access only,
caching-inhibited, protected from invalidation. The six real address bits the integrated device supplies
are all ones here (log 3). -/
def TlbEntry.boot : TlbEntry :=
  { v := true, iprot := true, tid := 0, ts := false, tsize := 1, epn := 0xFFFFF, rpn := 0xFFFFFF, x := 0,
    wimge := 0b01000, u := 0, perm := 0b010101, tgs := false, vf := false, tlpid := 0 }

/-- A step that has done nothing yet. -/
def StepLog.empty : StepLog :=
  { completed := false, interrupts := [], trapTaken := false, iac1 := false, iac2 := false, dac1 := false,
    dac2 := false, iacPair := false, dacPair := false, loads := 0, stores := 0, decLoad := false, decStore := false, stwcx := none, devnt := 0,
    tbEvents := 0, pmEdges := 0, qualRise := Vector.replicate 4 false, qualFall := Vector.replicate 4 false,
    msgOut := none, proxyAck := false, resetRequest := false, devices := [] }

/-- Control registers at reset (70 R801; log 3). -/
def Control.reset : Control :=
  { msrp := 0, epcr := 0, pvr := 0x80230030, svr := 0, pir := 0, gpir := 0, hid0 := 0, bucsr := 0, cdcsr0 := 1 }

/-- Interrupt registers at reset (70 R801; the vectors: log 4). -/
def IntRegs.reset : IntRegs :=
  { srr0 := 0, srr1 := 0, gsrr0 := 0, gsrr1 := 0, csrr0 := 0, csrr1 := 0, dsrr0 := 0, dsrr1 := 0, mcsrr0 := 0,
    mcsrr1 := 0, esr := 0, gesr := 0, dear := 0, gdear := 0, epr := 0, gepr := 0, mcsr := 0, mcar := 0, ivpr := 0,
    givpr := 0, ivor := Vector.replicate 23 0, givor := Vector.replicate 6 0 }

/-- Cache registers at reset (70 R801); no line is locked (log 5). -/
def Cache.reset : Cache :=
  { l1csr0 := 0, l1csr1 := 0, l1csr2 := 0, l1cfg0 := 0x00B83820, l1cfg1 := 0x00B83820, l2cfg0 := 0x3CB1C002,
    l2csr0 := 0, l2csr1 := 0, l2errinten := 0, l2errdis := 0, l2errdet := 0, l2errattr := 0, l2erraddr := 0,
    l2erreaddr := 0, l2errctl := 0, l2errinjhi := 0, l2errinjlo := 0, l2errinjctl := 0, l2captdatahi := 0,
    l2captdatalo := 0, l2captecc := 0, lockD := [], lockI := [], lockL2 := [],
    recent := [] }

/-- MMU registers and TLBs at reset (70 R801, 21 R360; log 6). -/
def Mmu.reset : Mmu :=
  { lpidr := 0, pid := 0, mmucsr0 := 0, mmucfg := 0x064809C4, tlb0cfg := 0x04110200, tlb1cfg := 0x401BC040,
    mas0 := 0, mas1 := 0, mas2 := 0, mas3 := 0, mas4 := 0, mas5 := 0, mas6 := 0, mas7 := 0, mas8 := 0,
    eplc := 0, epsc := 0, tlb0 := Vector.replicate 512 TlbEntry.invalid, nv := Vector.replicate 128 0,
    tlb1 := (Vector.replicate 64 TlbEntry.invalid).set 0 TlbEntry.boot }

/-- Group 0x3 after power-on reset, of which the spec states no values (log 96). -/
def ClockControl.reset : ClockControl :=
  { pllCtrl := Vector.replicate 2 0, waitrCfg := Vector.replicate 2 0, waitfCfg := Vector.replicate 2 0, testMode := 0,
    silcnDbgCtrl := 0, silcnClkCtrl := Vector.replicate 3 0 }

/-- Debug registers at reset (70 R801): DBSR records the hard reset. -/
def Debug.reset : Debug :=
  { dbcr0 := 0, dbcr1 := 0, dbcr2 := 0, dbcr4 := 0, dbsr := 0x20000000, iac1 := 0, iac2 := 0, dac1 := 0, dac2 := 0,
    nspc := 0, devent := 0, ddam := 0, npidr := 0, dc1 := 0, dc2 := 0, dc4 := 0, wt1 := 0, wmsk := 0, ovcr := 0,
    edbcr0 := 0, edbsr0 := 0, edbsrmsk0 := 0, edbsr1 := 0, edesr := 0, prsr := 0, ijcfg := 0, ijir := 0,
    ijdata0 := 0, ijdata1 := 0, pcc := 0, pmcc := Vector.replicate 4 0, clock := ClockControl.reset }

/-- The performance monitor at reset (14 R266, D4): TRIGONCTL is 0, so every trigger is ON (14 R268). -/
def PerfMon.reset : PerfMon :=
  { pmgc0 := 0, pmlca := Vector.replicate 4 0, pmlcb := Vector.replicate 4 0, pmc := Vector.replicate 4 0,
    trig := Vector.replicate 4 true, wrapped := Vector.replicate 4 false }

/-- The inputs at reset: nothing asserted, the time base not enabled, no event to come (log 8). -/
def Env.reset : Env :=
  { int := false, cint := false, mcp := false, tben := false, halt := false, stop := false, pmEvent := false,
    pmQual := Vector.replicate 4 false, proxy := none, nmi := 0, ude := false, tbTicks := 1, atbTicks := 1,
    cycles := 1, script := [] }

/-- The machine right after power-on reset (70 R801, R802). -/
def State.reset : State :=
  { gpr := Vector.replicate 32 0
    fpr := Vector.replicate 32 0
    cr := 0
    xer := 0
    lr := 0
    ctr := 0
    fpscr := 0
    msr := 0
    pc := 0xFFFFFFFC
    ctl := Control.reset
    int := IntRegs.reset
    sprgs := { sprg := Vector.replicate 10 0, gsprg := Vector.replicate 4 0, usprg0 := 0 }
    tim := { tb := 0, atb := 0, dec := 0, decar := 0, tcr := 0, tsr := 0 }
    cache := Cache.reset
    mmu := Mmu.reset
    dbg := Debug.reset
    pm := PerfMon.reset
    hid :=
      { reserve := none, dbell := Vector.replicate 5 false, waiting := false, dbgHalted := false, pm := .fullOn,
        fetched := none }
    env := Env.reset
    mem := { cells := [] }
    physMap := []
    draws := 0
    log := StepLog.empty }

end Sys2Proof.Machine
end

