-- ==== Sys2Proof/Machine/Ops.lean ====
section
/-! DEFINITION. The named operations over registers and memory, free values, taking an interrupt (60 R605)
and returning from one (45 R1116, R1117), the privilege tests (60 R627) and the response to a debug
condition (63 R741). -/

namespace Sys2Proof.Machine

/-- What an instruction or a step answers. -/
abbrev Out := Host.Outcome State Fault Refusal

/-- What a part of an instruction ends in: a value and the state reached, or the end of the instruction. -/
inductive Res (α : Type) where
  | ok (a : α) (s : State)
  | done (o : Out)

/-- Go on with the instruction, if the part did not end it. -/
def Res.andThen {α : Type} : Res α → (α → State → Out) → Out
  | .ok a s, k => k a s
  | .done o, _ => o

/-- Go on with another part. -/
def Res.bind {α β : Type} : Res α → (α → State → Res β) → Res β
  | .ok a s, k => k a s
  | .done o, _ => .done o

/-! ### Bits of a word -/

/-- Bit n of a 32-bit register in the manual's numbering, 32 the most significant (00 R11). -/
def bit (w : Word) (n : Nat) : Bool := w.getLsbD (63 - n)

/-- A word with the bits of a mask taken from another word. -/
def mix (old new mask : Word) : Word := (old &&& ~~~mask) ||| (new &&& mask)

/-- A mask if a condition holds, else no bit. -/
def maskIf (c : Bool) (m : Word) : Word := if c then m else 0

/-! ### The machine state register (10 R40) -/

def State.gs (s : State) : Bool := bit s.msr 35
def State.ucle (s : State) : Bool := bit s.msr 37
def State.ce (s : State) : Bool := bit s.msr 46
def State.ee (s : State) : Bool := bit s.msr 48
def State.pr (s : State) : Bool := bit s.msr 49
def State.fpOn (s : State) : Bool := bit s.msr 50
def State.me (s : State) : Bool := bit s.msr 51
def State.fe (s : State) : Bool := bit s.msr 52 || bit s.msr 55
def State.de (s : State) : Bool := bit s.msr 54
def State.is (s : State) : Bool := bit s.msr 58
def State.ds (s : State) : Bool := bit s.msr 59
def State.pmm (s : State) : Bool := bit s.msr 61

/-- The defined bits of MSR (45 R1116). -/
def msrDefined : Word := 0x1402FB36

/-- The MSR bits that a write in guest supervisor state leaves as they are (45 R1116, D2). -/
def State.msrKept (s : State) : Word :=
  if s.gs && !s.pr then
    0x10001000 ||| maskIf (bit s.ctl.msrp 37) 0x04000000 ||| maskIf (bit s.ctl.msrp 54) 0x00000200 |||
      maskIf (bit s.ctl.msrp 61) 0x00000004
  else 0

/-- WriteMSR (45 R1116). -/
def State.writeMsr (v : Word) (s : State) : State :=
  { s with msr := (s.msr &&& s.msrKept) ||| (v &&& msrDefined &&& ~~~s.msrKept) }

/-! ### Registers -/

/-- A general-purpose register (10 R21). -/
def State.getGpr (s : State) (r : BitVec 5) : Word := s.gpr[r.toNat]'r.isLt

/-- Write a general-purpose register. -/
def State.setGpr (r : BitVec 5) (v : Word) (s : State) : State :=
  { s with gpr := s.gpr.set r.toNat v r.isLt }

/-- A floating-point register (10 R25). -/
def State.getFpr (s : State) (r : BitVec 5) : DWord := s.fpr[r.toNat]'r.isLt

/-- Write a floating-point register. -/
def State.setFpr (r : BitVec 5) (v : DWord) (s : State) : State :=
  { s with fpr := s.fpr.set r.toNat v r.isLt }

def State.setCr (v : Word) (s : State) : State := { s with cr := v }
def State.setXer (v : Word) (s : State) : State := { s with xer := v }
def State.setLr (v : Word) (s : State) : State := { s with lr := v }
def State.setCtr (v : Word) (s : State) : State := { s with ctr := v }
def State.setFpscr (v : Word) (s : State) : State := { s with fpscr := v }
def State.setDbsr (v : Word) (s : State) : State := { s with dbg := { s.dbg with dbsr := v } }
def State.setReserve (r : Option Reservation) (s : State) : State :=
  { s with hid := { s.hid with reserve := r } }

/-- Set the next word of the fetch group that has been brought. -/
def State.setFetched (a : Option (BitVec 36)) (s : State) : State :=
  { s with hid := { s.hid with fetched := a } }
def State.setLog (l : StepLog) (s : State) : State := { s with log := l }

/-! Updates of one group of registers. -/

def State.withInt (f : IntRegs → IntRegs) (s : State) : State := { s with int := f s.int }
def State.withCtl (f : Control → Control) (s : State) : State := { s with ctl := f s.ctl }
def State.withCache (f : Cache → Cache) (s : State) : State := { s with cache := f s.cache }
def State.withMmu (f : Mmu → Mmu) (s : State) : State := { s with mmu := f s.mmu }
def State.withDbg (f : Debug → Debug) (s : State) : State := { s with dbg := f s.dbg }
def State.withTim (f : Timers → Timers) (s : State) : State := { s with tim := f s.tim }

/-- The instruction completes and the one at an address is next (10 R46, 60 R627 step 8). -/
def State.goto (target : Word) (s : State) : State :=
  { s with pc := target, log := { s.log with completed := true } }

/-- The instruction completes and the one after it is next; the address wraps (10 R47). -/
def State.advance (s : State) : State := s.goto (s.pc + 4)

/-- The outcome of an instruction that completes with the next address. -/
def State.finish (s : State) : Out := .next s.advance

/-! ### Free values (log 9) -/

/-- A free word. -/
def State.drawWord (s : State) : Word × State := (Config.freeWord s.draws, { s with draws := s.draws + 1 })
/-- A free double word. -/
def State.drawDWord (s : State) : DWord × State := (Config.freeDWord s.draws, { s with draws := s.draws + 1 })
/-- A free truth value. -/
def State.drawBit (s : State) : Bool × State := (Config.freeBit s.draws, { s with draws := s.draws + 1 })
/-- Free LT, GT and EQ. -/
def State.drawCr (s : State) : BitVec 3 × State := (Config.freeCr s.draws, { s with draws := s.draws + 1 })
/-- A free FPRF. -/
def State.drawFprf (s : State) : BitVec 5 × State := (Config.freeFprf s.draws, { s with draws := s.draws + 1 })
/-- A free next-victim number. -/
def State.drawVictim (s : State) : BitVec 2 × State := (Config.freeVictim s.draws, { s with draws := s.draws + 1 })

/-! ### Storage (20 R280) -/

/-- What a byte that nothing has written reads as (log 1). -/
def Memory.unwritten : Byte := 0

/-- The byte that a list of cells gives an address. -/
def Memory.lookup : List Host.Cell → Nat → Byte
  | [], _ => Memory.unwritten
  | (x, b) :: rest, a => if a = x then b else Memory.lookup rest a

/-- The cells with one byte replaced, in canonical form again. -/
def Memory.insert : List Host.Cell → Nat → Byte → List Host.Cell
  | [], a, v => if v = Memory.unwritten then [] else [(a, v)]
  | (x, b) :: rest, a, v =>
    if a < x then (if v = Memory.unwritten then (x, b) :: rest else (a, v) :: (x, b) :: rest)
    else if a = x then (if v = Memory.unwritten then rest else (a, v) :: rest)
    else (x, b) :: Memory.insert rest a v

/-- One byte of storage. -/
def Memory.read (m : Memory) (a : Nat) : Byte := Memory.lookup m.cells a

/-- Write one byte of storage. -/
def Memory.write (a : Nat) (v : Byte) (m : Memory) : Memory := { cells := Memory.insert m.cells a v }

/-- The canonical form: addresses strictly rising, no cell equal to what an unlisted address reads as. -/
abbrev Memory.wf (m : Memory) : Prop :=
  m.cells.Pairwise (fun x y => x.1 < y.1) ∧ ∀ c ∈ m.cells, c.2 ≠ Memory.unwritten

/-- Write bytes at the addresses listed beside them. -/
def Memory.writeList (l : List (BitVec 36 × Byte)) (m : Memory) : Memory :=
  l.foldl (fun m x => m.write x.1.toNat x.2) m

/-- One byte of storage, as State reads it. -/
def State.readByte (s : State) (a : BitVec 36) : Byte := s.mem.read a.toNat

/-- Write bytes at the addresses listed beside them. -/
def State.writeBytes (l : List (BitVec 36 × Byte)) (s : State) : State := { s with mem := s.mem.writeList l }

/-- The number whose bytes, most significant first, are listed. -/
def bytesToNat (l : List Byte) : Nat := l.foldl (fun n b => n * 256 + b.toNat) 0

/-- The n low bytes of a number, most significant first. -/
def natToBytes (n v : Nat) : List Byte := (List.range n).map fun i => BitVec.ofNat 8 (v / 256 ^ (n - 1 - i))

/-! ### The physical address map (20 R280) -/

/-- What lies at an address, if it is not storage: the first region that holds it says. -/
def State.regionAt (s : State) (a : BitVec 36) : Option RegionKind :=
  (s.physMap.find? fun r => decide (r.base ≤ a.toNat) && decide (a.toNat < r.base + r.size)).map (·.kind)

/-- What lies at a list of addresses, if it is not all storage: nothing, if one of them is absent; else a device, if
one of them is a device's. -/
def State.regionOf (s : State) (l : List (BitVec 36)) : Option RegionKind :=
  if l.any fun a => s.regionAt a == some .absent then some .absent
  else if l.any fun a => s.regionAt a == some .device then some .device
  else none

/-- The 64-byte granule of a real address. -/
def granuleOf (a : BitVec 36) : BitVec 30 := a.extractLsb' 6 30

/-- Hand an access to a device: an output of the step (20 R280). -/
def State.noteDevice (d : DeviceAccess) (s : State) : State :=
  { s with log := { s.log with devices := s.log.devices ++ [d] } }

/-! ### Taking an interrupt (60 R603 to R606) -/

/-- An interrupt about to be taken: its kind, whether it is directed to the guest (60 R603), whether it is
asynchronous, the address at which processing resumes (60 R602), and what (G)ESR and (G)DEAR receive. -/
structure Interrupt where
  kind  : IntKind
  guest : Bool
  async : Bool
  ret   : Word
  esr   : Option Word
  dear  : Option Word
  deriving DecidableEq, Repr

/-- The save/restore pairs (60 R601). -/
inductive SavePair where
  | srr
  | gsrr
  | csrr
  | dsrr
  | mcsrr
  deriving DecidableEq, Repr

/-- The pair an interrupt saves into (60 R601); the guest doorbell uses the guest pair (61 R673). -/
def IntKind.savePair (k : IntKind) (guest : Bool) : SavePair :=
  match k with
  | .criticalInput | .watchdog | .doorbellCritical | .guestDoorbellCritical | .guestDoorbellMachineCheck => .csrr
  | .machineCheck | .errorReport | .nmi => .mcsrr
  | .debug => .dsrr
  | .guestDoorbell => .gsrr
  | .dataStorage | .instrStorage | .externalInput | .alignment | .program | .fpUnavailable | .systemCall
  | .hvSystemCall | .decrementer | .fixedInterval | .dataTlbError | .instrTlbError | .perfMonitor | .doorbell
  | .hvPrivilege => if guest then .gsrr else .srr

/-- Write a save/restore pair. -/
def IntRegs.save (p : SavePair) (pc msr : Word) (r : IntRegs) : IntRegs :=
  match p with
  | .srr => { r with srr0 := pc, srr1 := msr }
  | .gsrr => { r with gsrr0 := pc, gsrr1 := msr }
  | .csrr => { r with csrr0 := pc, csrr1 := msr }
  | .dsrr => { r with dsrr0 := pc, dsrr1 := msr }
  | .mcsrr => { r with mcsrr0 := pc, mcsrr1 := msr }

/-- Write (G)ESR and (G)DEAR (60 R610). -/
def IntRegs.syndrome (guest : Bool) (esr dear : Option Word) (r : IntRegs) : IntRegs :=
  if guest then { r with gesr := esr.getD r.gesr, gdear := dear.getD r.gdear }
  else { r with esr := esr.getD r.esr, dear := dear.getD r.dear }

/-- The MSR bits that the entry leaves unchanged (60 R605). -/
def keepMask (k : IntKind) (guest : Bool) (msrp : Word) : Word :=
  match k with
  | .machineCheck | .errorReport | .nmi => 0
  | .debug => 0x00001002
  | .criticalInput | .watchdog | .doorbellCritical | .guestDoorbellCritical | .guestDoorbellMachineCheck => 0x00001202
  | .guestDoorbell => 0x00021202
  | .dataStorage | .instrStorage | .externalInput | .alignment | .program | .fpUnavailable | .systemCall
  | .hvSystemCall | .decrementer | .fixedInterval | .dataTlbError | .instrTlbError | .perfMonitor | .doorbell
  | .hvPrivilege =>
    if guest then 0x10021202 ||| maskIf (bit msrp 37) 0x04000000 ||| maskIf (bit msrp 61) 0x00000004
    else 0x00021202

/-- The place of an interrupt's IVOR in State (11 R127). -/
def IntKind.ivor : IntKind → Fin 23
  | .criticalInput => 0
  | .machineCheck | .errorReport | .nmi => 1
  | .dataStorage => 2
  | .instrStorage => 3
  | .externalInput => 4
  | .alignment => 5
  | .program => 6
  | .fpUnavailable => 7
  | .systemCall => 8
  | .decrementer => 10
  | .fixedInterval => 11
  | .watchdog => 12
  | .dataTlbError => 13
  | .instrTlbError => 14
  | .debug => 15
  | .perfMonitor => 16
  | .doorbell => 17
  | .doorbellCritical => 18
  | .guestDoorbell => 19
  | .guestDoorbellCritical | .guestDoorbellMachineCheck => 20
  | .hvSystemCall => 21
  | .hvPrivilege => 22

/-- The place of an interrupt's GIVOR, for the six interrupts that have one (11 R127). -/
def IntKind.givor : IntKind → Fin 6
  | .instrStorage => 1
  | .externalInput => 2
  | .systemCall => 3
  | .dataTlbError => 4
  | .instrTlbError => 5
  | .dataStorage | .criticalInput | .machineCheck | .errorReport | .nmi | .alignment | .program | .fpUnavailable
  | .hvSystemCall | .decrementer | .fixedInterval | .watchdog | .debug | .perfMonitor | .doorbell
  | .doorbellCritical | .guestDoorbell | .guestDoorbellCritical | .guestDoorbellMachineCheck | .hvPrivilege => 0

/-- The vector of prefix and offset registers (60 R606). -/
def vectorOf (prefixReg offsetReg : Word) : Word := (prefixReg &&& 0xFFFF0000) ||| (offsetReg &&& 0x0000FFF0)

/-- The address at which the handler starts (60 R606). -/
def IntRegs.vector (k : IntKind) (guest : Bool) (r : IntRegs) : Word :=
  if guest then vectorOf r.givpr (r.givor.get k.givor) else vectorOf r.ivpr (r.ivor.get k.ivor)

/-- Taking an interrupt (60 R605). -/
def State.takeInterrupt (i : Interrupt) (s : State) : State :=
  { s with
    int := (s.int.save (i.kind.savePair i.guest) i.ret s.msr).syndrome i.guest i.esr i.dear
    msr := s.msr &&& keepMask i.kind i.guest s.ctl.msrp
    pc := s.int.vector i.kind i.guest
    hid := { s.hid with reserve := if i.async then none else s.hid.reserve, waiting := false }
    log := { s.log with interrupts := i.kind :: s.log.interrupts } }

/-- A synchronous interrupt directed to the hypervisor that saves the instruction's own address. -/
def State.takeHere (k : IntKind) (esr dear : Option Word) (s : State) : State :=
  s.takeInterrupt { kind := k, guest := false, async := false, ret := s.pc, esr := esr, dear := dear }

/-- Return from an interrupt: MSR and the next address come from a pair (45 R1117). -/
def State.returnTo (srr0 srr1 : Word) (s : State) : State :=
  (s.writeMsr srr1).goto (srr0 &&& 0xFFFFFFFC)

/-! ### Interrupts that end an instruction -/

/-- Program interrupt with a syndrome (61 R662). -/
def State.program (esr : Word) (s : State) : Out := .next (s.takeHere .program (some esr) none)

/-- Illegal instruction exception: ESR[PIL]. -/
def State.illegal (s : State) : Out := s.program 0x08000000

/-- Privileged instruction exception: ESR[PPR]. -/
def State.privileged (s : State) : Out := s.program 0x04000000

/-- Hypervisor privilege interrupt (61 R690). -/
def State.hvPrivilege (s : State) : Out := .next (s.takeHere .hvPrivilege none none)

/-- Floating-point unavailable interrupt (61 R661). -/
def State.fpUnavailable (s : State) : Out := .next (s.takeHere .fpUnavailable none none)

/-- The rest of an instruction that supervisor state may execute (45 R1110). -/
def State.supervisorOnly (s : State) (rest : Out) : Out := if s.pr then s.privileged else rest

/-- The rest of an instruction that only hypervisor state may execute (45 R1110). -/
def State.hypervisorOnly (s : State) (rest : Out) : Out :=
  if s.pr then s.privileged else if s.gs then s.hvPrivilege else rest

/-- The rest of a floating-point instruction (61 R661). -/
def State.needFp (s : State) (rest : Out) : Out := if s.fpOn then rest else s.fpUnavailable

/-! ### Machine checks (11 R136, R137; 61 R652 to R654) -/

/-- Set MCSR bits, and MCAR with MAV and MEA if an address comes with the error and MAV is 0. -/
def State.logMachineCheck (bits : Word) (addr : Option DWord) (isEa : Bool) (s : State) : State :=
  match addr with
  | none => { s with int := { s.int with mcsr := s.int.mcsr ||| bits } }
  | some a =>
    if bit s.int.mcsr 44 then { s with int := { s.int with mcsr := s.int.mcsr ||| bits } }
    else
      { s with
        int :=
          { s.int with
            mcsr := ((s.int.mcsr ||| bits) &&& 0xFFFBFFFF) ||| 0x00080000 ||| maskIf isEa 0x00040000
            mcar := a } }

/-- Error report interrupt with MCSR bits (61 R653). -/
def State.errorReport (bits : Word) (s : State) : Out :=
  .next ((s.logMachineCheck bits none false).takeHere .errorReport none none)

/-! ### The response to a debug condition (63 R741) -/

/-- Status bits of DBSR and EDBSR0 (63 R740). -/
def dbIde : Word := 0x80000000
def dbUde : Word := 0x40000000
def dbIcmp : Word := 0x08000000
def dbBrt : Word := 0x04000000
def dbIrpt : Word := 0x02000000
def dbTrap : Word := 0x01000000
def dbRet : Word := 0x00008000
def dbCirpt : Word := 0x00000040
def dbCret : Word := 0x00000020

/-- The core is in external debug mode: EDBCR0[EDM] (14 R272). -/
def State.edm (s : State) : Bool := bit s.dbg.edbcr0 32

/-- Whether the core executes: fully on and not halted for debug (62 R720). While it does not, PRSR[HALTED] is 1. -/
def State.running (s : State) : Bool := s.hid.pm = .fullOn && !s.hid.dbgHalted

/-- DBCR0 as it reads: EDM mirrors EDBCR0[EDM] (14 R251). -/
def State.dbcr0 (s : State) : Word := (s.dbg.dbcr0 &&& 0x7FFFFFFF) ||| maskIf s.edm 0x80000000

/-- A condition's status bit, if DBCR0 enables the condition. -/
def State.enabledBit (s : State) (n : Nat) (b : Word) : Word := maskIf (bit s.dbg.dbcr0 n) b

/-- What a debug condition does. -/
inductive DebugAction where
  | ignore
  | record (bits : Word)
  | interrupt (bits : Word)
  | halt (bits : Word)
  | mark (bits : Word)
  deriving DecidableEq, Repr

/-- Suppression of debug events in hypervisor state: EPCR[DUVD] (63 R741 d). -/
def State.debugSuppressed (s : State) : Bool := bit s.ctl.epcr 37 && !s.gs

/-- The bits that EDBSR0 takes: in the non-exact instruction address modes IAC1 alone (14 R273). -/
def State.edbsrBits (bits : Word) (s : State) : Word :=
  bits &&& ~~~maskIf (s.dbg.dbcr1.extractLsb' 22 2 ≠ 0) 0x00400000

/-- Respond: what conditions with these status bits do, with MSR[DE] as given (63 R741). -/
def State.debugAction (bits : Word) (de : Bool) (s : State) : DebugAction :=
  if bits = 0 || !s.running then .ignore
  else if s.debugSuppressed && bits &&& dbUde = 0 then .ignore
  else if s.edm then
    if s.edbsrBits bits &&& ~~~(s.dbg.edbsrmsk0 &&& 0x00CF0000) = 0 then .mark (s.edbsrBits bits)
    else .halt (s.edbsrBits bits)
  else if !bit s.dbg.dbcr0 33 then .ignore
  else if de then .interrupt (if bits &&& dbUde = 0 then bits else bits ||| dbIde)
  else if bits &&& ~~~(dbIcmp ||| dbBrt) = 0 then .ignore
  else .record (bits &&& ~~~(dbIcmp ||| dbBrt) ||| dbIde)

/-- Take the debug interrupt (61 R669). -/
def State.takeDebug (bits addr : Word) (async : Bool) (s : State) : State :=
  (s.setDbsr (s.dbg.dbsr ||| bits)).takeInterrupt
    { kind := .debug, guest := false, async := async, ret := addr, esr := none, dear := none }

/-- Halt for a debug event in external debug mode (63 R741, R753). -/
def State.haltForDebug (bits addr : Word) (s : State) : State :=
  { s with
    pc := addr
    dbg := { s.dbg with edbsr0 := bits, prsr := s.dbg.prsr ||| 0x08000000 }
    hid := { s.hid with dbgHalted := true } }

/-- Set EDBSR0 bits whose halt is masked (14 R273). -/
def State.markEdbsr (bits : Word) (s : State) : State :=
  { s with dbg := { s.dbg with edbsr0 := s.dbg.edbsr0 ||| bits } }

/-- The response to conditions recognised before the instruction completes: DSRR0 is its own address. -/
def State.debugBefore (bits : Word) (de : Bool) (s : State) : Res Unit :=
  match s.debugAction bits de with
  | .ignore => .ok () s
  | .record b => .ok () (s.setDbsr (s.dbg.dbsr ||| b))
  | .interrupt b => .done (.next (s.takeDebug b s.pc false))
  | .halt b => .done (.next (s.haltForDebug b s.pc))
  | .mark b => .ok () (s.markEdbsr b)

/-- The response to conditions recognised at an instruction boundary: DSRR0 is the next address. -/
def State.debugAfter (bits : Word) (de async : Bool) (s : State) : State :=
  match s.debugAction bits de with
  | .ignore => s
  | .record b => s.setDbsr (s.dbg.dbsr ||| b)
  | .interrupt b => s.takeDebug b s.pc async
  | .halt b => s.haltForDebug b s.pc
  | .mark b => s.markEdbsr b

end Sys2Proof.Machine
end

