-- ==== Sys2Proof/Machine/Mmu.lean ====
section
/-! DEFINITION. Address translation: contexts, the hit compare, permissions, the real address, and what the
hardware writes into the MAS registers (21_mmu.md; 13 R244). -/

namespace Sys2Proof.Machine

/-- What an access does, for permissions (21 R342). -/
inductive AccessKind where
  | execute
  | read
  | write
  deriving DecidableEq, Repr

/-- The components of the virtual address but the effective address, and the privilege (21 R331). -/
structure Ctx where
  gs   : Bool
  lpid : BitVec 6
  as   : Bool
  pid  : BitVec 8
  pr   : Bool
  deriving DecidableEq, Repr

/-- Whose context translates a data access (21 R331, R343). -/
inductive PidContext where
  | running
  | extLoad
  | extStore
  deriving DecidableEq, Repr

/-- The context of an instruction fetch. -/
def State.fetchCtx (s : State) : Ctx :=
  { gs := s.gs, lpid := s.mmu.lpidr.setWidth 6, as := s.is, pid := s.mmu.pid.setWidth 8, pr := s.pr }

/-- The context that EPLC or EPSC describes (13 R246). -/
def extCtx (w : Word) : Ctx :=
  { gs := bit w 34, lpid := w.extractLsb' 16 6, as := bit w 33, pid := w.setWidth 8, pr := bit w 32 }

/-- The context of a data access. -/
def State.dataCtx (s : State) (p : PidContext) : Ctx :=
  match p with
  | .running => { s.fetchCtx with as := s.ds }
  | .extLoad => extCtx s.mmu.eplc
  | .extStore => extCtx s.mmu.epsc

/-- The context of a tlbsx search (21 R350). -/
def State.searchCtx (s : State) : Ctx :=
  { gs := bit s.mmu.mas5 32, lpid := s.mmu.mas5.setWidth 6, as := bit s.mmu.mas6 63,
    pid := s.mmu.mas6.extractLsb' 16 8, pr := false }

/-- The place of a TLB entry. -/
inductive TlbLoc where
  | tlb0 (set : BitVec 7) (way : BitVec 2)
  | tlb1 (n : BitVec 6)
  deriving DecidableEq, Repr

/-- The entry at a place. -/
def Mmu.entry (m : Mmu) : TlbLoc → TlbEntry
  | .tlb0 set way => m.tlb0[(set ++ way).toNat]'(set ++ way).isLt
  | .tlb1 n => m.tlb1[n.toNat]'n.isLt

/-- Replace the entry at a place. -/
def Mmu.setEntry (l : TlbLoc) (e : TlbEntry) (m : Mmu) : Mmu :=
  match l with
  | .tlb0 set way => { m with tlb0 := m.tlb0.set (set ++ way).toNat e (set ++ way).isLt }
  | .tlb1 n => { m with tlb1 := m.tlb1.set n.toNat e n.isLt }

/-- The page size code an entry acts with: TLB0 pages and invalid codes are 4 Kbytes (21 R334, D19). -/
def TlbEntry.sizeCode (l : TlbLoc) (e : TlbEntry) : Nat :=
  match l with
  | .tlb0 _ _ => 1
  | .tlb1 _ => if 1 ≤ e.tsize.toNat ∧ e.tsize.toNat ≤ 11 then e.tsize.toNat else 1

/-- OFFMASK: the address bits inside the page (21 R334). -/
def TlbEntry.offMask (l : TlbLoc) (e : TlbEntry) : Word := BitVec.ofNat 32 (2 ^ (10 + 2 * e.sizeCode l) - 1)

/-- The effective page numbers agree above the page offset (21 R335 point 6). -/
def TlbEntry.covers (l : TlbLoc) (e : TlbEntry) (ea : Word) : Bool :=
  (ea &&& ~~~e.offMask l) == ((e.epn ++ (0 : BitVec 12)) &&& ~~~e.offMask l)

/-- The hit compare (21 R335). -/
def TlbEntry.hits (l : TlbLoc) (c : Ctx) (ea : Word) (e : TlbEntry) : Bool :=
  e.v && (e.ts == c.as) && (e.tgs == c.gs) && (e.tlpid == c.lpid || e.tlpid == 0) &&
    (e.tid == c.pid || e.tid == 0) && e.covers l ea

/-- The TLB0 set of an address: EA bits 45 to 51 (21 R333). -/
def tlbSet (ea : Word) : BitVec 7 := ea.extractLsb' 12 7

/-- The places an address can hit: its TLB0 set, and all of TLB1 (21 R335). -/
def tlbCandidates (ea : Word) : List TlbLoc :=
  (List.range 4).map (fun w => .tlb0 (tlbSet ea) (BitVec.ofNat 2 w)) ++
    (List.range 64).map (fun n => .tlb1 (BitVec.ofNat 6 n))

/-- The places of the entries that match (21 R330). -/
def Mmu.matches (m : Mmu) (c : Ctx) (ea : Word) : List TlbLoc :=
  (tlbCandidates ea).filter fun l => (m.entry l).hits l c ea

/-- Why a translation fails. -/
inductive XlateFail where
  | miss
  | multiple
  | virtualization
  | denied
  deriving DecidableEq, Repr

/-- A translated address: the real address and W, I, M, G, E. -/
structure Xlated where
  ra    : BitVec 36
  wimge : BitVec 5
  deriving DecidableEq, Repr

/-- The permission bits UX, SX, UW, SW, UR, SR allow the access (21 R339). -/
def TlbEntry.permits (e : TlbEntry) (k : AccessKind) (pr : Bool) : Bool :=
  match k with
  | .execute => e.perm.getLsbD (if pr then 5 else 4)
  | .write => e.perm.getLsbD (if pr then 3 else 2)
  | .read => e.perm.getLsbD (if pr then 1 else 0)

/-- The real address of a matching entry (21 R336). -/
def TlbEntry.realAddr (l : TlbLoc) (e : TlbEntry) (ea : Word) : BitVec 36 :=
  ((e.rpn ++ (0 : BitVec 12)) &&& ~~~(e.offMask l).setWidth 36) ||| (ea &&& e.offMask l).setWidth 36

/-- Translate (21 R330). -/
def Mmu.translate (m : Mmu) (c : Ctx) (k : AccessKind) (ea : Word) : Except XlateFail Xlated :=
  match m.matches c ea with
  | [] => .error .miss
  | [l] =>
    if k ≠ .execute ∧ (m.entry l).vf then .error .virtualization
    else if (m.entry l).permits k c.pr then
      .ok { ra := (m.entry l).realAddr l ea, wimge := (m.entry l).wimge }
    else .error .denied
  | _ :: _ :: _ => .error .multiple

/-! ### MAS registers (13 R235 to R244) -/

/-- The next-victim value of a TLB0 set (21 R352). -/
def Mmu.nextVictim (m : Mmu) (set : BitVec 7) : BitVec 2 := m.nv[set.toNat]'set.isLt

/-- A MAS register field by field: TLBSEL, ESEL, NV of MAS0. -/
def mas0Of (tlbsel : Bool) (esel : BitVec 6) (nv : BitVec 2) : Word :=
  maskIf tlbsel 0x10000000 ||| (esel.setWidth 32 <<< 16) ||| nv.setWidth 32

/-- V, IPROT, TID, TS, TSIZE of MAS1. -/
def mas1Of (v iprot : Bool) (tid : BitVec 8) (ts : Bool) (tsize : BitVec 4) : Word :=
  maskIf v 0x80000000 ||| maskIf iprot 0x40000000 ||| (tid.setWidth 32 <<< 16) ||| maskIf ts 0x00001000 |||
    (tsize.setWidth 32 <<< 8)

/-- MAS7 as the hardware updates it: only with HID0[EN_MAS7_UPDATE] (13 R242). -/
def State.updatedMas7 (s : State) (rpn : BitVec 4) : Word :=
  if bit s.ctl.hid0 56 then rpn.setWidth 32 else s.mmu.mas7

/-- The victim way that the hardware proposes, and the next one (13 R244 columns a and c). -/
def State.victimMas0 (s : State) (ea : Word) : Word :=
  if bit s.mmu.mas4 35 then mas0Of true 0 0
  else mas0Of false ((s.mmu.nextVictim (tlbSet ea)).setWidth 6) (s.mmu.nextVictim (tlbSet ea) + 1)

/-- The template that a miss loads (13 R244 columns a and c): MAS0 to MAS3 and MAS7. -/
def State.missTemplate (s : State) (ea : Word) (v : Bool) (tid : BitVec 8) (ts : Bool) : Mmu :=
  { s.mmu with
    mas0 := s.victimMas0 ea
    mas1 := mas1Of v false tid ts (s.mmu.mas4.extractLsb' 8 4)
    mas2 := (ea &&& 0xFFFFF000) ||| (s.mmu.mas4 &&& 0x0000007F)
    mas3 := 0
    mas7 := s.updatedMas7 0 }

/-- A TLB error loads MAS0 to MAS3, MAS6 and MAS7 for the context of the access (13 R244 column a), unless it goes
to the hypervisor with EPCR[DMIUH] (21 R359). -/
def State.loadMasOnMiss (guest : Bool) (c : Ctx) (ea : Word) (s : State) : State :=
  if !guest && bit s.ctl.epcr 41 then s
  else
    { s with
      mmu :=
        { s.missTemplate ea true c.pid c.as with
          mas6 := (c.pid.setWidth 32 <<< 16) ||| maskIf c.as 1 } }

/-- The effective page number that an entry reads back with: TLB0 gives the set (13 R244). -/
def TlbEntry.epnRead (l : TlbLoc) (e : TlbEntry) : BitVec 20 :=
  match l with
  | .tlb0 set _ => (e.epn.extractLsb' 7 13 ++ set : BitVec 20)
  | .tlb1 _ => e.epn

/-- MAS1, MAS2, MAS3, MAS7 and MAS8 from an entry (13 R244 columns b and d). -/
def State.masFromEntry (s : State) (l : TlbLoc) : Mmu :=
  let e := s.mmu.entry l
  { s.mmu with
    mas1 :=
      match l with
      | .tlb0 _ _ => mas1Of e.v false e.tid e.ts 1
      | .tlb1 _ => mas1Of e.v e.iprot e.tid e.ts e.tsize
    mas2 :=
      ((e.epnRead l).setWidth 32 <<< 12) ||| (e.x.setWidth 32 <<< 5) ||| e.wimge.setWidth 32
    mas3 := ((e.rpn.setWidth 20).setWidth 32 <<< 12) ||| (e.u.setWidth 32 <<< 6) ||| e.perm.setWidth 32
    mas7 := s.updatedMas7 (e.rpn.extractLsb' 20 4)
    mas8 := maskIf e.tgs 0x80000000 ||| maskIf e.vf 0x40000000 ||| e.tlpid.setWidth 32 }

/-- The place that MAS0 and MAS2 select (21 R348). -/
def Mmu.selected (m : Mmu) : TlbLoc :=
  if bit m.mas0 35 then .tlb1 (m.mas0.extractLsb' 16 6) else .tlb0 (tlbSet m.mas2) (m.mas0.extractLsb' 16 2)

/-- The entry that the MAS registers describe (21 R349). -/
def Mmu.entryFromMas (m : Mmu) : TlbEntry :=
  { v := bit m.mas1 32
    iprot := bit m.mas0 35 && bit m.mas1 33
    tid := m.mas1.extractLsb' 16 8
    ts := bit m.mas1 51
    tsize :=
      if bit m.mas0 35 && decide (1 ≤ (m.mas1.extractLsb' 8 4).toNat) && decide ((m.mas1.extractLsb' 8 4).toNat ≤ 11)
      then m.mas1.extractLsb' 8 4 else 1
    epn := m.mas2.extractLsb' 12 20
    rpn := m.mas7.setWidth 4 ++ m.mas3.extractLsb' 12 20
    x := m.mas2.extractLsb' 5 2
    wimge := m.mas2.setWidth 5
    u := m.mas3.extractLsb' 6 4
    perm := m.mas3.setWidth 6
    tgs := bit m.mas8 32
    vf := bit m.mas8 33
    tlpid := m.mas8.setWidth 6 }

/-! ### Invalidation (21 R346, R351, R353, R355) -/

/-- An entry that is selected and not protected loses its valid bit. -/
def TlbEntry.invalidateIf (p : Bool) (e : TlbEntry) : TlbEntry := if p && !e.iprot then { e with v := false } else e

/-- Invalidate the entries of TLB0 that a test selects; they have no IPROT. What the next-victim numbers of the sets are
after it is State.freeNv's. -/
def Mmu.invalidate0 (p : TlbEntry → Bool) (m : Mmu) : Mmu :=
  { m with tlb0 := m.tlb0.map fun e => if p e then { e with v := false } else e }

/-- Invalidate the entries of TLB1 that a test selects, but for those with IPROT (21 R346). -/
def Mmu.invalidate1 (p : TlbEntry → Bool) (m : Mmu) : Mmu :=
  { m with tlb1 := m.tlb1.map fun e => e.invalidateIf (p e) }

/-- The page of an entry holds the address; in TLB0 pages are 4 Kbytes (21 R351). -/
def TlbEntry.pageOf (one : Bool) (ea : Word) (e : TlbEntry) : Bool :=
  e.covers (if one then .tlb1 0 else .tlb0 0 0) ea

/-- The effect of a tlbivax with its EA, MAS5[SLPID] and MAS5[SGS] on one core's arrays (21 R353). -/
def Mmu.tlbivax (ea : Word) (slpid : BitVec 6) (sgs : Bool) (m : Mmu) : Mmu :=
  let p (one : Bool) (e : TlbEntry) : Bool := bit ea 61 || (e.pageOf one ea && e.tlpid == slpid && e.tgs == sgs)
  if bit ea 60 then m.invalidate1 (p true) else m.invalidate0 (p false)

/-- The effect of tlbilx (21 R351): T = 2 selects nothing (U19). -/
def Mmu.tlbilx (t : BitVec 2) (ea : Word) (m : Mmu) : Mmu :=
  let lpid (e : TlbEntry) : Bool := e.tlpid == m.mas5.setWidth 6
  let pid (e : TlbEntry) : Bool := e.tid == m.mas6.extractLsb' 16 8
  let p (one : Bool) (e : TlbEntry) : Bool :=
    match t.toNat with
    | 0 => lpid e
    | 1 => lpid e && pid e
    | 3 => lpid e && pid e && e.pageOf one ea
    | _ => false
  (m.invalidate0 (p false)).invalidate1 (p true)

/-- MAS0[NV] becomes any value after an invalidation (U8), and so does the next-victim number of every set of TLB0
(21 R352, U21; log 20). -/
def State.freeNv (s : State) : State :=
  { s.drawVictim.2 with
    mmu :=
      { s.mmu with
        mas0 := (s.mmu.mas0 &&& 0xFFFFFFFC) ||| (s.drawVictim.1).setWidth 32
        nv := Vector.ofFn fun set => Config.freeNextVictim s.draws set.val } }

end Sys2Proof.Machine
end

