-- ==== Sys2Proof/Machine/Timers.lean ====
section
/-! DEFINITION. The timers (62 R700 to R706; 11 R119 to R124). -/

namespace Sys2Proof.Machine

/-- Bit n of the time base, 0 the most significant (11 R120). -/
def tbBit (tb : DWord) (n : Nat) : Bool := tb.getLsbD (63 - n)

/-- A bit of the time base goes from 0 to 1. -/
def tbRises (old new : DWord) (n : Nat) : Bool := !tbBit old n && tbBit new n

/-- FSEL, the fixed-interval selector: TCR[FPEXT] then TCR[FP] (62 R703). -/
def Timers.fsel (t : Timers) : Nat := (t.tcr.extractLsb' 13 4 ++ t.tcr.extractLsb' 24 2).toNat

/-- WSEL, the watchdog selector: TCR[WPEXT] then TCR[WP] (62 R704). -/
def Timers.wsel (t : Timers) : Nat := (t.tcr.extractLsb' 17 4 ++ t.tcr.extractLsb' 30 2).toNat

/-- A watchdog time-out: ENW, then WIS, then WRS from TCR[WRC] (62 R704). -/
def Timers.watchdogEvent (t : Timers) : Timers :=
  if !bit t.tsr 32 then { t with tsr := t.tsr ||| 0x80000000 }
  else if !bit t.tsr 33 then { t with tsr := t.tsr ||| 0x40000000 }
  else { t with tsr := mix t.tsr t.tcr 0x30000000 }

/-- The fixed-interval and watchdog events of a change of the time base (62 R703, R704). -/
def Timers.onChange (old new : DWord) (t : Timers) : Timers :=
  let u := if tbRises old new t.fsel then { t with tsr := t.tsr ||| 0x04000000 } else t
  if tbRises old new t.wsel then u.watchdogEvent else u

/-- One decrementer step: DIS and the reload at the 1 to 0 transition (62 R702). -/
def Timers.decStep (t : Timers) : Timers :=
  if t.dec = 0 then t
  else if t.dec = 1 then
    { t with dec := if bit t.tcr 41 then t.decar else 0, tsr := t.tsr ||| 0x08000000 }
  else { t with dec := t.dec - 1 }

/-- The time-base bit that PMGC0[TBSEL] selects (62 R706). -/
def tbselBit (pmgc0 : Word) : Nat :=
  match (pmgc0.extractLsb' 11 2).toNat with
  | 0 => 63
  | 1 => 55
  | 2 => 51
  | _ => 47

/-- The time base takes a new value; the events of its selected bits happen (62 R700, D37). -/
def State.setTb (new : DWord) (s : State) : State :=
  { s with
    tim := { s.tim.onChange s.tim.tb new with tb := new }
    log :=
      { s.log with
        tbEvents :=
          if bit s.pm.pmgc0 55 && tbRises s.tim.tb new (tbselBit s.pm.pmgc0) then s.log.tbEvents + 1
          else s.log.tbEvents } }

/-- Whether a tick counts: tben, DBCR0[FT] and EDBCR0[EFT] (62 R700). -/
def State.tbRuns (s : State) : Bool :=
  s.env.tben && !(bit s.dbg.dbcr0 63 && s.dbg.dbsr &&& 0xCFFFFFFF ≠ 0) && !(bit s.dbg.edbcr0 34 && s.hid.dbgHalted)

/-- TimerTick (62 R700). -/
def State.timerTick (s : State) : State :=
  if s.tbRuns then
    let t := s.setTb (s.tim.tb + 1)
    { t with tim := t.tim.decStep }
  else s

/-- A number of ticks. -/
def State.timerTicks : Nat → State → State
  | 0, s => s
  | n + 1, s => State.timerTicks n s.timerTick

/-- The alternate time base advances, but not while the clocks are off (62 R701, D5). -/
def State.atbTick (s : State) : State :=
  if s.hid.pm = .pmStopped then s
  else { s with tim := { s.tim with atb := s.tim.atb + BitVec.ofNat 64 s.env.atbTicks } }

/-- The decrementer interrupt condition and enable, MSR apart (61 R664). -/
def Timers.decPending (t : Timers) : Bool := bit t.tsr 36 && bit t.tcr 37
/-- The fixed-interval timer interrupt condition and enable, MSR apart (61 R665). -/
def Timers.fitPending (t : Timers) : Bool := bit t.tsr 37 && bit t.tcr 40
/-- The watchdog interrupt condition and enable, MSR apart (61 R666). -/
def Timers.wdtPending (t : Timers) : Bool := bit t.tsr 33 && bit t.tcr 36

/-- mtspr TSR (11 R124). -/
def Timers.clearTsr (v : Word) (t : Timers) : Timers := { t with tsr := t.tsr &&& ~~~(v &&& 0xCFFFFFFF) }

/-- mtspr TCR: a WRC bit once set stays set (11 R123). -/
def Timers.writeTcr (v : Word) (t : Timers) : Timers :=
  { t with tcr := (v &&& 0xFFDFE000) ||| (t.tcr &&& 0x30000000) }

end Sys2Proof.Machine
end

