-- ==== Sys2Proof/Machine/Env.lean ====
section
/-! DEFINITION. What the integrated device, other cores and an external debugger do to this core between two
instructions (61 R676, 62 R710, R724, R733, 63 R753, R754; 92 section 3). -/

namespace Sys2Proof.Machine

/-! ### Doorbell messages (45 R1139, 62 R710) -/

/-- The type of a message: its first five bits. -/
def msgType (m : Word) : Nat := (m.extractLsb' 27 5).toNat

/-- The filter that a core applies to a message (45 R1139). DESIGN CHOICE, unsafe: all eight bits of LPIDTAG are compared,
LPIDR extended by zeros (log 93). -/
def State.acceptsMessage (s : State) (m : Word) : Bool :=
  let lpid := m.extractLsb' 14 8
  let tag := m.setWidth 14
  let pir := if msgType m ≤ 1 then s.ctl.pir else s.ctl.gpir
  decide (msgType m ≤ 4) && (lpid == 0 || lpid == s.mmu.lpidr.setWidth 8) && (bit m 37 || tag == pir.setWidth 14)

/-- Set or clear a pending doorbell. -/
def State.setDbell (t : Nat) (v : Bool) (s : State) : State :=
  if h : t < 5 then { s with hid := { s.hid with dbell := s.hid.dbell.set t v h } } else s

/-- A message arrives (62 R710). -/
def State.receive (m : Word) (s : State) : State :=
  if s.acceptsMessage m then s.setDbell (msgType m) true else s

/-! ### Storage of others, and snoops -/

/-- Another master modifies one of the addresses, or gains ownership: a coherent reservation of its granule is lost
(20 R313). -/
def State.loseReservation (l : List (BitVec 36)) (s : State) : State :=
  match s.hid.reserve with
  | some r => if r.coherent && l.any (fun a => granuleOf a == r.granule) then s.setReserve none else s
  | none => s

/-- A snoop invalidates a data block: a lock on it is lost and L1CSR0[CSLC] set (20 R327). -/
def State.snoopData (a : BitVec 36) (s : State) : State :=
  if bit s.cache.l1csr0 63 && s.cache.lockD.contains (granuleOf a) then
    { s with
      cache :=
        { s.cache with
          lockD := s.cache.lockD.filter (· ≠ granuleOf a), l1csr0 := s.cache.l1csr0 ||| 0x00000800 } }
  else s

/-- A lock of the L1 data cache is lost (20 R327, U15). -/
def State.loseLock (a : BitVec 36) (s : State) : State :=
  { s with cache := { s.cache with lockD := s.cache.lockD.filter (· ≠ granuleOf a) } }

/-- An icbi of another core invalidates an instruction block, as the core's own does, enabled or not (62 R733, 44 R1080;
log 89): a lock on it is lost and L1CSR1[ICSLC] set. -/
def State.snoopIcbi (a : BitVec 36) (s : State) : State :=
  if s.cache.lockI.contains (granuleOf a) then
    { s with
      cache :=
        { s.cache with
          lockI := s.cache.lockI.filter (· ≠ granuleOf a), l1csr1 := s.cache.l1csr1 ||| 0x00000800 } }
  else s

/-! ### Signals -/

/-- The run state that halt and stop ask for; stop without halt is ignored (62 R724, D38). -/
def Env.runState (e : Env) : PmState :=
  if !e.halt then .fullOn else if e.stop then .pmStopped else .pmHalted

/-- New signal levels, and the run state that follows. -/
def State.setEnv (e : Env) (s : State) : State := { s with env := e, hid := { s.hid with pm := e.runState } }

/-- One qualifier pin changes: its edges feed the triggers (63 R782). -/
def State.setQual (n : Fin 4) (level : Bool) (s : State) : State :=
  { s with
    env := { s.env with pmQual := s.env.pmQual.set n.val level n.isLt }
    log :=
      { s.log with
        qualRise := s.log.qualRise.set n.val (s.log.qualRise.get n || (level && !s.env.pmQual.get n)) n.isLt
        qualFall := s.log.qualFall.set n.val (s.log.qualFall.get n || (!level && s.env.pmQual.get n)) n.isLt } }

/-- pm_event changes; rising edges count (63 R791, event 6). -/
def State.setPmEvent (level : Bool) (s : State) : State :=
  { s with
    env := { s.env with pmEvent := level }
    log := { s.log with pmEdges := if level && !s.env.pmEvent then s.log.pmEdges + 1 else s.log.pmEdges } }

/-! ### Hard reset (70 R800, R801, D43) -/

/-- The debug registers after a hard reset: those that only power-on resets keep their values. -/
def Debug.hardReset (d : Debug) : Debug :=
  { Debug.reset with
    dc1 := d.dc1, dc2 := d.dc2, dc4 := d.dc4, wt1 := d.wt1, wmsk := d.wmsk, ovcr := d.ovcr, edbcr0 := d.edbcr0
    edbsr0 := d.edbsr0, edbsrmsk0 := d.edbsrmsk0, edbsr1 := d.edbsr1, edesr := d.edesr, prsr := d.prsr
    ijcfg := d.ijcfg, ijir := d.ijir, ijdata0 := d.ijdata0, ijdata1 := d.ijdata1, pcc := d.pcc, pmcc := d.pmcc
    clock := d.clock }

/-- A hard reset: every register at its reset value, storage and the input levels as they are, no edge pending (D43),
TSR[WRS] as the device leaves it (D6). DESIGN CHOICE, unsafe: a core that was halted for debugging runs, and the halt bits
of PRSR stay (log 47). -/
def State.hardReset (wrs : BitVec 2) (s : State) : State :=
  { State.reset with
    dbg := s.dbg.hardReset
    tim := { State.reset.tim with tsr := wrs.setWidth 32 <<< 28 }
    hid := { State.reset.hid with pm := s.hid.pm }
    env := { s.env with nmi := 0, ude := false }
    mem := s.mem
    physMap := s.physMap
    draws := s.draws
    log := s.log }

/-! ### Events -/

/-- A write of the register with the given index in group 0x3; a reserved index has none (14 R265). -/
def ClockControl.write (index : BitVec 8) (w : Word) (c : ClockControl) : ClockControl :=
  match index.toNat with
  | 0x00 => { c with pllCtrl := c.pllCtrl.set 0 w }
  | 0x04 => { c with pllCtrl := c.pllCtrl.set 1 w }
  | 0x30 => { c with waitrCfg := c.waitrCfg.set 0 w }
  | 0x34 => { c with waitrCfg := c.waitrCfg.set 1 w }
  | 0x38 => { c with waitfCfg := c.waitfCfg.set 0 w }
  | 0x3C => { c with waitfCfg := c.waitfCfg.set 1 w }
  | 0x40 => { c with testMode := w }
  | 0x60 => { c with silcnDbgCtrl := w }
  | 0x64 => { c with silcnClkCtrl := c.silcnClkCtrl.set 0 w }
  | 0x68 => { c with silcnClkCtrl := c.silcnClkCtrl.set 1 w }
  | 0x6C => { c with silcnClkCtrl := c.silcnClkCtrl.set 2 w }
  | _ => c

/-- What happens unless the clocks are off (62 R722). -/
def State.unlessStopped (s t : State) : State := if s.hid.pm = .pmStopped then s else t

/-- One event (61 R676, 62 R733, 63 R753). A debug halt is entered at once, so none is ever pending and a write of EEDCR0
has nothing to complete (14 R275; log 87). -/
def State.apply (e : HostEvent) (s : State) : State :=
  match e with
  | .setInt v => s.setEnv { s.env with int := v }
  | .setCint v => s.setEnv { s.env with cint := v }
  | .setMcp v => s.setEnv { s.env with mcp := v }
  | .setTben v => s.setEnv { s.env with tben := v }
  | .setHalt v => s.setEnv { s.env with halt := v }
  | .setStop v => s.setEnv { s.env with stop := v }
  | .setPmEvent v => s.setPmEvent v
  | .setPmQual n v => s.setQual n v
  | .setProxy v => s.setEnv { s.env with proxy := v }
  | .nmi => s.setEnv { s.env with nmi := s.env.nmi + 1 }
  | .ude => if s.edm || bit s.dbg.dbcr0 33 then s.setEnv { s.env with ude := true } else s
  | .tbTick => s.timerTick
  | .setAtbTicks n => s.setEnv { s.env with atbTicks := n }
  | .setCycles n => s.setEnv { s.env with cycles := n }
  | .message m => s.unlessStopped (s.receive m)
  | .tlbInvalidate ea slpid sgs => s.unlessStopped ({ s with mmu := s.mmu.tlbivax ea slpid sgs }.freeNv)
  | .tlbSyncConflict => s.unlessStopped (s.logMachineCheck 0x00000002 none false)
  | .store a l =>
    let w := { s with mem := s.mem.writeList ((List.range l.length).map (fun i => a + BitVec.ofNat 36 i) |>.zip l) }
    if s.hid.pm = .pmStopped then w
    else w.loseReservation ((List.range l.length).map fun i => a + BitVec.ofNat 36 i)
  | .claim a => s.unlessStopped (s.loseReservation [a])
  | .snoopData a => s.unlessStopped (s.snoopData a)
  | .loseLock a => s.unlessStopped (s.loseLock a)
  | .snoopIcbi a => s.unlessStopped (s.snoopIcbi a)
  | .coreDbgHalt =>
    { s with dbg := { s.dbg with prsr := s.dbg.prsr ||| 0x04000000 }, hid := { s.hid with dbgHalted := true } }
  | .coreResume =>
    if s.dbg.prsr &&& 0x1C000000 = 0 then { s with hid := { s.hid with dbgHalted := false } } else s
  | .writeEdbcr0 w => { s with dbg := { s.dbg with edbcr0 := w &&& 0xFC000000 } }
  | .writeEdbsrmsk0 w => { s with dbg := { s.dbg with edbsrmsk0 := w &&& 0x00CF0000 } }
  | .writeEedcr0 _ => s
  | .clearPrsr w => { s with dbg := { s.dbg with prsr := s.dbg.prsr &&& ~~~(w &&& 0x1C000000) } }
  | .writeClock index w => { s with dbg := { s.dbg with clock := s.dbg.clock.write index w } }
  | .hardReset wrs => s.hardReset wrs

/-- The events of one batch, in order. -/
def State.applyAll (l : List HostEvent) (s : State) : State := l.foldl (fun s e => s.apply e) s

/-- The machine-check pin sets MCSR[MCP] while HID0[EMCP] lets it, when the core runs (61 R654, 62 R725). -/
def State.sampleMcp (s : State) : State :=
  if s.env.mcp && bit s.ctl.hid0 32 && s.hid.pm = .fullOn then s.logMachineCheck 0x80000000 none false else s

/-- The start of a step: a fresh record, this step's events, the ticks of the time bases, the machine-check pin. -/
def State.beginStep (s : State) : State :=
  let r := { s with log := StepLog.empty, env := { s.env with script := s.env.script.tail } }
  ((State.timerTicks s.env.tbTicks (r.applyAll (s.env.script.head?.getD []))).atbTick).sampleMcp

end Sys2Proof.Machine
end

