-- ==== Sys2Proof/Machine/PerfMon.lean ====
section
/-! DEFINITION. The performance monitor: what counts, the triggers, the freeze and the exception
(63 R780 to R791; 14 R266 to R269). -/

namespace Sys2Proof.Machine

/-- A vector of four, one for each counter. -/
def vec4 {α : Type} (f : Fin 4 → α) : Vector α 4 := #v[f 0, f 1, f 2, f 3]

/-- PMLCan, PMLCbn, PMCn. -/
def PerfMon.a (p : PerfMon) (n : Fin 4) : Word := p.pmlca.get n
def PerfMon.b (p : PerfMon) (n : Fin 4) : Word := p.pmlcb.get n
def PerfMon.c (p : PerfMon) (n : Fin 4) : Word := p.pmc.get n

/-- Counter n is frozen by PMLCan[FC] or PMGC0[FAC] (14 R268). -/
def PerfMon.frozen (p : PerfMon) (n : Fin 4) : Bool := bit p.pmgc0 32 || bit (p.a n) 32

/-- The trigger state of counter n: ON whenever not frozen if TRIGONCTL is 0 (14 R268). -/
def PerfMon.trigger (p : PerfMon) (n : Fin 4) : Bool :=
  !p.frozen n && ((p.b n).extractLsb' 28 4 == 0 || p.trig.get n)

/-- Counting(n) (63 R780). -/
def State.counting (s : State) (n : Fin 4) : Bool :=
  let a := s.pm.a n
  !(bit a 33 && !s.pr) && !(bit a 34 && s.pr) && !(bit a 35 && s.pmm) && !(bit a 36 && !s.pmm) &&
    !(bit a 62 && s.gs) && !(bit a 63 && !s.gs) && s.pm.trigger n

/-- PMLCan[EVENT]. -/
def PerfMon.event (p : PerfMon) (n : Fin 4) : Nat := ((p.a n).extractLsb' 16 8).toNat

/-- One if a condition holds. -/
def one (c : Bool) : Nat := if c then 1 else 0

/-- The micro-ops of an instruction (63 R789). -/
def microOps : Instr → Nat
  | .lmw rD _ _ => 32 - rD.toNat
  | .stmw rS _ _ => 32 - rS.toNat
  | .lbzu .. | .lbzux .. | .lhzu .. | .lhzux .. | .lhau .. | .lhaux .. | .lwzu .. | .lwzux .. | .stbu .. | .stbux ..
  | .sthu .. | .sthux .. | .stwu .. | .stwux .. | .lfsu .. | .lfsux .. | .lfdu .. | .lfdux .. | .stfsu .. | .stfsux ..
  | .stfdu .. | .stfdux .. => 2
  | _ => 1

/-- b, bc, bclr, bcctr (63 R745). -/
def isBranch : Instr → Bool
  | .b .. | .bc .. | .bclr .. | .bcctr .. => true
  | _ => false

/-- The number of interrupts of the step that a test holds for. -/
def StepLog.count (l : StepLog) (p : IntKind → Bool) : Nat := (l.interrupts.filter p).length

/-- How often an event happened in the step that ran the instruction and left the state t (63 R791). Chained
events are counted apart; the events that the model has no pipeline for count nothing (log 27). DESIGN CHOICE: for Com:7
the pin pm_event as the step leaves it stands for all of the step's cycles (log 27). -/
def tally (i : Option Instr) (t : State) (event : Nat) : Nat :=
  let l := t.log
  match event with
  | 1 => t.env.cycles
  | 2 => one l.completed
  | 3 => if l.completed then (i.map microOps).getD 0 else 0
  | 6 => l.pmEdges
  | 7 => if t.env.pmEvent then t.env.cycles else 0
  | 8 => one (l.completed && (i.map isBranch).getD false)
  | 9 => if l.completed then l.loads else 0
  | 10 => if l.completed then l.stores else 0
  | 66 => l.count fun k => k = .dataTlbError || k = .instrTlbError
  | 86 => l.interrupts.length
  | 87 => l.count (· = .externalInput)
  | 88 => l.count (· = .criticalInput)
  | 89 => l.count (fun k => k = .systemCall || k = .hvSystemCall) + one l.trapTaken
  | 90 => l.tbEvents
  | 140 => one l.iac1
  | 141 => one (l.iac2 || (l.iacPair && l.iac1))
  | 144 => one l.dac1
  | 145 => one (l.dac2 || (l.dacPair && l.dac1))
  | 148 => one (l.devnt.getLsbD 0)
  | 149 => one (l.devnt.getLsbD 1)
  | 150 => one (l.devnt.getLsbD 2)
  | 151 => one (l.devnt.getLsbD 3)
  | 152 => one (l.devnt.getLsbD 4)
  | 153 => one (l.devnt.getLsbD 5)
  | 154 => one (l.devnt.getLsbD 6)
  | 155 => one (l.devnt.getLsbD 7)
  | 176 => one (l.completed && l.decLoad)
  | 177 => one (l.completed && l.decStore)
  | 179 => one (l.stwcx == some true)
  | 180 => one (l.stwcx == some false)
  | _ => 0

/-- Bit 32 of a counter goes from 1 to 0 by counting. -/
def wraps (old new : Word) : Bool := bit old 32 && !bit new 32

/-- Counter m wrapped: in phase 1 of this step, or in phase 2 of the step before (63 R791). -/
def chainCount (prev now : Vector Bool 4) (m : Fin 4) : Nat := one (prev.get m) + one (now.get m)

/-- A trigger source occurs in the step that left the state t (63 R782); PM_PREV_OF_0 is none. In a non-exact compare
mode the second conditions, and with them the sources IAC2 and DAC2, do not occur (14 R252, R253; log 91). -/
def triggerSource (t : State) (n : Fin 4) (on : Bool) (ctl : BitVec 4) : Bool :=
  match ctl.toNat with
  | 1 => if on then t.log.qualRise.get n else t.log.qualFall.get n
  | 2 =>
    match n with
    | 0 => false
    | 1 => bit (t.pm.c 0) 32
    | 2 => bit (t.pm.c 1) 32
    | 3 => bit (t.pm.c 2) 32
  | 3 => t.log.iac1
  | 4 => t.log.iac2
  | 5 => t.log.dac1
  | 6 => t.log.dac2
  | 7 => t.log.devnt.getLsbD 0
  | 8 => t.log.devnt.getLsbD 1
  | 9 => t.log.devnt.getLsbD 2
  | 10 => t.log.devnt.getLsbD 3
  | 11 => t.log.devnt.getLsbD 4
  | 12 => t.log.devnt.getLsbD 5
  | 13 => t.log.devnt.getLsbD 6
  | 14 => t.log.devnt.getLsbD 7
  | _ => false

/-- The stored trigger state after the step: OFF while frozen, ON with TRIGONCTL = 0, and OFF wins over ON (14 R268;
63 R782, D40). DESIGN CHOICE, unsafe: TRIGONCTL, TRIGOFFCTL, FC and FAC are those that the step leaves, after an mtpmr in
it (log 92). -/
def nextTrigger (t : State) (n : Fin 4) : Bool :=
  if t.pm.frozen n then false
  else if (t.pm.b n).extractLsb' 28 4 = 0 then true
  else if triggerSource t n false ((t.pm.b n).extractLsb' 24 4) then false
  else if triggerSource t n true ((t.pm.b n).extractLsb' 28 4) then true
  else t.pm.trig.get n

/-- PMCondition: an overflow that its counter enables (63 R783). -/
def PerfMon.condition (p : PerfMon) : Bool :=
  [0, 1, 2, 3].any fun n : Fin 4 => bit (p.a n) 37 && bit (p.c n) 32

/-- PMException (63 R783). -/
def PerfMon.exception (p : PerfMon) : Bool := bit p.pmgc0 33 && p.condition

/-- The counters after the end-of-step update of a step whose instruction began in s (63 R780; R791 phases 1 and 2). -/
def State.countEvents (s : State) (i : Option Instr) (t : State) : State :=
  let c1 : Vector Word 4 := vec4 fun n =>
    t.pm.c n + BitVec.ofNat 32 (if s.counting n then tally i t (s.pm.event n) else 0)
  let w1 : Vector Bool 4 := vec4 fun n => wraps (t.pm.c n) (c1.get n)
  let chain (n : Fin 4) : Nat :=
    if s.counting n then
      ([0, 1, 2, 3].map fun m : Fin 4 =>
        if m ≠ n ∧ s.pm.event n = 82 + m.val then chainCount s.pm.wrapped w1 m else 0).sum
    else 0
  let c2 : Vector Word 4 := vec4 fun n => c1.get n + BitVec.ofNat 32 (chain n)
  { t with pm := { t.pm with pmc := c2, wrapped := vec4 fun n => wraps (c1.get n) (c2.get n) } }

/-- The freeze of 63 R786: PMGC0[FAC] is set, and every trigger is OFF (14 R268). -/
def State.freeze (s : State) (t : State) : State :=
  if bit t.pm.pmgc0 34 && ((t.pm.condition && !s.pm.condition) || decide (t.log.tbEvents ≠ 0)) then
    { t with pm := { t.pm with pmgc0 := t.pm.pmgc0 ||| 0x80000000, trig := Vector.replicate 4 false } }
  else t

/-- The end-of-step update (63 R791): s is the state the instruction began in. While the core's clocks are off nothing counts
(62 R722; log 84). -/
def State.endStep (s : State) (i : Option Instr) (t : State) : State :=
  if t.hid.pm = .pmStopped then t
  else
    let u := s.countEvents i t
    s.freeze { u with pm := { u.pm with trig := vec4 (nextTrigger u) } }

end Sys2Proof.Machine
end

