-- ==== Sys2Proof/Machine/Async.lean ====
section
/-! DEFINITION. Asynchronous interrupts: which are pending and enabled, in the order of Table 4-39, and what taking
each one does beside the common entry (60 R611 to R613, R625; 61). -/

namespace Sys2Proof.Machine

/-- A doorbell message type is pending. -/
def State.dbellAt (s : State) (t : Fin 5) : Bool := s.hid.dbell.get t

/-- The overrides of an external debugger: EDBCR0[EDMEO], [EDCEO], [EDEEO] (14 R272). -/
def State.noMachineCheck (s : State) : Bool := bit s.dbg.edbcr0 35
def State.noCritical (s : State) : Bool := bit s.dbg.edbcr0 36
def State.noExternal (s : State) : Bool := bit s.dbg.edbcr0 37

/-- MSR[EE] or MSR[GS], and likewise for the other enables, without the debugger's override (60 R611). -/
def State.eeOrGs (s : State) : Bool := (s.ee || s.gs) && !s.noExternal
def State.ceOrGs (s : State) : Bool := (s.ce || s.gs) && !s.noCritical

/-- EPCR[EXTGS] (11 R116). -/
def State.extGs (s : State) : Bool := bit s.ctl.epcr 32

/-- The pending and enabled asynchronous interrupts, highest priority first, with the condition of each
(60 R611, R612, R625). The entry .debug is an unconditional event that now responds, or the delayed debug
interrupt; .program is the delayed floating-point enabled exception. -/
def State.asyncTable (s : State) : List (IntKind × Bool) :=
  [ (.nmi, s.env.nmi ≠ 0),
    (.machineCheck, s.int.mcsr &&& 0xE8000003 ≠ 0 && (s.me || s.gs) && !s.noMachineCheck),
    (.guestDoorbellMachineCheck, s.dbellAt 4 && s.me && s.gs && !s.noCritical),
    (.debug, s.env.ude || (s.dbg.dbsr &&& 0xCFFFFFFF ≠ 0 && s.de && !s.edm)),
    (.criticalInput, s.env.cint && s.ceOrGs),
    (.watchdog, s.tim.wdtPending && s.ceOrGs),
    (.doorbellCritical, s.dbellAt 1 && s.ceOrGs),
    (.guestDoorbellCritical, s.dbellAt 3 && s.ce && s.gs && !s.noCritical),
    (.externalInput, s.env.int && (if s.extGs then s.ee && s.gs else s.ee || s.gs) && !s.noExternal),
    (.program, bit s.fpscr 33 && s.fe),
    (.fixedInterval, s.tim.fitPending && s.eeOrGs),
    (.decrementer, s.tim.decPending && s.eeOrGs),
    (.doorbell, s.dbellAt 0 && s.eeOrGs),
    (.guestDoorbell, s.dbellAt 2 && s.ee && s.gs && !s.noExternal),
    (.perfMonitor, s.pm.exception && s.eeOrGs) ]

/-- The interrupt that the next step takes, if any. -/
def State.asyncPending (s : State) : Option IntKind := (s.asyncTable.find? (·.2)).map (·.1)

/-- The common entry of an asynchronous interrupt: it resumes at the next instruction (60 R602). -/
def State.enterAsync (k : IntKind) (guest : Bool) (esr : Option Word) (s : State) : State :=
  s.takeInterrupt { kind := k, guest := guest, async := true, ret := s.pc, esr := esr, dear := none }

/-- Taking the external input interrupt: (G)EPR receives the proxied vector, or 0 (61 R656). -/
def State.takeExternal (s : State) : State :=
  let v := s.env.proxy.getD 0
  let t := s.enterAsync .externalInput (s.gs && s.extGs) none
  { t with
    int := if s.gs && s.extGs then { t.int with gepr := v } else { t.int with epr := v }
    log := { t.log with proxyAck := s.env.proxy.isSome } }

/-- Taking an asynchronous interrupt (61 R651 to R675). -/
def State.takeAsync (k : IntKind) (s : State) : State :=
  match k with
  | .nmi =>
    ({ s with env := { s.env with nmi := s.env.nmi - 1 } }.logMachineCheck 0x00100000 none false).enterAsync .nmi false none
  | .debug =>
    if s.env.ude then { s with env := { s.env with ude := false } }.debugAfter dbUde s.de true
    else s.takeDebug 0 s.pc true
  | .externalInput => s.takeExternal
  | .program => s.enterAsync .program false (some 0x01000000)
  | .doorbell => (s.setDbell 0 false).enterAsync k false none
  | .doorbellCritical => (s.setDbell 1 false).enterAsync k false none
  | .guestDoorbell => (s.setDbell 2 false).enterAsync k false none
  | .guestDoorbellCritical => (s.setDbell 3 false).enterAsync k false none
  | .guestDoorbellMachineCheck => (s.setDbell 4 false).enterAsync k false none
  | .criticalInput | .machineCheck | .errorReport | .dataStorage | .instrStorage | .alignment | .fpUnavailable
  | .systemCall | .hvSystemCall | .decrementer | .fixedInterval | .watchdog | .dataTlbError | .instrTlbError
  | .perfMonitor | .hvPrivilege => s.enterAsync k false none

/-- An unconditional event that neither interrupts nor halts is only recorded, or, where nothing responds to it, lost
(63 R741, R751). -/
def State.noteUde (s : State) : State :=
  if s.env.ude then
    match s.debugAction dbUde s.de with
    | .interrupt _ | .halt _ => s
    | .ignore | .record _ | .mark _ => { s with env := { s.env with ude := false } }.debugAfter dbUde s.de true
  else s

/-! ### Outputs toward the integrated device (62 R704, R723) -/

/-- core_wrs: TSR[WRS]. -/
def State.coreWrs (s : State) : BitVec 2 := s.tim.tsr.extractLsb' 28 2

/-- halted: asserted in pm_halted (62 R723). DESIGN CHOICE, unsafe: it stays asserted in pm_stopped, of which the spec
says nothing (log 83). -/
def State.haltedOut (s : State) : Bool := s.hid.pm ≠ .fullOn
/-- stopped. -/
def State.stoppedOut (s : State) : Bool := s.hid.pm = .pmStopped

/-- PRSR as a debugger reads it (14 R275): the halt requests and DNHM are stored, and HALTED, PM_HALT, WAIT, STOPPED and
PM_STOP follow the run state (63 R753 to R755). -/
def State.prsr (s : State) : Word :=
  s.dbg.prsr ||| maskIf (!s.running) 0x80000000 ||| maskIf s.haltedOut 0x40000000 |||
    maskIf s.hid.waiting 0x00400000 ||| maskIf s.stoppedOut 0x00300000

/-- EEDCR0 as a debugger reads it: forced_halt reads 0 and there is nothing else (14 R275). -/
def State.eedcr0 (_s : State) : Word := 0

/-- wake_req: one of the ten internal interrupts is pending and enabled (62 R723); the debugger's overrides do not
change it (14 R272). -/
def State.wakeReq (s : State) : Bool :=
  ({ s with dbg := { s.dbg with edbcr0 := 0 } }.asyncTable).any fun x =>
    x.2 &&
      match x.1 with
      | .machineCheck | .guestDoorbellMachineCheck | .watchdog | .doorbellCritical | .guestDoorbellCritical
      | .fixedInterval | .decrementer | .doorbell | .guestDoorbell | .perfMonitor => true
      | _ => false

end Sys2Proof.Machine
end

