-- ==== Sys2Proof/Machine/Flags.lean ====
section
/-! DEFINITION. The condition register and XER: record forms, carry, overflow, compares (10 R31 to R38;
40 R400, R401). -/

namespace Sys2Proof.Machine

/-! ### The condition register (10 R31) -/

/-- CR field n, bits 32 + 4 n to 35 + 4 n. -/
def crField (cr : Word) (n : BitVec 3) : BitVec 4 := (cr >>> (28 - 4 * n.toNat)).setWidth 4

/-- CR with field n replaced. -/
def withCrField (n : BitVec 3) (v : BitVec 4) (cr : Word) : Word :=
  mix cr (v.setWidth 32 <<< (28 - 4 * n.toNat)) ((0xF : Word) <<< (28 - 4 * n.toNat))

/-- Write one CR field. -/
def State.setCrField (n : BitVec 3) (v : BitVec 4) (s : State) : State := s.setCr (withCrField n v s.cr)

/-- The CR bit with number n from 0, the manual's bit 32 + n. -/
def crBit (cr : Word) (n : BitVec 5) : Bool := bit cr (32 + n.toNat)

/-- CR with one bit replaced. -/
def withCrBit (n : BitVec 5) (v : Bool) (cr : Word) : Word :=
  mix cr (maskIf v ((0x80000000 : Word) >>> n.toNat)) ((0x80000000 : Word) >>> n.toNat)

/-- The 32-bit mask that an 8-bit field mask selects, bit 0 of the field mask being CR0 (43 R1030). -/
def crmMask (crm : BitVec 8) : Word :=
  ((List.range 8).map fun i => maskIf (crm.getLsbD (7 - i)) ((0xF0000000 : Word) >>> (4 * i))).foldl (· ||| ·) 0

/-! ### XER (10 R37) -/

/-- XER[SO]. -/
def State.so (s : State) : Bool := bit s.xer 32
/-- XER[CA]. -/
def State.ca (s : State) : Bool := bit s.xer 34

/-- XER with CA replaced. -/
def withCa (c : Bool) (xer : Word) : Word := mix xer (maskIf c 0x20000000) 0x20000000

/-- XER with OV replaced and SO set along with it. -/
def withOv (v : Bool) (xer : Word) : Word := mix xer (maskIf v 0x40000000) 0x40000000 ||| maskIf v 0x80000000

/-- Write XER[CA]. -/
def State.setCa (c : Bool) (s : State) : State := s.setXer (withCa c s.xer)

/-- With OE, write XER[OV] and accumulate it in XER[SO] (40 R401). -/
def State.setOv (oe v : Bool) (s : State) : State := if oe then s.setXer (withOv v s.xer) else s

/-! ### Record forms and compares (40 R400; 10 R33, R35) -/

/-- LT, GT, EQ of a comparison, then SO. -/
def compareBits (lt gt eq so : Bool) : BitVec 4 :=
  BitVec.ofBool lt ++ BitVec.ofBool gt ++ BitVec.ofBool eq ++ BitVec.ofBool so

/-- Signed comparison. -/
def compareSigned (a b : Word) (so : Bool) : BitVec 4 := compareBits (a.slt b) (b.slt a) (a == b) so

/-- Unsigned comparison. -/
def compareUnsigned (a b : Word) (so : Bool) : BitVec 4 := compareBits (a.ult b) (b.ult a) (a == b) so

/-- With Rc, CR0 records the result. -/
def State.record (rc : Bool) (res : Word) (s : State) : State :=
  if rc then s.setCrField 0 (compareSigned res 0 s.so) else s

/-! ### Sums (40 R401) -/

/-- A sum x + y + c. -/
structure Sum where
  res : Word
  ca  : Bool
  ov  : Bool
  deriving DecidableEq, Repr

/-- The sum of two words and a carry, its carry out, and its signed overflow. -/
def sum (x y : Word) (c : Bool) : Sum :=
  let t : BitVec 33 := x.setWidth 33 + y.setWidth 33 + (BitVec.ofBool c).setWidth 33
  { res := t.setWidth 32
    ca := t.msb
    ov := (x.msb == y.msb) && ((t.setWidth 32).msb != x.msb) }

/-- The signed product of two words. -/
def signedProduct (a b : Word) : DWord := a.signExtend 64 * b.signExtend 64

/-- The unsigned product of two words. -/
def unsignedProduct (a b : Word) : DWord := a.setWidth 64 * b.setWidth 64

end Sys2Proof.Machine
end

