-- ==== Sys2Proof/Machine/Operands.lean ====
section
/-! DEFINITION. Operand forms: immediates, effective addresses, rotate masks, branch and trap conditions
(41 R480; 00 R13; 43 R1000; 31 R397). -/

namespace Sys2Proof.Machine

/-- A sign-extended immediate. -/
def sext (v : BitVec 16) : Word := v.signExtend 32

/-- A zero-extended immediate. -/
def zext (v : BitVec 16) : Word := v.setWidth 32

/-- An immediate in the upper halfword. -/
def upper (v : BitVec 16) : Word := v ++ (0 : BitVec 16)

/-- (rA|0). -/
def State.base (s : State) (rA : BitVec 5) : Word := if rA = 0 then 0 else s.getGpr rA

/-- EA of d(rA). -/
def State.eaD (s : State) (rA : BitVec 5) (d : BitVec 16) : Word := s.base rA + sext d

/-- EA of rA,rB. -/
def State.eaX (s : State) (rA rB : BitVec 5) : Word := s.base rA + s.getGpr rB

/-- EA of an update form d(rA): the base is the register even for r0 (41 R481). -/
def State.eaDU (s : State) (rA : BitVec 5) (d : BitVec 16) : Word := s.getGpr rA + sext d

/-- EA of an indexed update form. -/
def State.eaXU (s : State) (rA rB : BitVec 5) : Word := s.getGpr rA + s.getGpr rB

/-- MASK(mb, me): ones from bit mb to bit me, bit 0 the most significant, around the end if mb > me. -/
def maskOf (mb me : BitVec 5) : Word :=
  let fromMb : Word := (0xFFFFFFFF : Word) >>> mb.toNat
  let toMe : Word := (0xFFFFFFFF : Word) <<< (31 - me.toNat)
  if mb.toNat ≤ me.toNat then fromMb &&& toMe else fromMb ||| toMe

/-- The two bytes of a halfword exchanged. -/
def swap16 (v : BitVec 16) : BitVec 16 := v.setWidth 8 ++ v.extractLsb' 8 8

/-- The four bytes of a word reversed. -/
def swap32 (v : Word) : Word :=
  v.setWidth 8 ++ v.extractLsb' 8 8 ++ v.extractLsb' 16 8 ++ v.extractLsb' 24 8

/-! ### Branches (43 R1000) -/

/-- BO[n], numbered from the left. -/
def boBit (bo : BitVec 5) (n : Nat) : Bool := bo.getLsbD (4 - n)

/-- The CTR that a branch leaves: decremented if BO[2] is 0. -/
def State.branchCtr (s : State) (bo : BitVec 5) : Word := if boBit bo 2 then s.ctr else s.ctr - 1

/-- The condition bit is ignored or has the wanted value. -/
def State.condOk (s : State) (bo bi : BitVec 5) : Bool := boBit bo 0 || (bit s.cr (32 + bi.toNat) == boBit bo 1)

/-- The counter is ignored or, once decremented, passes its test. -/
def State.ctrOk (s : State) (bo : BitVec 5) : Bool := boBit bo 2 || ((s.branchCtr bo != 0) ^^ boBit bo 3)

/-! ### Traps (43 R1020; 31 R397) -/

/-- One of the conditions that TO selects holds. -/
def trapHolds (tO : BitVec 5) (a b : Word) : Bool :=
  (boBit tO 0 && a.slt b) || (boBit tO 1 && b.slt a) || (boBit tO 2 && a == b) || (boBit tO 3 && a.ult b) ||
    (boBit tO 4 && b.ult a)

end Sys2Proof.Machine
end

