-- ==== Sys2Proof/Machine/Branch.lean ====
section
/-! DEFINITION. Branches, traps, system calls, wait (43_branch_cr_system.md R1000 to R1007, R1020 to R1023, R1038). -/

namespace Sys2Proof.Machine

/-! ### Shared operations -/

/-- With LK, LR receives the address of the next instruction, whether or not the branch is taken (R1002). -/
def State.link (lk : Bool) (s : State) : State := if lk then s.setLr (s.pc + 4) else s

/-- The end of a branch: LR, CTR and the next address; a taken branch may be a debug event, which can suppress the
whole instruction (63 R745). -/
def State.branch (taken : Bool) (target ctr : Word) (lk : Bool) (s : State) : Out :=
  if taken then
    (s.debugBefore (s.enabledBit 37 dbBrt) s.de).andThen fun _ t => .next (((t.link lk).setCtr ctr).goto target)
  else ((s.link lk).setCtr ctr).finish

/-- A word with its two low bits cleared. -/
def wordAligned (w : Word) : Word := w &&& 0xFFFFFFFC

/-- A trap whose condition holds: the debug event, or the program interrupt with ESR[PTR] (R1020; 63 R744). -/
def State.trapIf (holds : Bool) (s : State) : Out :=
  if holds then
    (s.debugBefore (s.enabledBit 39 dbTrap) s.de).andThen fun _ t =>
      (t.setLog { t.log with trapTaken := true }).program 0x02000000
  else s.finish

/-- A system call: the instruction completes, then its interrupt is taken (61 R663). -/
def State.systemCall (k : IntKind) (guest : Bool) (s : State) : Out :=
  .next ((s.setLog { s.log with completed := true }).takeInterrupt
    { kind := k, guest := guest, async := false, ret := s.pc + 4, esr := none, dear := none })

/-! ### Meanings -/

/-- b (R1003). -/
def execB (li : BitVec 24) (aa lk : Bool) (s : State) : Out :=
  let offset : Word := (li ++ (0 : BitVec 2)).signExtend 32
  s.branch true (if aa then offset else s.pc + offset) s.ctr lk

/-- bc (R1004). -/
def execBc (bo bi : BitVec 5) (bd : BitVec 14) (aa lk : Bool) (s : State) : Out :=
  let offset : Word := (bd ++ (0 : BitVec 2)).signExtend 32
  s.branch (s.ctrOk bo && s.condOk bo bi) (if aa then offset else s.pc + offset) (s.branchCtr bo) lk

/-- bclr (R1005): the target is the old LR. -/
def execBclr (bo bi : BitVec 5) (_bh : BitVec 2) (lk : Bool) (s : State) : Out :=
  s.branch (s.ctrOk bo && s.condOk bo bi) (wordAligned s.lr) (s.branchCtr bo) lk

/-- bcctr (R1006). With BO[2] = 0, an invalid form, any value is left in CTR and any outcome is taken (U27). -/
def execBcctr (bo bi : BitVec 5) (_bh : BitVec 2) (lk : Bool) (s : State) : Out :=
  if boBit bo 2 then s.branch (s.condOk bo bi) (wordAligned s.ctr) s.ctr lk
  else
    let (taken, t) := s.drawBit
    let (ctr, u) := t.drawWord
    u.branch taken (wordAligned s.ctr) ctr lk

/-- tw (R1020). -/
def execTw (tO rA rB : BitVec 5) (s : State) : Out := s.trapIf (trapHolds tO (s.getGpr rA) (s.getGpr rB))

/-- twi (R1021). -/
def execTwi (tO rA : BitVec 5) (simm : BitVec 16) (s : State) : Out :=
  s.trapIf (trapHolds tO (s.getGpr rA) (sext simm))

/-- sc (R1022): only the low bit of LEV counts. -/
def execSc (lev : BitVec 7) (s : State) : Out :=
  if lev.getLsbD 0 then s.systemCall .hvSystemCall false else s.systemCall .systemCall s.gs

/-- ehpriv (R1023). -/
def execEhpriv (_oc : BitVec 15) (s : State) : Out := s.hvPrivilege

/-- wait (R1038): WC is ignored. -/
def execWait (_wc : BitVec 2) (s : State) : Out := { s with hid := { s.hid with waiting := true } }.finish

end Sys2Proof.Machine
end

