-- ==== Sys2Proof/Machine/Debug.lean ====
section
/-! DEFINITION. The instruction and data address compares (14 R252 to R254; 63 R742, R743). -/

namespace Sys2Proof.Machine

/-- A US or ER field lets the condition occur: 00 always, 10 if the MSR bit is 0, 11 if it is 1; 01 is reserved and
never matches (U9). -/
def qualifies (f : BitVec 2) (b : Bool) : Bool := f == 0 || (f == 2 && !b) || (f == 3 && b)

/-- The non-exact compare modes over a pair of registers: 01 bit match, 10 inclusive range, 11 exclusive range. -/
def pairMatch (mode : BitVec 2) (a x y : Word) : Bool :=
  match mode.toNat with
  | 1 => (a &&& y) == (x &&& y)
  | 2 => decide (x.toNat ≤ a.toNat) && decide (a.toNat < y.toNat)
  | 3 => decide (a.toNat < x.toNat) || decide (y.toNat ≤ a.toNat)
  | _ => false

/-- DBCR1[IAC12M] and DBCR2[DAC12M] are not exact: the first comparator of a pair alone makes conditions (14 R252, R253). -/
def State.iacPaired (s : State) : Bool := s.dbg.dbcr1.extractLsb' 22 2 != 0
def State.dacPaired (s : State) : Bool := s.dbg.dbcr2.extractLsb' 22 2 != 0

/-- The IAC1 and IAC2 conditions of the instruction about to execute (63 R742). In a non-exact mode there is an IAC1
condition alone, under the settings of IAC1 (14 R252, U10). -/
def State.iacConditions (s : State) : Bool × Bool :=
  let d := s.dbg
  let first := bit d.dbcr0 40 && qualifies (d.dbcr1.extractLsb' 30 2) s.pr && qualifies (d.dbcr1.extractLsb' 28 2) s.is
  let second := bit d.dbcr0 41 && qualifies (d.dbcr1.extractLsb' 26 2) s.pr && qualifies (d.dbcr1.extractLsb' 24 2) s.is
  if s.iacPaired then (first && pairMatch (d.dbcr1.extractLsb' 22 2) s.pc d.iac1 d.iac2, false)
  else (first && s.pc == d.iac1, second && s.pc == d.iac2)

/-- DBCR2[DACLINK1] and DBCR2[DACLINK2] (14 R253). -/
def State.dacLink1 (s : State) : Bool := bit s.dbg.dbcr2 42
def State.dacLink2 (s : State) : Bool := bit s.dbg.dbcr2 43

/-- The status bits of the IAC events: a linked comparator makes none (63 R742). In a non-exact mode the only comparator
is IAC1, and its event sets both bits (14 R252). -/
def State.iacEvents (s : State) : Word :=
  if s.iacPaired then maskIf (s.iacConditions.1 && !s.dacLink1) 0x00C00000
  else maskIf (s.iacConditions.1 && !s.dacLink1) 0x00800000 ||| maskIf (s.iacConditions.2 && !s.dacLink2) 0x00400000

/-- DBCR0[DACn] enables the type of access: 01 writes, 10 reads, 11 both (14 R251). -/
def dacEnables (f : BitVec 2) (write : Bool) : Bool := if write then f.getLsbD 0 else f.getLsbD 1

/-- An exact data address compare with n low-order bits masked; n above 12 never matches (14 R254, U9). -/
def dacExact (n : BitVec 4) (a d : Word) : Bool := decide (n.toNat ≤ 12) && (a >>> n.toNat == d >>> n.toNat)

/-- The DAC1 and DAC2 conditions of one part of an access (63 R743). In a non-exact mode there is a DAC1 condition alone
(14 R253). -/
def State.dacConditions (write : Bool) (a : Word) (s : State) : Bool × Bool :=
  let d := s.dbg
  let first := dacEnables (d.dbcr0.extractLsb' 18 2) write && qualifies (d.dbcr2.extractLsb' 30 2) s.pr &&
    qualifies (d.dbcr2.extractLsb' 28 2) s.ds
  let second := dacEnables (d.dbcr0.extractLsb' 16 2) write && qualifies (d.dbcr2.extractLsb' 26 2) s.pr &&
    qualifies (d.dbcr2.extractLsb' 24 2) s.ds
  if s.dacPaired then (first && pairMatch (d.dbcr2.extractLsb' 22 2) a d.dac1 d.dac2, false)
  else (first && dacExact (d.dbcr4.extractLsb' 12 4) a d.dac1, second && dacExact (d.dbcr4.extractLsb' 8 4) a d.dac2)

/-- The status bits of the DAC events of one part of an access: a linked comparator needs the IAC condition of the
instruction (63 R743), which for DAC2 does not occur in a non-exact IAC mode (14 R252). In a non-exact DAC mode the only
comparator is DAC1, and its event sets both bits (14 R253; log 86). -/
def State.dacEvents (write : Bool) (a : Word) (s : State) : Word :=
  let first := (s.dacConditions write a).1 && (!s.dacLink1 || s.iacConditions.1)
  let second := (s.dacConditions write a).2 && (!s.dacLink2 || s.iacConditions.2)
  if s.dacPaired then maskIf first (if write then 0x00050000 else 0x000A0000)
  else maskIf first (if write then 0x00040000 else 0x00080000) ||| maskIf second (if write then 0x00010000 else 0x00020000)

/-- Record DAC conditions for the performance monitor (63 R791). DESIGN CHOICE, unsafe: several matches of one comparator
in one step (the parts of a split access, the words of lmw and stmw) are one condition (log 85). -/
def State.noteDac (write : Bool) (a : Word) (s : State) : State :=
  { s with
    log :=
      { s.log with
        dac1 := s.log.dac1 || (s.dacConditions write a).1
        dac2 := s.log.dac2 || (s.dacConditions write a).2
        dacPair := s.dacPaired } }

end Sys2Proof.Machine
end

