-- ==== Sys2Proof/Machine/Access.lean ====
section
/-! DEFINITION. Data accesses: translation of each part, the interrupts that end them in their order
(60 R627 steps 6 to 9), loads and stores of bytes (20 R281 to R287, 41 R480 to R487). -/

namespace Sys2Proof.Machine

/-- What an instruction's data access is: write for permissions and (G)ESR[ST], the type for DAC, whose context
translates it, whether it is floating-point, needs word alignment (61 R660), is lwarx or stwcx. (20 R311),
whether an error report of it sets MCSR[ST] (D34), and whether it is decorated (41 R534). -/
structure Access where
  write     : Bool
  dacWrite  : Bool
  ctx       : PidContext
  fp        : Bool
  aligned   : Bool
  reserving : Bool
  storeReport : Bool
  decorated : Bool
  deriving DecidableEq, Repr

/-- An ordinary load. -/
def Access.load : Access :=
  { write := false, dacWrite := false, ctx := .running, fp := false, aligned := false, reserving := false,
    storeReport := false, decorated := false }

/-- An ordinary store. -/
def Access.store : Access :=
  { write := true, dacWrite := true, ctx := .running, fp := false, aligned := false, reserving := false,
    storeReport := true, decorated := false }

/-- The bits ST, FP and EPID of (G)ESR (61 R691). -/
def Access.esr (a : Access) : Word :=
  maskIf a.write 0x00800000 ||| maskIf a.fp 0x01000000 ||| maskIf (a.ctx ≠ .running) 0x00000040

/-- The access kind for permissions (21 R342). -/
def Access.kind (a : Access) : AccessKind := if a.write then .write else .read

/-- Why an access is not made. -/
inductive AccessFail where
  | xlate (f : XlateFail)
  | byteOrder
  | storageSync
  | alignment
  deriving DecidableEq, Repr

/-- Where an access goes: the real address of each byte, by rising effective address, and W, I, M, G, E of the page of
its first byte and of that of its last, which is another page for an access that crosses a page boundary (20 R286,
R289). -/
structure Placed where
  bytes : List (BitVec 36)
  wimge : BitVec 5
  upper : BitVec 5
  deriving DecidableEq, Repr

def Placed.w (p : Placed) : Bool := p.wimge.getLsbD 4
def Placed.i (p : Placed) : Bool := p.wimge.getLsbD 3
def Placed.m (p : Placed) : Bool := p.wimge.getLsbD 2
def Placed.g (p : Placed) : Bool := p.wimge.getLsbD 1
def Placed.e (p : Placed) : Bool := p.wimge.getLsbD 0

/-- n real addresses from one on. -/
def realRange (ra : BitVec 36) (n : Nat) : List (BitVec 36) := (List.range n).map fun i => ra + BitVec.ofNat 36 i

/-- How many of n bytes from an address on lie in its 4-Kbyte page. -/
def inPage (ea : Word) (n : Nat) : Nat := min n (4096 - ea.toNat % 4096)

/-- Translate the n bytes from an address on, the part in the lower page first (20 R286, D14). A failure comes with
the lowest address of the access in the failing page (D35). -/
def State.placeRange (s : State) (c : Ctx) (k : AccessKind) (ea : Word) (n : Nat) :
    Except (AccessFail × Word) Placed :=
  match s.mmu.translate c k ea with
  | .error f => .error (.xlate f, ea)
  | .ok x =>
    if inPage ea n = n then .ok { bytes := realRange x.ra n, wimge := x.wimge, upper := x.wimge }
    else
      let ea2 := ea + BitVec.ofNat 32 (inPage ea n)
      match s.mmu.translate c k ea2 with
      | .error f => .error (.xlate f, ea2)
      | .ok y =>
        if x.wimge.getLsbD 0 ≠ y.wimge.getLsbD 0 then .error (.byteOrder, ea)
        else
          .ok
            { bytes := realRange x.ra (inPage ea n) ++ realRange y.ra (n - inPage ea n), wimge := x.wimge,
              upper := y.wimge }

/-- A reservation instruction does not reach write-through storage that is cached (20 R311). -/
def reserveDenied (wimge : BitVec 5) : Bool := wimge.getLsbD 4 && !wimge.getLsbD 3

/-- Translation and the other checks of an access, in the order of 60 R627 steps 6 and 7. -/
def State.place (s : State) (a : Access) (ea : Word) (n : Nat) : Except (AccessFail × Word) Placed :=
  match s.placeRange (s.dataCtx a.ctx) a.kind ea n with
  | .error f => .error f
  | .ok p =>
    if a.reserving && reserveDenied p.wimge then .error (.storageSync, ea)
    else if a.reserving && reserveDenied p.upper then .error (.storageSync, ea + BitVec.ofNat 32 (inPage ea n))
    else if a.aligned && ea.toNat % 4 ≠ 0 then .error (.alignment, ea)
    else .ok p

/-! ### The interrupts of a data access -/

/-- Data storage interrupt with the given (G)ESR; a virtualization fault always goes to the hypervisor (61 R657). -/
def State.dataStorage (esr ea : Word) (vf : Bool) (s : State) : State :=
  s.takeInterrupt
    { kind := .dataStorage, guest := s.gs && bit s.ctl.epcr 35 && !vf, async := false, ret := s.pc, esr := some esr,
      dear := some ea }

/-- Data TLB error interrupt, with the MAS registers loaded (61 R667, 21 R358). -/
def State.dataTlbError (a : Access) (ea : Word) (s : State) : State :=
  (s.loadMasOnMiss (s.gs && bit s.ctl.epcr 33) (s.dataCtx a.ctx) ea).takeInterrupt
    { kind := .dataTlbError, guest := s.gs && bit s.ctl.epcr 33, async := false, ret := s.pc, esr := some a.esr,
      dear := some ea }

/-- Several entries match (21 R337): with HID0[EN_L2MMU_MHD], MCSR[L2MMU_MHIT] with the page of the address, and an
error report with the given bit; without it nothing is defined (U18). DESIGN CHOICE, unsafe: the TLB entries stay as
they are, though the manual says that they may be corrupted (log 21). -/
def State.multipleHit (report ea : Word) (s : State) : Out :=
  if bit s.ctl.hid0 33 then
    (s.logMachineCheck 0x08000000 (some ((ea &&& 0xFFFFF000).setWidth 64)) true).errorReport report
  else .fault .overlappingTlbEntries

/-- The error-report bits of an access (61 R653): LD, with LDG for a guarded load from beyond the L1 cache, or ST. -/
def Access.report (a : Access) (g : Bool) : Word :=
  if a.storeReport then 0x00004000 else 0x00008000 ||| maskIf g 0x00002000

/-- The end of an instruction whose access fails. -/
def State.accessFails (a : Access) (f : AccessFail) (ea : Word) (s : State) : Out :=
  match f with
  | .xlate .miss => .next (s.dataTlbError a ea)
  | .xlate .multiple => s.multipleHit (a.report false) ea
  | .xlate .virtualization => .next (s.dataStorage a.esr ea true)
  | .xlate .denied => .next (s.dataStorage a.esr ea false)
  | .byteOrder => .next (s.dataStorage (a.esr ||| 0x00020000) ea false)
  | .storageSync => .next (s.dataStorage a.esr ea false)
  | .alignment => .next (s.takeHere .alignment (some a.esr) (some ea))

/-! ### Absent addresses (20 R280) -/

/-- The place of an error type's bit in L2ERRDIS (12 R201): tag multi-way hit, tag parity, multiple-bit ECC, single-bit ECC,
data parity. -/
def l2ErrorPlace : Fin 5 → Nat
  | 0 => 7
  | 1 => 4
  | 2 => 3
  | 3 => 2
  | 4 => 1

/-- L2ERRDIS disables the type of an error from the CoreNet interface, whichever of the five that is (log 56). -/
def Cache.busErrorDisabled (c : Cache) : Bool :=
  c.l2errdis &&& 0x0000009E != 0 && c.l2errdis.getLsbD (l2ErrorPlace Config.busErrorType)

/-- MCSR[BSL2_ERR] for an access to an absent address, if L2CSR0[L2E] and L2ERRDIS let it be set (20 R280, 11 R136).
DESIGN CHOICE: L2ERRINTEN is not consulted, and no bit of L2ERRDET is set beside it (12 R200; log 56). -/
def State.busErrorBit (s : State) : Word := maskIf (bit s.cache.l2csr0 32 && !s.cache.busErrorDisabled) 0x00000001

/-- The accesses that an access from a real address on is performed as: below and above a doubleword boundary, the part
below first (20 R286, R287). A whole block stays one. -/
def dwordParts {α : Type} (ra : BitVec 36) (l : List α) : List (List α) :=
  if l.length ≤ 8 then [l.take (8 - ra.toNat % 8), l.drop (8 - ra.toNat % 8)] else [l]

/-- The real address of the first byte. -/
def Placed.ra (p : Placed) : BitVec 36 := p.bytes.headD 0

/-- The parts of an access, each with W, I, M, G, E of its page: a page boundary is a doubleword boundary. -/
def Placed.parts {α : Type} (p : Placed) (l : List α) : List (List α × BitVec 5) :=
  (dwordParts p.ra l).zip [p.wimge, p.upper]

/-- W, I, M, G, E of the first part of an access that reaches an absent address. -/
def State.absentWimge (s : State) (p : Placed) : BitVec 5 :=
  (((p.parts p.bytes).find? fun x => s.regionOf x.1 = some .absent).map Prod.snd).getD p.wimge

/-- A part of an access is guarded: by its page, or as a decorated access to a caching-inhibited page (41 R534 b). -/
def Access.guarded (a : Access) (wimge : BitVec 5) : Bool := wimge.getLsbD 1 || (a.decorated && wimge.getLsbD 3)

/-- A load from an absent address ends in an error report, before its debug events (20 R280; 61 R653). The error of a store
is reported asynchronously (41 R482). -/
def State.answered (a : Access) (p : Placed) (s : State) : Res Placed :=
  if s.regionOf p.bytes = some .absent ∧ !a.storeReport then
    .done (s.errorReport (a.report (a.guarded (s.absentWimge p)) ||| s.busErrorBit))
  else .ok p s

/-! ### Parts of an access (20 R286) -/

/-- Whether n bytes from an address on cross a doubleword boundary. -/
def crossesDword (ea : Word) (n : Nat) : Bool := decide (8 < ea.toNat % 8 + n)

/-- The number of parts of an access. -/
def partCount (ea : Word) (n : Nat) : Nat := if crossesDword ea n then 2 else 1

/-- The start of the second part. -/
def secondPart (ea : Word) : Word := (ea ||| 7) + 1

/-- The DAC events of every part (63 R743). -/
def State.partEvents (write : Bool) (ea : Word) (n : Nat) (s : State) : Word :=
  s.dacEvents write ea ||| (if crossesDword ea n then s.dacEvents write (secondPart ea) else 0)

/-- Record the DAC conditions of every part. -/
def State.noteParts (write : Bool) (ea : Word) (n : Nat) (s : State) : State :=
  if crossesDword ea n then (s.noteDac write ea).noteDac write (secondPart ea) else s.noteDac write ea

/-- A data access up to its debug events. Its DAC conditions occur by its being attempted, whether or not it is made
(63 R743; log 85). -/
def State.reach (a : Access) (ea : Word) (n : Nat) (s : State) : Res Placed :=
  match s.place a ea n with
  | .error (f, fea) => .done ((s.noteParts a.dacWrite ea n).accessFails a f fea)
  | .ok p => (s.noteParts a.dacWrite ea n).answered a p

/-- A data access up to the point where bytes are read or written. -/
def State.access (a : Access) (ea : Word) (n : Nat) (s : State) : Res Placed :=
  (s.reach a ea n).bind fun p t => (t.debugBefore (t.partEvents a.dacWrite ea n) t.de).bind fun _ u => .ok p u

/-- The status bits of the DAC comparators that are linked to an IAC condition: in a non-exact mode the only comparator
is DAC1, whose event sets both bits (14 R253). -/
def State.linkedDacs (s : State) : Word :=
  if s.dbg.dbcr2.extractLsb' 22 2 = 0 then maskIf s.dacLink1 0x000C0000 ||| maskIf s.dacLink2 0x00030000
  else maskIf s.dacLink1 0x000F0000

/-- The DAC events of one word of lmw or stmw: a linked comparator counts for the first word only (63 R743). -/
def State.wordEvents (write first : Bool) (ea : Word) (s : State) : Word :=
  if first then s.partEvents write ea 4 else s.partEvents write ea 4 &&& ~~~s.linkedDacs

/-- The access of one word of lmw or stmw. An enabled debug event stops the instruction here; one that is only
recorded is kept for its completion (63 R743, D41). Only the first word needs alignment (41 R515, R516). -/
def State.accessWord (a : Access) (first : Bool) (ea : Word) (s : State) : Res (Placed × Word) :=
  (s.reach { a with aligned := first } ea 4).bind fun p t =>
    let bits := t.wordEvents a.dacWrite first ea
    match t.debugAction bits t.de with
    | .interrupt b => .done (.next (t.takeDebug b t.pc false))
    | .halt b => .done (.next (t.haltForDebug b t.pc))
    | .ignore | .record _ | .mark _ => .ok (p, bits) t

/-! ### Values in storage (20 R281) -/

/-- Bytes in the order of the value, most significant first, from bytes by rising address, and back. -/
def byteOrder (e : Bool) {α : Type} (l : List α) : List α := if e then l.reverse else l

/-- The number that an access reads. -/
def State.readPlaced (s : State) (p : Placed) : Nat := bytesToNat (byteOrder p.e (p.bytes.map s.readByte))

/-- The bytes that an access stores, beside their real addresses. -/
def Placed.cells (p : Placed) (v : Nat) : List (BitVec 36 × Byte) :=
  p.bytes.zip (byteOrder p.e (natToBytes p.bytes.length v))

/-- The block of n bytes that holds an address: n is 32 or 64. -/
def blockOf (ra : BitVec 36) (n : Nat) : List (BitVec 36) := realRange (ra &&& ~~~(BitVec.ofNat 36 (n - 1))) n

/-- Hand accesses to devices, those that reach no device left out (20 R280). -/
def State.noteDevices (l : List DeviceAccess) (s : State) : State :=
  (l.filter (·.addrs ≠ [])).foldl (fun t d => t.noteDevice d) s

/-- The decoration that a part of an access carries: none unless its page is caching-inhibited (41 R534). -/
def carried (dec : Option (BitVec 4)) (wimge : BitVec 5) : Option (BitVec 4) := if wimge.getLsbD 3 then dec else none

/-- A read that reaches a device: its bytes there are any, those in storage what storage holds, and the device sees its
bytes of each of these reads, with its decoration (20 R280, log 22). -/
def State.readDevice (reads : List (List (BitVec 36) × Option (BitVec 4))) (p : Placed) (s : State) : Nat × State :=
  let bytes := p.bytes.zipIdx.map fun (a, i) =>
    if s.regionAt a = none then s.readByte a else s.drawDWord.1.extractLsb' (8 * i) 8
  (bytesToNat (byteOrder p.e bytes),
    s.drawDWord.2.noteDevices (reads.map fun (l, dec) =>
      { op := .read, addrs := l.filter (s.regionAt · = some .device), data := [], decoration := dec }))

/-- Load a number, and the state after it: storage changes nothing, a device sees each part of the access with the
decoration that it carries. -/
def State.loadPlaced (dec : Option (BitVec 4)) (p : Placed) (s : State) : Nat × State :=
  if s.regionOf p.bytes = none then (s.readPlaced p, s)
  else s.readDevice ((p.parts p.bytes).map fun (l, wimge) => (l, carried dec wimge)) p

/-- A store to an absent address is reported after the instruction, by MCSR[BSL2_ERR] and its machine check where that bit
can be set (20 R280; 41 R482; log 56). -/
def State.storeLost (s : State) : State := s.logMachineCheck s.busErrorBit none false

/-- A write that does not reach storage alone: each byte goes to what lies at its address, and a device sees its bytes of
each part (20 R280, R286). -/
def State.writeDevice (dec : Option (BitVec 4)) (p : Placed) (v : Nat) (s : State) : State :=
  let at_ (k : Option RegionKind) (l : List (BitVec 36 × Byte)) := l.filter (s.regionAt ·.1 = k)
  let t := (s.writeBytes (at_ none (p.cells v))).noteDevices ((p.parts (p.cells v)).map fun (l, wimge) =>
    { op := .write, addrs := (at_ (some .device) l).map Prod.fst, data := (at_ (some .device) l).map Prod.snd,
      decoration := carried dec wimge })
  if at_ (some .absent) (p.cells v) = [] then t else t.storeLost

/-- Store a number, to a device with the decoration of the access. -/
def State.storePlaced (dec : Option (BitVec 4)) (p : Placed) (v : Nat) (s : State) : State :=
  if s.regionOf p.bytes = none then s.writeBytes (p.cells v) else s.writeDevice dec p v

/-- Count load and store micro-ops (63 R789). -/
def State.noteLoads (n : Nat) (s : State) : State := { s with log := { s.log with loads := s.log.loads + n } }
def State.noteStores (n : Nat) (s : State) : State := { s with log := { s.log with stores := s.log.stores + n } }

/-- Load n bytes and go on with their value. -/
def State.load (a : Access) (ea : Word) (n : Nat) (s : State) (k : Nat → State → Out) : Out :=
  (s.access a ea n).andThen fun p t => k (t.loadPlaced none p).1 ((t.loadPlaced none p).2.noteLoads (partCount ea n))

/-- Store n bytes and go on. -/
def State.store (a : Access) (ea : Word) (n v : Nat) (s : State) (k : State → Out) : Out :=
  (s.access a ea n).andThen fun p t => k ((t.storePlaced none p v).noteStores (partCount ea n))

end Sys2Proof.Machine
end

