-- ==== Sys2Proof/Machine/CacheOps.lean ====
section
/-! DEFINITION. Cache-block instructions over transparent caches: what they change is storage (the dcbz and dcba
family), the locked lines with their status bits, and whatever an exception or a debug event changes
(44 R1070 to R1099; 20 R314, R322, R323, R327). -/

namespace Sys2Proof.Machine

/-! ### Shared operations -/

/-- The access of a load-class cache instruction, a read or a write for DAC; its error report sets MCSR[ST] (D34). -/
def Access.cacheRead (dacWrite : Bool) : Access := { Access.load with dacWrite := dacWrite, storeReport := true }

/-- An access that stands for a block. -/
def Placed.block (p : Placed) (n : Nat) : Placed := { p with bytes := blockOf p.ra n }

/-- The bytes that dcbz and dcba act on (12 R180). -/
def State.zeroSize (s : State) : Nat := if bit s.cache.l1csr0 60 then 32 else 64

/-- Translate the byte at EA, or end in the exception; the DAC condition of an attempted access occurs either way
(63 R743; log 85). -/
def State.located (a : Access) (ea : Word) (s : State) (k : Placed → Out) : Out :=
  match s.place a ea 1 with
  | .error (f, fea) => (s.noteDac a.dacWrite ea).accessFails a f fea
  | .ok p => k p

/-- The DAC events of a cache-block instruction compare EA itself (63 R743, D41). -/
def State.blockEvents (write : Bool) (ea : Word) (s : State) (k : State → Out) : Out :=
  ((s.noteDac write ea).debugBefore (s.dacEvents write ea) s.de).andThen fun _ t => k t

/-! ### Locks (20 R323, R327; 44 R1084) -/

/-- The cache that a data or instruction lock names is enabled: CT = 0 the L1 cache, CT = 2 the L2. -/
def Cache.enabled (data : Bool) (ct : BitVec 4) (c : Cache) : Bool :=
  if ct = 2 then bit c.l2csr0 32 else if data then bit c.l1csr0 63 else bit c.l1csr1 63

/-- Drop a block from the locked lines. -/
def dropLock (b : BitVec 30) (l : List (BitVec 30)) : List (BitVec 30) := l.filter (· ≠ b)

/-- Add a block to the locked lines. -/
def addLock (b : BitVec 30) (l : List (BitVec 30)) : List (BitVec 30) := if l.contains b then l else b :: l

/-- The locked lines of a block's set; k index bits. -/
def lockedSet (k : Nat) (b : BitVec 30) (l : List (BitVec 30)) : List (BitVec 30) :=
  l.filter fun x => x.setWidth k == b.setWidth k

/-- All eight ways of a block's set are locked by other lines. -/
def setFull (k : Nat) (b : BitVec 30) (l : List (BitVec 30)) : Bool :=
  !l.contains b && decide (8 ≤ (lockedSet k b l).length)

/-- A block leaves the data caches: the L1 data and the L2 cache lose its lock (44 R1073, R1074). DESIGN CHOICE, unsafe:
whether the caches are enabled plays no part, though 20 R320 keeps other instructions from a disabled cache, and an L2
lock, which 20 R328 calls persistent, is lost all the same (logs 88, 89). -/
def Cache.unlockData (b : BitVec 30) (c : Cache) : Cache :=
  { c with lockD := dropLock b c.lockD, lockL2 := dropLock b c.lockL2 }

/-- The lock of a block in the L1 instruction cache is lost. -/
def Cache.unlockInstr (b : BitVec 30) (c : Cache) : Cache := { c with lockI := dropLock b c.lockI }

/-- A CT = 2 operation, or a lock instruction of the L1 data cache, has named a block: if the other kind named it since
the last sync 0, the line may or may not be locked in the L1 data cache now (44 R1084 f, U15). -/
def State.noteCt (l2 : Bool) (b : BitVec 30) (s : State) : State :=
  let t := s.withCache fun c => { c with recent := (l2, b) :: c.recent }
  if bit s.cache.l1csr0 63 && s.cache.recent.contains (!l2, b) then
    t.drawBit.2.withCache fun c =>
      { c with lockD := if t.drawBit.1 && !setFull 6 b c.lockD then addLock b c.lockD else dropLock b c.lockD }
  else t

/-- L1CSR0[CUL] or L1CSR1[ICUL]: unable to lock. -/
def Cache.unable (data : Bool) (c : Cache) : Cache :=
  if data then { c with l1csr0 := c.l1csr0 ||| 0x00000400 } else { c with l1csr1 := c.l1csr1 ||| 0x00000400 }

/-- Lock a block in an L1 cache; a full set gives L1CSR0[CLO] or L1CSR1[ICLO]. -/
def Cache.lockL1 (data : Bool) (b : BitVec 30) (c : Cache) : Cache :=
  if data then
    if setFull 6 b c.lockD then { c with l1csr0 := c.l1csr0 ||| 0x00000200 } else { c with lockD := addLock b c.lockD }
  else if setFull 6 b c.lockI then { c with l1csr1 := c.l1csr1 ||| 0x00000200 }
  else { c with lockI := addLock b c.lockI }

/-- Lock a block in the L2 cache; a full set gives L2CSR0[L2LO], and with L2CSR0[L2LOA] a line of the set, whichever,
gives way (20 R323 b). -/
def State.lockL2 (b : BitVec 30) (s : State) : State :=
  if setFull 8 b s.cache.lockL2 then
    let t := s.withCache fun c => { c with l2csr0 := c.l2csr0 ||| 0x00000020 }
    if bit s.cache.l2csr0 56 then
      let l := lockedSet 8 b s.cache.lockL2
      t.drawWord.2.withCache fun c =>
        { c with lockL2 := addLock b (dropLock (l.getD (t.drawWord.1.toNat % l.length) b) c.lockL2) }
    else t
  else s.withCache fun c => { c with lockL2 := addLock b c.lockL2 }

/-- A lock-set instruction loads its line: the set has a way for it, or L2CSR0[L2LOA] makes one (20 R323 b). -/
def State.loadsLine (data : Bool) (ct : BitVec 4) (b : BitVec 30) (s : State) : Bool :=
  if ct = 2 then !setFull 8 b s.cache.lockL2 || bit s.cache.l2csr0 56
  else !setFull 6 b (if data then s.cache.lockD else s.cache.lockI)

/-- A lock-set instruction cannot lock (20 R323 a): the cache is not enabled, the page is caching-inhibited, the L2 cache
is kept for the other kind, or the line is to be loaded and cannot be, as nothing is there. A line of a full set is not
loaded, so it is no error there (log 90). -/
def State.cannotLock (data : Bool) (ct : BitVec 4) (p : Placed) (s : State) : Bool :=
  !s.cache.enabled data ct || p.i || (ct == 2 && bit s.cache.l2csr0 (if data then 43 else 47)) ||
    (s.loadsLine data ct (granuleOf p.ra) && s.regionOf (blockOf p.ra 64) == some .absent)

/-- Set a lock (20 R323). DESIGN CHOICE, unsafe: the line that it loads is not handed over as a read of a device, where
its block lies in one (log 22). -/
def State.setLock (data : Bool) (ct : BitVec 4) (p : Placed) (s : State) : State :=
  if ct = 2 then (s.lockL2 (granuleOf p.ra)).noteCt true (granuleOf p.ra)
  else
    let t := s.withCache (·.lockL1 data (granuleOf p.ra))
    if data then t.noteCt false (granuleOf p.ra) else t

/-- Clear a lock, if the cache is enabled (44 R1085, R1088). -/
def State.clearLock (data : Bool) (ct : BitVec 4) (b : BitVec 30) (s : State) : State :=
  if !s.cache.enabled data ct then s
  else if ct = 2 then (s.withCache fun c => { c with lockL2 := dropLock b c.lockL2 }).noteCt true b
  else if data then (s.withCache fun c => { c with lockD := dropLock b c.lockD }).noteCt false b
  else s.withCache (·.unlockInstr b)

/-- Who may execute a lock instruction, before its address is translated (20 R327, D27). The cache-locking exception is a
data storage interrupt of the attempted access, whose DAC condition occurs (63 R743; log 85). -/
def State.lockAllowed (data dacWrite : Bool) (ea : Word) (s : State) (rest : Out) : Out :=
  if s.pr then
    if s.ucle then rest
    else .next ((s.noteDac dacWrite ea).dataStorage (if data then 0x00200000 else 0x00100000) ea false)
  else if s.gs && bit s.ctl.msrp 37 then s.hvPrivilege
  else rest

/-- A lock instruction up to its debug events (44 R1084); CT other than 0 and 2 has no effect on this core (D18). -/
def State.lockAccess (data dacWrite : Bool) (ct : BitVec 4) (ea : Word) (s : State) (k : Placed → State → Out) : Out :=
  s.lockAllowed data dacWrite ea
    (s.located (.cacheRead dacWrite) ea fun p =>
      s.blockEvents dacWrite ea fun t =>
        if ct = 0 ∨ ct = 2 then k p (t.noteStores 1) else (t.noteStores 1).finish)

/-- A lock-set instruction. -/
def State.lockSet (data dacWrite : Bool) (ct : BitVec 4) (ea : Word) (s : State) : Out :=
  s.lockAccess data dacWrite ct ea fun p t =>
    if t.cannotLock data ct p then (t.withCache (·.unable data)).finish else (t.setLock data ct p).finish

/-- A lock-clear instruction. -/
def State.lockClear (data dacWrite : Bool) (ct : BitVec 4) (ea : Word) (s : State) : Out :=
  s.lockAccess data dacWrite ct ea fun p t => (t.clearLock data ct (granuleOf p.ra)).finish

/-- dcbtls (R1086). -/
def execDcbtls (ct : BitVec 4) (rA rB : BitVec 5) (s : State) : Out := s.lockSet true false ct (s.eaX rA rB)
/-- dcbtstls (R1087). -/
def execDcbtstls (ct : BitVec 4) (rA rB : BitVec 5) (s : State) : Out := s.lockSet true true ct (s.eaX rA rB)
/-- icbtls (R1089). -/
def execIcbtls (ct : BitVec 4) (rA rB : BitVec 5) (s : State) : Out := s.lockSet false false ct (s.eaX rA rB)
/-- dcblc (R1085). -/
def execDcblc (ct : BitVec 4) (rA rB : BitVec 5) (s : State) : Out := s.lockClear true true ct (s.eaX rA rB)
/-- icblc (R1088). -/
def execIcblc (ct : BitVec 4) (rA rB : BitVec 5) (s : State) : Out := s.lockClear false false ct (s.eaX rA rB)

/-! ### Flush, invalidate (R1073 to R1075, R1080) -/

/-- dcbf and dcbst: storage already holds the newest bytes. -/
def State.flushBlock (ctx : PidContext) (ea : Word) (s : State) : Out :=
  s.located { Access.cacheRead true with ctx := ctx } ea fun p =>
    s.blockEvents true ea fun t => ((t.withCache (·.unlockData (granuleOf p.ra))).noteStores 1).finish

/-- icbi: the block leaves the L1 instruction cache with its lock, enabled or not (44 R1080; log 89). -/
def State.invalidateInstr (ctx : PidContext) (ea : Word) (s : State) : Out :=
  s.located { Access.cacheRead false with ctx := ctx } ea fun p =>
    s.blockEvents false ea fun t => ((t.withCache (·.unlockInstr (granuleOf p.ra))).noteStores 1).finish

/-- dcbf (R1073). -/
def execDcbf (rA rB : BitVec 5) (s : State) : Out := s.flushBlock .running (s.eaX rA rB)
/-- dcbst (R1075): as dcbf. -/
def execDcbst (rA rB : BitVec 5) (s : State) : Out := s.flushBlock .running (s.eaX rA rB)
/-- dcbfep (R1092). -/
def execDcbfep (rA rB : BitVec 5) (s : State) : Out := s.supervisorOnly (s.flushBlock .extLoad (s.eaX rA rB))
/-- dcbstep (R1093). -/
def execDcbstep (rA rB : BitVec 5) (s : State) : Out := s.supervisorOnly (s.flushBlock .extLoad (s.eaX rA rB))
/-- icbi (R1080). -/
def execIcbi (rA rB : BitVec 5) (s : State) : Out := s.invalidateInstr .running (s.eaX rA rB)
/-- icbiep (R1098). -/
def execIcbiep (rA rB : BitVec 5) (s : State) : Out := s.supervisorOnly (s.invalidateInstr .extLoad (s.eaX rA rB))

/-- dcbi (R1074): store-class; what it would discard is not lost in transparent caches (20 R318). -/
def execDcbi (rA rB : BitVec 5) (s : State) : Out :=
  s.supervisorOnly
    (s.located .store (s.eaX rA rB) fun p =>
      s.blockEvents true (s.eaX rA rB) fun t => (t.withCache (·.unlockData (granuleOf p.ra))).finish)

/-! ### Zero and allocate (R1071, R1072, R1078, R1079) -/

/-- Store zeros into a block. An absent address is reported by MCSR[BSL2_ERR] and its machine check alone (61 R652;
log 56). -/
def State.zeroBlock (ea : Word) (n : Nat) (p : Placed) (s : State) : Out :=
  s.blockEvents true ea fun t => ((t.storePlaced none (p.block n) 0).noteStores 1).finish

/-- dcbz: a write-through or caching-inhibited page is an alignment exception. -/
def State.zero (a : Access) (ea : Word) (n : Nat) (s : State) : Out :=
  s.located a ea fun p =>
    if p.w || p.i then .next ((s.noteDac true ea).takeHere .alignment (some a.esr) (some ea)) else s.zeroBlock ea n p

/-- A multiple hit of an instruction that becomes a no-op is only logged (21 R337; 61 R654). -/
def State.noteMultipleHit (ea : Word) (s : State) : State :=
  if bit s.ctl.hid0 33 then s.logMachineCheck 0x08000000 (some ((ea &&& 0xFFFFF000).setWidth 64)) true else s

/-- Translate the byte at EA, or complete without effect, in the state given for it. -/
def State.locatedOrNop (a : Access) (ea : Word) (s nop : State) (k : Placed → Out) : Out :=
  match s.place a ea 1 with
  | .error (.xlate .multiple, _) => (nop.noteMultipleHit ea).finish
  | .error _ => nop.finish
  | .ok p => k p

/-- dcba: without effect where dcbz would end in an exception, and while the L1 data cache is disabled, which is seen
after the address is translated (log 46); a store micro-op all the same (63 R789). -/
def State.allocate (ea : Word) (n : Nat) (s : State) : Out :=
  s.locatedOrNop .store ea (s.noteStores 1) fun p =>
    if p.w || p.i || !bit s.cache.l1csr0 63 then (s.noteStores 1).finish else s.zeroBlock ea n p

/-- dcbz (R1078). -/
def execDcbz (rA rB : BitVec 5) (s : State) : Out := s.zero .store (s.eaX rA rB) s.zeroSize
/-- dcbzl (R1079). -/
def execDcbzl (rA rB : BitVec 5) (s : State) : Out := s.zero .store (s.eaX rA rB) 64
/-- dcbzep (R1096). -/
def execDcbzep (rA rB : BitVec 5) (s : State) : Out :=
  s.supervisorOnly (s.zero { Access.store with ctx := .extStore } (s.eaX rA rB) s.zeroSize)
/-- dcbzlep (R1097). -/
def execDcbzlep (rA rB : BitVec 5) (s : State) : Out :=
  s.supervisorOnly (s.zero { Access.store with ctx := .extStore } (s.eaX rA rB) 64)
/-- dcba (R1071). -/
def execDcba (rA rB : BitVec 5) (s : State) : Out := s.allocate (s.eaX rA rB) s.zeroSize
/-- dcbal (R1072). -/
def execDcbal (rA rB : BitVec 5) (s : State) : Out := s.allocate (s.eaX rA rB) 64

/-! ### Touches (R1076, R1077, R1081) -/

/-- The cache that a touch names can be filled: CT = 0 the L1 data cache (the instruction cache never is), CT = 1 the
platform cache, CT = 2 the L2 cache. -/
def State.touchable (data : Bool) (ct : BitVec 4) (s : State) : Bool :=
  if ct = 0 then data && bit s.cache.l1csr0 63 else if ct = 2 then bit s.cache.l2csr0 32 else ct == 1

/-- The record of a touch that is performed (63 R789). -/
def State.noteTouch (ct : BitVec 4) (b : BitVec 30) (s : State) : State :=
  if ct = 0 then s.noteLoads 1 else if ct = 1 then s.noteStores 1 else s.noteCt true b

/-- A touch: a hint, with nothing but its debug events when it is performed. DESIGN CHOICE: of the causes that make it a
no-op, HID0[NOPTI] is seen before the address is translated, so that it logs no multiple hit, and the cache that it names
after that (log 46). -/
def State.touch (ctx : PidContext) (data : Bool) (ct : BitVec 4) (ea : Word) (s : State) : Out :=
  if bit s.ctl.hid0 63 then s.finish
  else
    s.locatedOrNop { Access.load with ctx := ctx } ea s fun p =>
      if p.i || p.g || !s.touchable data ct then s.finish
      else s.blockEvents false ea fun t => (t.noteTouch ct (granuleOf p.ra)).finish

/-- dcbt (R1076): TH is a CT value. -/
def execDcbt (th : BitVec 4) (rA rB : BitVec 5) (s : State) : Out := s.touch .running true th (s.eaX rA rB)
/-- dcbtst (R1077). -/
def execDcbtst (th : BitVec 4) (rA rB : BitVec 5) (s : State) : Out := s.touch .running true th (s.eaX rA rB)
/-- dcbtep (R1094). -/
def execDcbtep (th : BitVec 4) (rA rB : BitVec 5) (s : State) : Out :=
  s.supervisorOnly (s.touch .extLoad true th (s.eaX rA rB))
/-- dcbtstep (R1095). -/
def execDcbtstep (th : BitVec 4) (rA rB : BitVec 5) (s : State) : Out :=
  s.supervisorOnly (s.touch .extLoad true th (s.eaX rA rB))
/-- icbt (R1081). -/
def execIcbt (ct : BitVec 4) (rA rB : BitVec 5) (s : State) : Out := s.touch .running false ct (s.eaX rA rB)

end Sys2Proof.Machine
end

