-- ==== Sys2Proof/Machine/CondReg.lean ====
section
/-! DEFINITION. Condition register instructions, isel, and the moves to and from CR (43_branch_cr_system.md R1010 to
R1019, R1030 to R1034). -/

namespace Sys2Proof.Machine

/-- A CR logical instruction: one bit from two. -/
def State.crLogical (crbD crbA crbB : BitVec 5) (f : Bool → Bool → Bool) (s : State) : Out :=
  (s.setCr (withCrBit crbD (f (crBit s.cr crbA) (crBit s.cr crbB)) s.cr)).finish

/-- isel (R1010). -/
def execIsel (rD rA rB crbC : BitVec 5) (s : State) : Out :=
  (s.setGpr rD (if crBit s.cr crbC then s.base rA else s.getGpr rB)).finish

/-- crand (R1011). -/
def execCrand (crbD crbA crbB : BitVec 5) (s : State) : Out := s.crLogical crbD crbA crbB fun a b => a && b
/-- crandc (R1012). -/
def execCrandc (crbD crbA crbB : BitVec 5) (s : State) : Out := s.crLogical crbD crbA crbB fun a b => a && !b
/-- creqv (R1013). -/
def execCreqv (crbD crbA crbB : BitVec 5) (s : State) : Out := s.crLogical crbD crbA crbB fun a b => !(a ^^ b)
/-- crnand (R1014). -/
def execCrnand (crbD crbA crbB : BitVec 5) (s : State) : Out := s.crLogical crbD crbA crbB fun a b => !(a && b)
/-- crnor (R1015). -/
def execCrnor (crbD crbA crbB : BitVec 5) (s : State) : Out := s.crLogical crbD crbA crbB fun a b => !(a || b)
/-- cror (R1016). -/
def execCror (crbD crbA crbB : BitVec 5) (s : State) : Out := s.crLogical crbD crbA crbB fun a b => a || b
/-- crorc (R1017). -/
def execCrorc (crbD crbA crbB : BitVec 5) (s : State) : Out := s.crLogical crbD crbA crbB fun a b => a || !b
/-- crxor (R1018). -/
def execCrxor (crbD crbA crbB : BitVec 5) (s : State) : Out := s.crLogical crbD crbA crbB fun a b => a ^^ b

/-- mcrf (R1019). -/
def execMcrf (crfD crfS : BitVec 3) (s : State) : Out := (s.setCrField crfD (crField s.cr crfS)).finish

/-- mtcrf (R1030). -/
def execMtcrf (rS : BitVec 5) (crm : BitVec 8) (s : State) : Out :=
  (s.setCr (mix s.cr (s.getGpr rS) (crmMask crm))).finish

/-- mcrxr (R1031). -/
def execMcrxr (crfD : BitVec 3) (s : State) : Out :=
  ((s.setCrField crfD (crField s.xer 0)).setXer (s.xer &&& 0x0FFFFFFF)).finish

/-- mfcr (R1032). -/
def execMfcr (rD : BitVec 5) (s : State) : Out := (s.setGpr rD s.cr).finish

/-- mtocrf (R1033): as mtcrf. -/
def execMtocrf (rS : BitVec 5) (crm : BitVec 8) (s : State) : Out :=
  (s.setCr (mix s.cr (s.getGpr rS) (crmMask crm))).finish

/-- mfocrf (R1034): as mfcr. -/
def execMfocrf (rD : BitVec 5) (_crm : BitVec 8) (s : State) : Out := (s.setGpr rD s.cr).finish

end Sys2Proof.Machine
end

