-- ==== Sys2Proof/Machine/FpConvert.lean ====
section
/-! DEFINITION. The conversions of floating-point single loads and stores (42 R906, R907). -/

namespace Sys2Proof.Machine

/-- The exponent field of a double. -/
def dExp (d : DWord) : Nat := (d.extractLsb' 52 11).toNat

/-- The fraction field of a double. -/
def dFrac (d : DWord) : Nat := (d.setWidth 52).toNat

/-- A double from its sign, exponent field and fraction field. -/
def dOf (sign : Bool) (exp frac : Nat) : DWord := BitVec.ofBool sign ++ BitVec.ofNat 11 exp ++ BitVec.ofNat 52 frac

/-- DOUBLE: a single-precision word in double format (42 R906). -/
def doubleOf (w : Word) : DWord :=
  let exp := (w.extractLsb' 23 8).toNat
  let frac := (w.setWidth 23).toNat
  if exp = 0 ∧ frac ≠ 0 then dOf w.msb (Nat.log2 frac + 874) (frac <<< (52 - Nat.log2 frac))
  else
    let b := if exp = 0 ∨ exp = 255 then w.getLsbD 30 else !w.getLsbD 30
    w.extractLsb' 30 2 ++ BitVec.ofBool b ++ BitVec.ofBool b ++ BitVec.ofBool b ++ w.setWidth 30 ++ (0 : BitVec 29)

/-- The store conversion gives a defined word (42 R907 c, U31). -/
def singleDefined (d : DWord) : Bool := decide (874 ≤ dExp d) || d.setWidth 63 == 0

/-- SINGLE: a double in single format, where the rule defines it (42 R907). -/
def singleOf (d : DWord) : Word :=
  if 896 < dExp d ∨ d.setWidth 63 = 0 then d.extractLsb' 62 2 ++ d.extractLsb' 29 30
  else
    BitVec.ofBool d.msb ++ (0 : BitVec 8) ++ BitVec.ofNat 23 (((2 ^ 52 + dFrac d) >>> (897 - dExp d)) >>> 29)

end Sys2Proof.Machine
end

