-- ==== Sys2Proof/Machine/FpArith.lean ====
section
/-! DEFINITION. Floating-point arithmetic on values: unpacking, exact results, rounding, the exceptions and what is
delivered (42_float.md R901 to R909, R930, R944). -/

namespace Sys2Proof.Machine

/-! ### Bits of FPSCR (10 R28) -/

def fpOX : Word := 0x10000000
def fpUX : Word := 0x08000000
def fpZX : Word := 0x04000000
def fpXX : Word := 0x02000000
def fpVXSNAN : Word := 0x01000000
def fpVXISI : Word := 0x00800000
def fpVXIDI : Word := 0x00400000
def fpVXZDZ : Word := 0x00200000
def fpVXIMZ : Word := 0x00100000
def fpVXVC : Word := 0x00080000
def fpVXSQRT : Word := 0x00000200
def fpVXCVI : Word := 0x00000100

/-- The exception bits that FX summarises. -/
def fpExceptions : Word := 0x1FF80700
/-- The invalid-operation bits that VX summarises. -/
def fpInvalid : Word := 0x01F80700
/-- The bits that hold a value: all but the reserved bit 52. -/
def fpDefined : Word := 0xFFFFF7FF

/-- FPSCR with VX and FEX recomputed (42 R903). -/
def fpSummary (f : Word) : Word :=
  let vx := f &&& fpInvalid != 0
  (f &&& 0x9FFFFFFF) ||| maskIf vx 0x20000000 |||
    maskIf ((vx && bit f 56) || (bit f 35 && bit f 57) || (bit f 36 && bit f 58) || (bit f 37 && bit f 59) ||
      (bit f 38 && bit f 60)) 0x40000000

/-- FPSCR after exceptions occur: the sticky bits, FX if one of them was 0, the summaries. -/
def fpRaise (exc f : Word) : Word :=
  fpSummary (f ||| exc ||| maskIf (exc &&& ~~~f &&& fpExceptions != 0) 0x80000000)

/-- FPSCR with FR and FI replaced. -/
def withFrFi (fr fi : Bool) (f : Word) : Word := mix f (maskIf fr 0x00040000 ||| maskIf fi 0x00020000) 0x00060000

/-- FPSCR with FPRF replaced. -/
def withFprf (c : BitVec 5) (f : Word) : Word := mix f (c.setWidth 32 <<< 12) 0x0001F000

/-! ### Values (42 R901) -/

/-- What a double stands for: a NaN, an infinity, or the number m * 2^e with a sign. -/
inductive FpVal where
  | nan
  | inf (sign : Bool)
  | num (sign : Bool) (m : Nat) (e : Int)
  deriving DecidableEq, Repr

/-- The value of a double. -/
def unpack (d : DWord) : FpVal :=
  if dExp d = 2047 then (if dFrac d = 0 then .inf d.msb else .nan)
  else if dExp d = 0 then .num d.msb (dFrac d) (-1074)
  else .num d.msb (2 ^ 52 + dFrac d) (dExp d - 1075)

def isNan (d : DWord) : Bool := decide (dExp d = 2047) && decide (dFrac d ≠ 0)
/-- A signalling NaN. -/
def isSnan (d : DWord) : Bool := isNan d && !d.getLsbD 51

/-- A NaN with its quiet bit set; single forms clear the low fraction bits (42 R908). -/
def quiet (single : Bool) (d : DWord) : DWord :=
  (d ||| 0x0008000000000000) &&& (if single then 0xFFFFFFFFE0000000 else 0xFFFFFFFFFFFFFFFF)

/-- The QNaN that an invalid operation generates. -/
def generatedNan : DWord := 0x7FF8000000000000

/-- A number that single format can represent, or an infinity, or a NaN (42 R901; NaN operands: log 18). -/
def singleRepresentable (d : DWord) : Bool :=
  match unpack d with
  | .nan | .inf _ => true
  | .num _ m _ =>
    m = 0 || (decide (897 ≤ dExp d) && decide (dExp d ≤ 1150) && d.setWidth 29 == 0) ||
      (decide (874 ≤ dExp d) && decide (dExp d ≤ 896) && decide (dFrac d % 2 ^ (29 + (897 - dExp d)) = 0))

/-- With NI, an operand that is denormalised is a zero of its sign (42 R909). -/
def flushOperand (ni single : Bool) (d : DWord) : DWord :=
  if ni && decide (dExp d < if single then 897 else 1) then d &&& 0x8000000000000000 else d

/-- The other sign, for a number or an infinity. -/
def FpVal.negate : FpVal → FpVal
  | .nan => .nan
  | .inf s => .inf !s
  | .num s m e => .num (!s) m e

/-! ### Formats and rounding (42 R902) -/

/-- A target format: significant bits, least and greatest exponent, exponent adjustment. -/
structure FpFormat where
  p    : Nat
  emin : Int
  emax : Int
  adj  : Int
  deriving DecidableEq, Repr

def fpDouble : FpFormat := { p := 53, emin := -1022, emax := 1023, adj := 1536 }
def fpSingle : FpFormat := { p := 24, emin := -126, emax := 127, adj := 192 }

/-- A number rounded to a multiple of 2^t: q * 2^t, whether it differs, whether its magnitude grew. -/
structure Rounded where
  q       : Nat
  t       : Int
  inexact : Bool
  up      : Bool
  deriving DecidableEq, Repr

/-- Round m * 2^e to a multiple of 2^t under RN. -/
def roundAt (rn : BitVec 2) (sign : Bool) (m : Nat) (e t : Int) : Rounded :=
  if t ≤ e then { q := m <<< (e - t).toNat, t := t, inexact := false, up := false }
  else
    let k := (t - e).toNat
    let q := m >>> k
    let r := m % 2 ^ k
    let up :=
      match rn.toNat with
      | 0 => decide (2 ^ k < 2 * r) || (decide (2 * r = 2 ^ k) && decide (q % 2 = 1))
      | 1 => false
      | 2 => decide (r ≠ 0) && !sign
      | _ => decide (r ≠ 0) && sign
    { q := if up then q + 1 else q, t := t, inexact := decide (r ≠ 0), up := up }

/-- The double that holds q * 2^t, for a value that has one. -/
def packDouble (sign : Bool) (q : Nat) (t : Int) : DWord :=
  if q = 0 then dOf sign 0 0
  else
    let e := t + Nat.log2 q
    if e < -1022 then dOf sign 0 (q <<< (t + 1074).toNat)
    else dOf sign (e + 1023).toNat ((q <<< 53) >>> (Nat.log2 q + 1))

/-- The class of a result, for FPRF (42 R904). -/
inductive FpKind where
  | nan
  | inf
  | normal
  | denormal
  | zero
  deriving DecidableEq, Repr

/-- FPRF of a class and a sign. -/
def fprfOf (k : FpKind) (sign : Bool) : BitVec 5 :=
  match k with
  | .nan => 0b10001
  | .inf => if sign then 0b01001 else 0b00101
  | .normal => if sign then 0b01000 else 0b00100
  | .denormal => if sign then 0b11000 else 0b10100
  | .zero => if sign then 0b10010 else 0b00010

/-- What an operation delivers: exception bits, the value if the target is written, its class, FR (none where it is
undefined) and FI. -/
structure FpResult where
  exc  : Word
  res  : Option DWord
  kind : FpKind
  fr   : Option Bool
  fi   : Bool
  deriving DecidableEq, Repr

/-- An exact special result. -/
def FpResult.exact (d : DWord) (k : FpKind) : FpResult := { exc := 0, res := some d, kind := k, fr := some false, fi := false }

/-- An exception that suppresses the result if it is enabled. -/
def FpResult.suppress (exc : Word) (enabled : Bool) (d : DWord) (k : FpKind) : FpResult :=
  { exc := exc, res := if enabled then none else some d, kind := k, fr := some false, fi := false }

def infinity (sign : Bool) : DWord := dOf sign 2047 0
def zeroOf (sign : Bool) : DWord := dOf sign 0 0

/-- The largest finite number of a format. -/
def largest (fmt : FpFormat) (sign : Bool) : DWord := packDouble sign (2 ^ fmt.p - 1) (fmt.emax - (fmt.p - 1))

/-- A disabled overflow (42 R903). -/
def overflowed (fmt : FpFormat) (rn : BitVec 2) (sign : Bool) : FpResult :=
  let toInf := match rn.toNat with
    | 0 => true
    | 1 => false
    | 2 => !sign
    | _ => sign
  { exc := fpOX ||| fpXX, res := some (if toInf then infinity sign else largest fmt sign),
    kind := if toInf then .inf else .normal, fr := none, fi := true }

/-- A disabled underflow: rounded at the format's least exponent, and flushed to zero with NI (42 R903, R909, D23).
DESIGN CHOICE, unsafe: FR of a flushed result is that of the rounding before the flush (log 71). -/
def underflowed (fmt : FpFormat) (f : Word) (sign : Bool) (m : Nat) (e : Int) : FpResult :=
  let r := roundAt (f.setWidth 2) sign m e (fmt.emin - (fmt.p - 1))
  let denormal := decide (r.q ≠ 0) && decide (r.q < 2 ^ (fmt.p - 1))
  let flush := bit f 61 && denormal
  { exc := if r.inexact then fpUX ||| fpXX else 0
    res := some (if flush then zeroOf sign else packDouble sign r.q r.t)
    kind := if flush ∨ r.q = 0 then .zero else if denormal then .denormal else .normal
    fr := some r.up
    fi := r.inexact }

/-- Deliver the number m * 2^e, m not 0, in a format under FPSCR (42 R902, R903). -/
def deliver (fmt : FpFormat) (f : Word) (sign : Bool) (m : Nat) (e : Int) : FpResult :=
  let x := e + Nat.log2 m
  let r := roundAt (f.setWidth 2) sign m e (x - (fmt.p - 1))
  let xx := if r.inexact then fpXX else 0
  if fmt.emax < r.t + Nat.log2 r.q then
    if bit f 57 then
      { exc := fpOX ||| xx, res := some (packDouble sign r.q (r.t - fmt.adj)), kind := .normal, fr := some r.up,
        fi := r.inexact }
    else overflowed fmt (f.setWidth 2) sign
  else if x < fmt.emin then
    if bit f 58 then
      { exc := fpUX ||| xx, res := some (packDouble sign r.q (r.t + fmt.adj)), kind := .normal, fr := some r.up,
        fi := r.inexact }
    else underflowed fmt f sign m e
  else { exc := xx, res := some (packDouble sign r.q r.t), kind := .normal, fr := some r.up, fi := r.inexact }

/-! ### Exact results -/

/-- The exact result of an operation, before rounding. A finite number is m * 2^e with m not 0. -/
inductive FpExact where
  | invalid (bits : Word)
  | nan
  | zeroDivide (sign : Bool)
  | inf (sign : Bool)
  | zero (sign : Bool)
  | finite (sign : Bool) (m : Nat) (e : Int)
  deriving DecidableEq, Repr

/-- A product or quotient, which is zero if its significand is. -/
def exactOf (sign : Bool) (m : Nat) (e : Int) : FpExact := if m = 0 then .zero sign else .finite sign m e

/-- The value of an exact result that raises no exception. -/
def FpExact.toVal : FpExact → FpVal
  | .inf s => .inf s
  | .zero s => .num s 0 0
  | .finite s m e => .num s m e
  | .invalid _ | .nan | .zeroDivide _ => .nan

/-- x + y. -/
def fpAdd (rn : BitVec 2) : FpVal → FpVal → FpExact
  | .nan, _ | _, .nan => .nan
  | .inf s, .inf t => if s = t then .inf s else .invalid fpVXISI
  | .inf s, .num _ _ _ | .num _ _ _, .inf s => .inf s
  | .num s m e, .num t n g =>
    let l := min e g
    let a : Int := (m <<< (e - l).toNat : Nat)
    let b : Int := (n <<< (g - l).toNat : Nat)
    let sum := (if s then -a else a) + (if t then -b else b)
    if sum = 0 then .zero (if s = t then s else rn == 3) else .finite (decide (sum < 0)) sum.natAbs l

/-- x * y. -/
def fpMul : FpVal → FpVal → FpExact
  | .nan, _ | _, .nan => .nan
  | .inf s, .inf t => .inf (s ^^ t)
  | .inf s, .num t m _ | .num t m _, .inf s => if m = 0 then .invalid fpVXIMZ else .inf (s ^^ t)
  | .num s m e, .num t n g => exactOf (s ^^ t) (m * n) (e + g)

/-- x / y. A quotient keeps 120 fraction bits and one more that says whether a remainder is left. -/
def fpDiv : FpVal → FpVal → FpExact
  | .nan, _ | _, .nan => .nan
  | .inf _, .inf _ => .invalid fpVXIDI
  | .inf s, .num t _ _ => .inf (s ^^ t)
  | .num s _ _, .inf t => .zero (s ^^ t)
  | .num s m e, .num t n g =>
    if n = 0 then (if m = 0 then .invalid fpVXZDZ else .zeroDivide (s ^^ t))
    else
      let q := (m <<< 120) / n
      exactOf (s ^^ t) (2 * q + if (m <<< 120) % n = 0 then 0 else 1) (e - g - 121)

/-- x * y + z, without rounding in between; infinity times zero is invalid whatever z is (42 R921). -/
def fpMulAdd (rn : BitVec 2) (x y z : FpVal) : FpExact :=
  match fpMul x y with
  | .invalid b => .invalid b
  | p => fpAdd rn p.toVal z

/-- Deliver an exact result, with NaN operands in the order of 42 R908. -/
def conclude (fmt : FpFormat) (f : Word) (operands : List DWord) (x : FpExact) : FpResult :=
  let nan := ((operands.find? isNan).map (quiet (fmt.p == 24))).getD generatedNan
  let invalid := maskIf (operands.any isSnan) fpVXSNAN ||| match x with
    | .invalid b => b
    | _ => 0
  if invalid ≠ 0 then .suppress invalid (bit f 56) nan .nan
  else
    match x with
    | .invalid _ | .nan => .exact nan .nan
    | .zeroDivide s => .suppress fpZX (bit f 59) (infinity s) .inf
    | .inf s => .exact (infinity s) .inf
    | .zero s => .exact (zeroOf s) .zero
    | .finite s m e => deliver fmt f s m e

/-- The result with the other sign, but for a NaN (42 R925). -/
def FpResult.negate (r : FpResult) : FpResult :=
  if r.kind = .nan then r else { r with res := r.res.map (· ^^^ 0x8000000000000000) }

/-! ### Comparison (42 R932) -/

/-- A number that orders values as the reals do; infinities lie beyond every double. -/
def FpVal.key : FpVal → Int
  | .nan => 0
  | .inf s => if s then -2 ^ 2200 else 2 ^ 2200
  | .num s m e => if s then -(m <<< (e + 1074).toNat : Nat) else (m <<< (e + 1074).toNat : Nat)

/-- FL, FG, FE, FU. -/
def fpCompare (a b : DWord) : BitVec 4 :=
  if isNan a || isNan b then 0b0001
  else if (unpack a).key < (unpack b).key then 0b1000
  else if (unpack b).key < (unpack a).key then 0b0100
  else 0b0010

/-! ### Conversion to integer (42 R930) -/

/-- What a conversion delivers: exception bits, the word, FR and FI. -/
structure IntResult where
  exc : Word
  res : Word
  fr  : Bool
  fi  : Bool
  deriving DecidableEq, Repr

/-- Convert under a rounding mode. -/
def toIntWord (rn : BitVec 2) (d : DWord) : IntResult :=
  match unpack d with
  | .nan => { exc := fpVXCVI ||| maskIf (isSnan d) fpVXSNAN, res := 0x80000000, fr := false, fi := false }
  | .inf s => { exc := fpVXCVI, res := if s then 0x80000000 else 0x7FFFFFFF, fr := false, fi := false }
  | .num s m e =>
    let r := roundAt rn s m e 0
    let i : Int := if s then -(r.q : Int) else r.q
    if 2 ^ 31 - 1 < i then { exc := fpVXCVI, res := 0x7FFFFFFF, fr := false, fi := false }
    else if i < -2 ^ 31 then { exc := fpVXCVI, res := 0x80000000, fr := false, fi := false }
    else { exc := if r.inexact then fpXX else 0, res := BitVec.ofInt 32 i, fr := r.up, fi := r.inexact }

/-! ### Estimates (42 R944, D24; log 15) -/

/-- a * 2^e ≤ b. -/
def scaledLe (a : Nat) (e : Int) (b : Nat) : Bool :=
  if 0 ≤ e then decide (a <<< e.toNat ≤ b) else decide (a ≤ b <<< (-e).toNat)

/-- b ≤ a * 2^e. -/
def scaledGe (a : Nat) (e : Int) (b : Nat) : Bool :=
  if 0 ≤ e then decide (b ≤ a <<< e.toNat) else decide (b <<< (-e).toNat ≤ a)

/-- A value that may stand for 1 / (n * 2^g): it has 24 significant bits and the relative error is at most 1/256. -/
def fresAccepts (m : Nat) (e : Int) (n : Nat) (g : Int) : Bool :=
  (decide (m ≠ 0) && decide (m % 2 ^ (Nat.log2 m - 23) = 0)) &&
    (scaledLe (m * n * 256) (e + g) 257 && scaledGe (m * n * 256) (e + g) 255)

/-- FRES_ESTIMATE for a finite operand that is not 0: what the table gives if the manual allows it, else 1/x rounded to
24 bits. -/
def fresEstimate (d : DWord) : FpExact :=
  match unpack d with
  | .num s n g =>
    let near :=
      let q := (2 ^ 120) / n
      let r := roundAt 0 s q (-120 - g) (-120 - g + Nat.log2 q - 23)
      FpExact.finite s r.q r.t
    match unpack (Config.fresTable d) with
    | .num t m e => if t = s ∧ fresAccepts m e n g then .finite s m e else near
    | _ => near
  | _ => .nan

/-- The integer square root of a number below 2^130. -/
def isqrt (n : Nat) : Nat :=
  (List.range 65).foldl (fun r i => if (r + 2 ^ (64 - i)) ^ 2 ≤ n then r + 2 ^ (64 - i) else r) 0

/-- A value that may stand for 1 / sqrt (n * 2^g): the relative error is at most 1/32. -/
def frsqrteAccepts (m : Nat) (e : Int) (n : Nat) (g : Int) : Bool :=
  scaledLe (m * m * n * 1024) (2 * e + g) 1089 && scaledGe (m * m * n * 1024) (2 * e + g) 961

/-- FRSQRTE_ESTIMATE for a positive finite operand: what the table gives if the manual allows it, else 1/sqrt x with
its low bits cut off. -/
def frsqrteEstimate (d : DWord) : FpExact :=
  match unpack d with
  | .num _ n g =>
    let near :=
      let odd := (g % 2).toNat
      let q := isqrt (2 ^ 128 / (n <<< odd))
      let r := roundAt 1 false q (-64 - (g - odd) / 2) (-64 - (g - odd) / 2 + Nat.log2 q - 52)
      FpExact.finite false r.q r.t
    match unpack (Config.frsqrteTable d) with
    | .num false m e => if frsqrteAccepts m e n g then .finite false m e else near
    | _ => near
  | _ => .nan

end Sys2Proof.Machine
end

