-- ==== Sys2Proof/Machine/Float.lean ====
section
/-! DEFINITION. Floating-point instructions (42_float.md R910 to R943). -/

namespace Sys2Proof.Machine

/-! ### Shared operations -/

/-- With Rc, CR1 receives FX, FEX, VX, OX (R905). -/
def State.recordFp (rc : Bool) (s : State) : State := if rc then s.setCrField 1 (crField s.fpscr 0) else s

/-- The end of an instruction that can raise a floating-point enabled exception: CR1, then the program interrupt if FEX
is 1 and MSR enables it (R903, R905; 61 R659). -/
def State.finishFp (rc : Bool) (s : State) : Out :=
  let t := s.recordFp rc
  if bit t.fpscr 33 && t.fe then t.program 0x01000000 else t.finish

/-- Write the result and its class; if an operand was out of format, any value and any class (U30). -/
def State.putFp (frD : BitVec 5) (r : FpResult) (outOfFormat : Bool) (s : State) : State :=
  match r.res with
  | none => s
  | some d =>
    if outOfFormat then
      let (x, t) := s.drawDWord
      let (c, u) := t.drawFprf
      (u.setFpr frD x).setFpscr (withFprf c u.fpscr)
    else (s.setFpr frD d).setFpscr (withFprf (fprfOf r.kind d.msb) s.fpscr)

/-- FR and FI; FR is free after a disabled overflow (R903, U29). -/
def State.putFrFi (fr : Option Bool) (fi : Bool) (s : State) : State :=
  match fr with
  | some b => s.setFpscr (withFrFi b fi s.fpscr)
  | none => s.drawBit.2.setFpscr (withFrFi s.drawBit.1 fi s.fpscr)

/-- The end of an arithmetic instruction. -/
def State.putResult (frD : BitVec 5) (r : FpResult) (outOfFormat rc : Bool) (s : State) : Out :=
  let t := (s.putFp frD r outOfFormat).putFrFi r.fr r.fi
  (t.setFpscr (fpRaise r.exc t.fpscr)).finishFp rc

/-- A source operand of an arithmetic instruction: a denormal is a zero in non-IEEE mode (R909). -/
def State.operand (s : State) (single : Bool) (r : BitVec 5) : DWord :=
  flushOperand (bit s.fpscr 61) single (s.getFpr r)

/-- Whether a single-precision instruction has an operand that is no single-precision number, after the replacement of
denormal operands in non-IEEE mode (R909, U30). -/
def State.outOfFormat (s : State) (single : Bool) (rs : List (BitVec 5)) : Bool :=
  single && rs.any fun r => !singleRepresentable (s.operand single r)

/-- The format of an instruction. -/
def formatOf (single : Bool) : FpFormat := if single then fpSingle else fpDouble

/-- Rounding mode FPSCR[RN]. -/
def State.rn (s : State) : BitVec 2 := s.fpscr.setWidth 2

/-- An operation on two operands. -/
def State.fpBinary (single : Bool) (op : FpVal → FpVal → FpExact) (frD a b : BitVec 5) (rc : Bool) (s : State) : Out :=
  let x := s.operand single a
  let y := s.operand single b
  s.needFp (s.putResult frD (conclude (formatOf single) s.fpscr [x, y] (op (unpack x) (unpack y)))
    (s.outOfFormat single [a, b]) rc)

/-- A multiply-add: frA times frC, plus frB or minus it, the result negated or not (R921 to R928). -/
def State.fpFused (single sub neg : Bool) (frD a c b : BitVec 5) (rc : Bool) (s : State) : Out :=
  let x := s.operand single a
  let y := s.operand single b
  let z := s.operand single c
  let addend := if sub then (unpack y).negate else unpack y
  let r := conclude (formatOf single) s.fpscr [x, y, z] (fpMulAdd s.rn (unpack x) (unpack z) addend)
  s.needFp (s.putResult frD (if neg then r.negate else r) (s.outOfFormat single [a, b, c]) rc)

/-- An estimate: FR and FI are free, and XX is left alone (R918, R919, U29). -/
def State.putEstimate (frD : BitVec 5) (r : FpResult) (outOfFormat rc : Bool) (s : State) : Out :=
  let (fi, t) := s.drawBit
  t.putResult frD { r with fr := none, fi := fi, exc := r.exc &&& ~~~fpXX } outOfFormat rc

/-- A conversion to integer. The high word and FPRF are free (R930, U29). -/
def State.fpConvert (rn : BitVec 2) (frD b : BitVec 5) (rc : Bool) (s : State) : Out :=
  let r := toIntWord rn (s.operand false b)
  let (hi, t) := s.drawWord
  let (c, u) := t.drawFprf
  let w := if r.exc &&& fpInvalid ≠ 0 ∧ bit s.fpscr 56 then u else u.setFpr frD (hi ++ r.res)
  let f := withFrFi r.fr r.fi (withFprf c w.fpscr)
  s.needFp ((w.setFpscr (fpRaise r.exc f)).finishFp rc)

/-- A compare: the CR field and FPCC (R932, R933). -/
def State.fpCompareInto (crfD : BitVec 3) (a b : DWord) (exc : Word) (s : State) : Out :=
  let c := fpCompare a b
  let f := mix s.fpscr (c.setWidth 32 <<< 12) 0x0000F000
  s.needFp (((s.setCrField crfD c).setFpscr (fpRaise exc f)).finishFp false)

/-- A move: FPSCR is not changed (R940). -/
def State.fpMove (frD : BitVec 5) (d : DWord) (rc : Bool) (s : State) : Out :=
  s.needFp ((s.setFpr frD d).recordFp rc).finish

/-- A move to FPSCR: the bits of a mask, but FEX, VX and the reserved bit, then the summaries (R936, R937). -/
def State.writeFpscr (v mask : Word) (s : State) : State :=
  s.setFpscr (fpSummary (mix s.fpscr v (mask &&& 0x9FFFF7FF)))

/-! ### Arithmetic -/

/-- fadd (R910). -/
def execFadd (frD frA frB : BitVec 5) (rc : Bool) (s : State) : Out := s.fpBinary false (fpAdd s.rn) frD frA frB rc
/-- fadds (R911). -/
def execFadds (frD frA frB : BitVec 5) (rc : Bool) (s : State) : Out := s.fpBinary true (fpAdd s.rn) frD frA frB rc
/-- fsub (R912). -/
def execFsub (frD frA frB : BitVec 5) (rc : Bool) (s : State) : Out :=
  s.fpBinary false (fun x y => fpAdd s.rn x y.negate) frD frA frB rc
/-- fsubs (R913). -/
def execFsubs (frD frA frB : BitVec 5) (rc : Bool) (s : State) : Out :=
  s.fpBinary true (fun x y => fpAdd s.rn x y.negate) frD frA frB rc
/-- fmul (R914). -/
def execFmul (frD frA frC : BitVec 5) (rc : Bool) (s : State) : Out := s.fpBinary false fpMul frD frA frC rc
/-- fmuls (R915). -/
def execFmuls (frD frA frC : BitVec 5) (rc : Bool) (s : State) : Out := s.fpBinary true fpMul frD frA frC rc
/-- fdiv (R916). -/
def execFdiv (frD frA frB : BitVec 5) (rc : Bool) (s : State) : Out := s.fpBinary false fpDiv frD frA frB rc
/-- fdivs (R917). -/
def execFdivs (frD frA frB : BitVec 5) (rc : Bool) (s : State) : Out := s.fpBinary true fpDiv frD frA frB rc

/-- fres (R918, R944). DESIGN CHOICE, unsafe: overflow, tininess and the loss of accuracy of a disabled underflow are judged
by the estimate, not by 1/x, so UX is set there only if denormalising the estimate drops bits (log 17). -/
def execFres (frD frB : BitVec 5) (rc : Bool) (s : State) : Out :=
  let x := s.operand true frB
  let exact :=
    match unpack x with
    | .nan => .nan
    | .inf t => .zero t
    | .num t m _ => if m = 0 then .zeroDivide t else fresEstimate x
  s.needFp (s.putEstimate frD (conclude fpSingle s.fpscr [x] exact) (s.outOfFormat true [frB]) rc)

/-- frsqrte (R919, R944). -/
def execFrsqrte (frD frB : BitVec 5) (rc : Bool) (s : State) : Out :=
  let x := s.operand false frB
  let exact :=
    match unpack x with
    | .nan => .nan
    | .inf t => if t then .invalid fpVXSQRT else .zero false
    | .num t m _ => if m = 0 then .zeroDivide t else if t then .invalid fpVXSQRT else frsqrteEstimate x
  s.needFp (s.putEstimate frD (conclude fpDouble s.fpscr [x] exact) false rc)

/-- fsel (R920). -/
def execFsel (frD frA frC frB : BitVec 5) (rc : Bool) (s : State) : Out :=
  let x := s.operand false frA
  s.fpMove frD (if !isNan x && decide (0 ≤ (unpack x).key) then s.getFpr frC else s.getFpr frB) rc

/-! ### Multiply-add -/

/-- fmadd (R921). -/
def execFmadd (frD frA frC frB : BitVec 5) (rc : Bool) (s : State) : Out :=
  s.fpFused false false false frD frA frC frB rc
/-- fmadds (R922). -/
def execFmadds (frD frA frC frB : BitVec 5) (rc : Bool) (s : State) : Out :=
  s.fpFused true false false frD frA frC frB rc
/-- fmsub (R923). -/
def execFmsub (frD frA frC frB : BitVec 5) (rc : Bool) (s : State) : Out :=
  s.fpFused false true false frD frA frC frB rc
/-- fmsubs (R924). -/
def execFmsubs (frD frA frC frB : BitVec 5) (rc : Bool) (s : State) : Out :=
  s.fpFused true true false frD frA frC frB rc
/-- fnmadd (R925). -/
def execFnmadd (frD frA frC frB : BitVec 5) (rc : Bool) (s : State) : Out :=
  s.fpFused false false true frD frA frC frB rc
/-- fnmadds (R926). -/
def execFnmadds (frD frA frC frB : BitVec 5) (rc : Bool) (s : State) : Out :=
  s.fpFused true false true frD frA frC frB rc
/-- fnmsub (R927). -/
def execFnmsub (frD frA frC frB : BitVec 5) (rc : Bool) (s : State) : Out :=
  s.fpFused false true true frD frA frC frB rc
/-- fnmsubs (R928). -/
def execFnmsubs (frD frA frC frB : BitVec 5) (rc : Bool) (s : State) : Out :=
  s.fpFused true true true frD frA frC frB rc

/-! ### Rounding, conversion, comparison -/

/-- frsp (R929). -/
def execFrsp (frD frB : BitVec 5) (rc : Bool) (s : State) : Out :=
  let x := s.operand false frB
  let exact :=
    match unpack x with
    | .nan => .nan
    | .inf t => .inf t
    | .num t m e => exactOf t m e
  s.needFp (s.putResult frD (conclude fpSingle s.fpscr [x] exact) false rc)

/-- fctiw (R930). -/
def execFctiw (frD frB : BitVec 5) (rc : Bool) (s : State) : Out := s.fpConvert s.rn frD frB rc
/-- fctiwz (R931). -/
def execFctiwz (frD frB : BitVec 5) (rc : Bool) (s : State) : Out := s.fpConvert 1 frD frB rc

/-- fcmpu (R932). -/
def execFcmpu (crfD : BitVec 3) (frA frB : BitVec 5) (s : State) : Out :=
  let a := s.operand false frA
  let b := s.operand false frB
  s.fpCompareInto crfD a b (maskIf (isSnan a || isSnan b) fpVXSNAN)

/-- fcmpo (R933). -/
def execFcmpo (crfD : BitVec 3) (frA frB : BitVec 5) (s : State) : Out :=
  let a := s.operand false frA
  let b := s.operand false frB
  let exc :=
    if isSnan a || isSnan b then fpVXSNAN ||| maskIf (!bit s.fpscr 56) fpVXVC
    else maskIf (isNan a || isNan b) fpVXVC
  s.fpCompareInto crfD a b exc

/-! ### FPSCR -/

/-- mffs (R934): the high word is free (U29). -/
def execMffs (frD : BitVec 5) (rc : Bool) (s : State) : Out :=
  let (hi, t) := s.drawWord
  t.fpMove frD (hi ++ s.fpscr) rc

/-- mcrfs (R935). -/
def execMcrfs (crfD crfS : BitVec 3) (s : State) : Out :=
  let cleared := s.fpscr &&& ~~~(((0xF : Word) <<< (28 - 4 * crfS.toNat)) &&& (fpExceptions ||| 0x80000000))
  s.needFp ((s.setCrField crfD (crField s.fpscr crfS)).setFpscr (fpSummary cleared)).finish

/-- mtfsfi (R936). -/
def execMtfsfi (crfD : BitVec 3) (imm : BitVec 4) (rc : Bool) (s : State) : Out :=
  s.needFp ((s.writeFpscr (imm.setWidth 32 <<< (28 - 4 * crfD.toNat)) ((0xF : Word) <<< (28 - 4 * crfD.toNat))).finishFp rc)

/-- mtfsf (R937). -/
def execMtfsf (fm : BitVec 8) (frB : BitVec 5) (rc : Bool) (s : State) : Out :=
  s.needFp ((s.writeFpscr ((s.getFpr frB).setWidth 32) (crmMask fm)).finishFp rc)

/-- mtfsb0 (R938). -/
def execMtfsb0 (crbD : BitVec 5) (rc : Bool) (s : State) : Out :=
  s.needFp ((s.writeFpscr 0 ((0x80000000 : Word) >>> crbD.toNat)).recordFp rc).finish

/-- mtfsb1 (R939). -/
def execMtfsb1 (crbD : BitVec 5) (rc : Bool) (s : State) : Out :=
  let b : Word := ((0x80000000 : Word) >>> crbD.toNat) &&& 0x9FFFF7FF
  s.needFp ((s.setFpscr (fpRaise b s.fpscr)).finishFp rc)

/-! ### Moves -/

/-- fmr (R940). -/
def execFmr (frD frB : BitVec 5) (rc : Bool) (s : State) : Out := s.fpMove frD (s.getFpr frB) rc
/-- fneg (R941). -/
def execFneg (frD frB : BitVec 5) (rc : Bool) (s : State) : Out :=
  s.fpMove frD (s.getFpr frB ^^^ 0x8000000000000000) rc
/-- fabs (R942). -/
def execFabs (frD frB : BitVec 5) (rc : Bool) (s : State) : Out :=
  s.fpMove frD (s.getFpr frB &&& 0x7FFFFFFFFFFFFFFF) rc
/-- fnabs (R943). -/
def execFnabs (frD frB : BitVec 5) (rc : Bool) (s : State) : Out :=
  s.fpMove frD (s.getFpr frB ||| 0x8000000000000000) rc

end Sys2Proof.Machine
end

