-- ==== Sys2Proof/Machine/Integer.lean ====
section
/-! DEFINITION. Integer arithmetic and compares (40_integer.md R402 to R427). -/

namespace Sys2Proof.Machine

/-! ### Shared operations -/

/-- The end of an arithmetic instruction that leaves CA alone: the result, OV and SO, then CR0. -/
def State.arith (rD : BitVec 5) (res : Word) (ov oe rc : Bool) (s : State) : Out :=
  (((s.setGpr rD res).setOv oe ov).record rc res).finish

/-- The end of an instruction whose result is a sum, which CA records. -/
def State.sumCa (rD : BitVec 5) (x : Sum) (oe rc : Bool) (s : State) : Out :=
  (s.setCa x.ca).arith rD x.res x.ov oe rc

/-- A quotient that the manual leaves open: any word, OV, and with Rc any LT, GT, EQ (U28). -/
def State.undefinedQuotient (rD : BitVec 5) (oe rc : Bool) (s : State) : Out :=
  let (q, t) := s.drawWord
  let u := (t.setGpr rD q).setOv oe true
  if rc then (u.drawCr.2.setCrField 0 (u.drawCr.1 ++ BitVec.ofBool u.so)).finish else u.finish

/-- The end of a compare. -/
def State.compare (crfD : BitVec 3) (c : BitVec 4) (s : State) : Out := (s.setCrField crfD c).finish

/-! ### Meanings -/

/-- addi (R402). -/
def execAddi (rD rA : BitVec 5) (simm : BitVec 16) (s : State) : Out := (s.setGpr rD (s.base rA + sext simm)).finish

/-- addis (R403). -/
def execAddis (rD rA : BitVec 5) (simm : BitVec 16) (s : State) : Out := (s.setGpr rD (s.base rA + upper simm)).finish

/-- addic (R404). -/
def execAddic (rD rA : BitVec 5) (simm : BitVec 16) (s : State) : Out :=
  s.sumCa rD (sum (s.getGpr rA) (sext simm) false) false false

/-- addic. (R405). -/
def execAddicDot (rD rA : BitVec 5) (simm : BitVec 16) (s : State) : Out :=
  s.sumCa rD (sum (s.getGpr rA) (sext simm) false) false true

/-- subfic (R406). -/
def execSubfic (rD rA : BitVec 5) (simm : BitVec 16) (s : State) : Out :=
  s.sumCa rD (sum (~~~s.getGpr rA) (sext simm) true) false false

/-- mulli (R407). -/
def execMulli (rD rA : BitVec 5) (simm : BitVec 16) (s : State) : Out :=
  (s.setGpr rD ((signedProduct (s.getGpr rA) (sext simm)).setWidth 32)).finish

/-- add (R408). -/
def execAdd (rD rA rB : BitVec 5) (oe rc : Bool) (s : State) : Out :=
  let x := sum (s.getGpr rA) (s.getGpr rB) false
  s.arith rD x.res x.ov oe rc

/-- addc (R409). -/
def execAddc (rD rA rB : BitVec 5) (oe rc : Bool) (s : State) : Out :=
  s.sumCa rD (sum (s.getGpr rA) (s.getGpr rB) false) oe rc

/-- adde (R410). -/
def execAdde (rD rA rB : BitVec 5) (oe rc : Bool) (s : State) : Out :=
  s.sumCa rD (sum (s.getGpr rA) (s.getGpr rB) s.ca) oe rc

/-- addme (R411). -/
def execAddme (rD rA : BitVec 5) (oe rc : Bool) (s : State) : Out :=
  s.sumCa rD (sum (s.getGpr rA) 0xFFFFFFFF s.ca) oe rc

/-- addze (R412). -/
def execAddze (rD rA : BitVec 5) (oe rc : Bool) (s : State) : Out := s.sumCa rD (sum (s.getGpr rA) 0 s.ca) oe rc

/-- subf (R413). -/
def execSubf (rD rA rB : BitVec 5) (oe rc : Bool) (s : State) : Out :=
  let x := sum (~~~s.getGpr rA) (s.getGpr rB) true
  s.arith rD x.res x.ov oe rc

/-- subfc (R414). -/
def execSubfc (rD rA rB : BitVec 5) (oe rc : Bool) (s : State) : Out :=
  s.sumCa rD (sum (~~~s.getGpr rA) (s.getGpr rB) true) oe rc

/-- subfe (R415). -/
def execSubfe (rD rA rB : BitVec 5) (oe rc : Bool) (s : State) : Out :=
  s.sumCa rD (sum (~~~s.getGpr rA) (s.getGpr rB) s.ca) oe rc

/-- subfme (R416). -/
def execSubfme (rD rA : BitVec 5) (oe rc : Bool) (s : State) : Out :=
  s.sumCa rD (sum (~~~s.getGpr rA) 0xFFFFFFFF s.ca) oe rc

/-- subfze (R417). -/
def execSubfze (rD rA : BitVec 5) (oe rc : Bool) (s : State) : Out :=
  s.sumCa rD (sum (~~~s.getGpr rA) 0 s.ca) oe rc

/-- neg (R418). -/
def execNeg (rD rA : BitVec 5) (oe rc : Bool) (s : State) : Out :=
  s.arith rD (~~~s.getGpr rA + 1) (s.getGpr rA == 0x80000000) oe rc

/-- mullw (R419). -/
def execMullw (rD rA rB : BitVec 5) (oe rc : Bool) (s : State) : Out :=
  let p := signedProduct (s.getGpr rA) (s.getGpr rB)
  s.arith rD (p.setWidth 32) (p != (p.setWidth 32).signExtend 64) oe rc

/-- mulhw (R420). -/
def execMulhw (rD rA rB : BitVec 5) (rc : Bool) (s : State) : Out :=
  s.arith rD ((signedProduct (s.getGpr rA) (s.getGpr rB)).extractLsb' 32 32) false false rc

/-- mulhwu (R421). -/
def execMulhwu (rD rA rB : BitVec 5) (rc : Bool) (s : State) : Out :=
  s.arith rD ((unsignedProduct (s.getGpr rA) (s.getGpr rB)).extractLsb' 32 32) false false rc

/-- divw (R422). -/
def execDivw (rD rA rB : BitVec 5) (oe rc : Bool) (s : State) : Out :=
  if s.getGpr rB = 0 ∨ (s.getGpr rA = 0x80000000 ∧ s.getGpr rB = 0xFFFFFFFF) then s.undefinedQuotient rD oe rc
  else s.arith rD ((s.getGpr rA).sdiv (s.getGpr rB)) false oe rc

/-- divwu (R423). -/
def execDivwu (rD rA rB : BitVec 5) (oe rc : Bool) (s : State) : Out :=
  if s.getGpr rB = 0 then s.undefinedQuotient rD oe rc
  else s.arith rD ((s.getGpr rA) / (s.getGpr rB)) false oe rc

/-- cmp (R424); L is ignored (D21). -/
def execCmp (crfD : BitVec 3) (_l : BitVec 1) (rA rB : BitVec 5) (s : State) : Out :=
  s.compare crfD (compareSigned (s.getGpr rA) (s.getGpr rB) s.so)

/-- cmpi (R425). -/
def execCmpi (crfD : BitVec 3) (_l : BitVec 1) (rA : BitVec 5) (simm : BitVec 16) (s : State) : Out :=
  s.compare crfD (compareSigned (s.getGpr rA) (sext simm) s.so)

/-- cmpl (R426). -/
def execCmpl (crfD : BitVec 3) (_l : BitVec 1) (rA rB : BitVec 5) (s : State) : Out :=
  s.compare crfD (compareUnsigned (s.getGpr rA) (s.getGpr rB) s.so)

/-- cmpli (R427). -/
def execCmpli (crfD : BitVec 3) (_l : BitVec 1) (rA : BitVec 5) (uimm : BitVec 16) (s : State) : Out :=
  s.compare crfD (compareUnsigned (s.getGpr rA) (zext uimm) s.so)

end Sys2Proof.Machine
end

