-- ==== Sys2Proof/Machine/LoadStore.lean ====
section
/-! DEFINITION. Loads and stores: integer, byte-reverse, multiple, floating-point, decorated, external-PID
(41_load_store.md). -/

namespace Sys2Proof.Machine

/-! ### Kinds of access -/

/-- A floating-point load or store: word aligned, (G)ESR[FP] (41 R517; 61 R660). -/
def Access.fpLoad : Access := { Access.load with fp := true, aligned := true }
def Access.fpStore : Access := { Access.store with fp := true, aligned := true }

/-- The external-PID forms (41 R544). -/
def Access.external (a : Access) : Access := { a with ctx := if a.write then .extStore else .extLoad }

/-! ### Integer loads -/

/-- Load n bytes into a register. -/
def State.loadGpr (a : Access) (ea : Word) (n : Nat) (rD : BitVec 5) (f : Nat → Word) (s : State) : Out :=
  s.load a ea n fun v t => (t.setGpr rD (f v)).finish

/-- Load with update: rA receives EA, then rD the value. In the invalid forms both hold any value (41 R481, U25). -/
def State.loadGprUpdate (ea : Word) (n : Nat) (rD rA : BitVec 5) (f : Nat → Word) (s : State) : Out :=
  s.load .load ea n fun v t =>
    if rA = 0 ∨ rA = rD then
      let (x, u) := t.drawWord
      let (y, w) := u.drawWord
      ((w.setGpr rA x).setGpr rD y).finish
    else ((t.setGpr rA ea).setGpr rD (f v)).finish

/-- A halfword, sign-extended. -/
def algebraic (v : Nat) : Word := (BitVec.ofNat 16 v).signExtend 32

/-- lbz (R483). -/
def execLbz (rD rA : BitVec 5) (d : BitVec 16) (s : State) : Out := s.loadGpr .load (s.eaD rA d) 1 rD (BitVec.ofNat 32)
/-- lbzu (R484). -/
def execLbzu (rD rA : BitVec 5) (d : BitVec 16) (s : State) : Out :=
  s.loadGprUpdate (s.eaDU rA d) 1 rD rA (BitVec.ofNat 32)
/-- lbzx (R485). -/
def execLbzx (rD rA rB : BitVec 5) (s : State) : Out := s.loadGpr .load (s.eaX rA rB) 1 rD (BitVec.ofNat 32)
/-- lbzux (R486). -/
def execLbzux (rD rA rB : BitVec 5) (s : State) : Out := s.loadGprUpdate (s.eaXU rA rB) 1 rD rA (BitVec.ofNat 32)
/-- lhz (R487). -/
def execLhz (rD rA : BitVec 5) (d : BitVec 16) (s : State) : Out := s.loadGpr .load (s.eaD rA d) 2 rD (BitVec.ofNat 32)
/-- lhzu (R488). -/
def execLhzu (rD rA : BitVec 5) (d : BitVec 16) (s : State) : Out :=
  s.loadGprUpdate (s.eaDU rA d) 2 rD rA (BitVec.ofNat 32)
/-- lhzx (R489). -/
def execLhzx (rD rA rB : BitVec 5) (s : State) : Out := s.loadGpr .load (s.eaX rA rB) 2 rD (BitVec.ofNat 32)
/-- lhzux (R490). -/
def execLhzux (rD rA rB : BitVec 5) (s : State) : Out := s.loadGprUpdate (s.eaXU rA rB) 2 rD rA (BitVec.ofNat 32)
/-- lha (R491). -/
def execLha (rD rA : BitVec 5) (d : BitVec 16) (s : State) : Out := s.loadGpr .load (s.eaD rA d) 2 rD algebraic
/-- lhau (R492). -/
def execLhau (rD rA : BitVec 5) (d : BitVec 16) (s : State) : Out := s.loadGprUpdate (s.eaDU rA d) 2 rD rA algebraic
/-- lhax (R493). -/
def execLhax (rD rA rB : BitVec 5) (s : State) : Out := s.loadGpr .load (s.eaX rA rB) 2 rD algebraic
/-- lhaux (R494). -/
def execLhaux (rD rA rB : BitVec 5) (s : State) : Out := s.loadGprUpdate (s.eaXU rA rB) 2 rD rA algebraic
/-- lwz (R495). -/
def execLwz (rD rA : BitVec 5) (d : BitVec 16) (s : State) : Out := s.loadGpr .load (s.eaD rA d) 4 rD (BitVec.ofNat 32)
/-- lwzu (R496). -/
def execLwzu (rD rA : BitVec 5) (d : BitVec 16) (s : State) : Out :=
  s.loadGprUpdate (s.eaDU rA d) 4 rD rA (BitVec.ofNat 32)
/-- lwzx (R497). -/
def execLwzx (rD rA rB : BitVec 5) (s : State) : Out := s.loadGpr .load (s.eaX rA rB) 4 rD (BitVec.ofNat 32)
/-- lwzux (R498). -/
def execLwzux (rD rA rB : BitVec 5) (s : State) : Out := s.loadGprUpdate (s.eaXU rA rB) 4 rD rA (BitVec.ofNat 32)

/-! ### Integer stores -/

/-- Store n bytes. -/
def State.storeValue (a : Access) (ea : Word) (n v : Nat) (s : State) : Out := s.store a ea n v State.finish

/-- Store with update: rA receives EA; in the invalid form any value (41 R481, U25). -/
def State.storeUpdate (a : Access) (ea : Word) (n v : Nat) (rA : BitVec 5) (s : State) : Out :=
  s.store a ea n v fun t =>
    if rA = 0 then (t.drawWord.2.setGpr rA t.drawWord.1).finish else (t.setGpr rA ea).finish

/-- stb (R499). -/
def execStb (rS rA : BitVec 5) (d : BitVec 16) (s : State) : Out :=
  s.storeValue .store (s.eaD rA d) 1 (s.getGpr rS).toNat
/-- stbu (R500). -/
def execStbu (rS rA : BitVec 5) (d : BitVec 16) (s : State) : Out :=
  s.storeUpdate .store (s.eaDU rA d) 1 (s.getGpr rS).toNat rA
/-- stbx (R501). -/
def execStbx (rS rA rB : BitVec 5) (s : State) : Out := s.storeValue .store (s.eaX rA rB) 1 (s.getGpr rS).toNat
/-- stbux (R502). -/
def execStbux (rS rA rB : BitVec 5) (s : State) : Out := s.storeUpdate .store (s.eaXU rA rB) 1 (s.getGpr rS).toNat rA
/-- sth (R503). -/
def execSth (rS rA : BitVec 5) (d : BitVec 16) (s : State) : Out :=
  s.storeValue .store (s.eaD rA d) 2 (s.getGpr rS).toNat
/-- sthu (R504). -/
def execSthu (rS rA : BitVec 5) (d : BitVec 16) (s : State) : Out :=
  s.storeUpdate .store (s.eaDU rA d) 2 (s.getGpr rS).toNat rA
/-- sthx (R505). -/
def execSthx (rS rA rB : BitVec 5) (s : State) : Out := s.storeValue .store (s.eaX rA rB) 2 (s.getGpr rS).toNat
/-- sthux (R506). -/
def execSthux (rS rA rB : BitVec 5) (s : State) : Out := s.storeUpdate .store (s.eaXU rA rB) 2 (s.getGpr rS).toNat rA
/-- stw (R507). -/
def execStw (rS rA : BitVec 5) (d : BitVec 16) (s : State) : Out :=
  s.storeValue .store (s.eaD rA d) 4 (s.getGpr rS).toNat
/-- stwu (R508). -/
def execStwu (rS rA : BitVec 5) (d : BitVec 16) (s : State) : Out :=
  s.storeUpdate .store (s.eaDU rA d) 4 (s.getGpr rS).toNat rA
/-- stwx (R509). -/
def execStwx (rS rA rB : BitVec 5) (s : State) : Out := s.storeValue .store (s.eaX rA rB) 4 (s.getGpr rS).toNat
/-- stwux (R510). -/
def execStwux (rS rA rB : BitVec 5) (s : State) : Out := s.storeUpdate .store (s.eaXU rA rB) 4 (s.getGpr rS).toNat rA

/-! ### Byte reversal -/

/-- lhbrx (R511). -/
def execLhbrx (rD rA rB : BitVec 5) (s : State) : Out :=
  s.loadGpr .load (s.eaX rA rB) 2 rD fun v => (swap16 (BitVec.ofNat 16 v)).setWidth 32
/-- lwbrx (R512). -/
def execLwbrx (rD rA rB : BitVec 5) (s : State) : Out :=
  s.loadGpr .load (s.eaX rA rB) 4 rD fun v => swap32 (BitVec.ofNat 32 v)
/-- sthbrx (R513). -/
def execSthbrx (rS rA rB : BitVec 5) (s : State) : Out :=
  s.storeValue .store (s.eaX rA rB) 2 (swap16 ((s.getGpr rS).setWidth 16)).toNat
/-- stwbrx (R514). -/
def execStwbrx (rS rA rB : BitVec 5) (s : State) : Out :=
  s.storeValue .store (s.eaX rA rB) 4 (swap32 (s.getGpr rS)).toNat

/-! ### Multiple words -/

/-- The registers from one to r31. -/
def regsFrom (r : BitVec 5) : List (BitVec 5) := (List.range (32 - r.toNat)).map fun i => r + BitVec.ofNat 5 i

/-- The words of lmw still to load, at base + off on. A load of rA, unless that is 0, moves the base of the words that
follow. The words before one that faults stay loaded (20 R288). -/
def State.loadWords (rA : BitVec 5) : List (BitVec 5) → (first : Bool) → (base off events : Word) → State → Out
  | [], _, _, _, events, s => (s.debugBefore events s.de).andThen fun _ t => t.finish
  | r :: rest, first, base, off, events, s =>
    (s.accessWord .load first (base + off)).andThen fun x t =>
      let v := BitVec.ofNat 32 (t.loadPlaced none x.1).1
      State.loadWords rA rest false (if r = rA ∧ rA ≠ 0 then v else base) (off + 4) (events ||| x.2)
        (((t.loadPlaced none x.1).2.setGpr r v).noteLoads 1)

/-- The words of stmw still to store. The words before one that faults stay stored (20 R288). -/
def State.storeWords : List (BitVec 5) → (first : Bool) → (ea events : Word) → State → Out
  | [], _, _, events, s => (s.debugBefore events s.de).andThen fun _ t => t.finish
  | r :: rest, first, ea, events, s =>
    (s.accessWord .store first ea).andThen fun x t =>
      State.storeWords rest false (ea + 4) (events ||| x.2) ((t.storePlaced none x.1 (t.getGpr r).toNat).noteStores 1)

/-- lmw (R515). In the invalid form that loads rA the words after it come from the new base, as R515 quotes, or from the
one read first, as U26 has it, whichever (log 16). -/
def execLmw (rD rA : BitVec 5) (d : BitVec 16) (s : State) : Out :=
  if rA ≠ 0 ∧ rD.toNat ≤ rA.toNat then
    s.drawBit.2.loadWords (if s.drawBit.1 then rA else 0) (regsFrom rD) true (s.base rA) (sext d) 0
  else s.loadWords 0 (regsFrom rD) true (s.base rA) (sext d) 0
/-- stmw (R516). -/
def execStmw (rS rA : BitVec 5) (d : BitVec 16) (s : State) : Out := s.storeWords (regsFrom rS) true (s.eaD rA d) 0

/-! ### Floating-point loads -/

/-- Load n bytes into a floating-point register. -/
def State.loadFpr (a : Access) (ea : Word) (n : Nat) (frD : BitVec 5) (f : Nat → DWord) (s : State) : Out :=
  s.needFp (s.load a ea n fun v t => (t.setFpr frD (f v)).finish)

/-- The same with update; with rA = 0 any value is left in r0 (41 R481, U25). -/
def State.loadFprUpdate (ea : Word) (n : Nat) (frD rA : BitVec 5) (f : Nat → DWord) (s : State) : Out :=
  s.needFp (s.load .fpLoad ea n fun v t =>
    let u := t.setFpr frD (f v)
    if rA = 0 then (u.drawWord.2.setGpr rA u.drawWord.1).finish else (u.setGpr rA ea).finish)

/-- A single-precision word as it is loaded. -/
def single (v : Nat) : DWord := doubleOf (BitVec.ofNat 32 v)

/-- lfs (R517). -/
def execLfs (frD rA : BitVec 5) (d : BitVec 16) (s : State) : Out := s.loadFpr .fpLoad (s.eaD rA d) 4 frD single
/-- lfsu (R518). -/
def execLfsu (frD rA : BitVec 5) (d : BitVec 16) (s : State) : Out := s.loadFprUpdate (s.eaDU rA d) 4 frD rA single
/-- lfsx (R519). -/
def execLfsx (frD rA rB : BitVec 5) (s : State) : Out := s.loadFpr .fpLoad (s.eaX rA rB) 4 frD single
/-- lfsux (R520). -/
def execLfsux (frD rA rB : BitVec 5) (s : State) : Out := s.loadFprUpdate (s.eaXU rA rB) 4 frD rA single
/-- lfd (R521). -/
def execLfd (frD rA : BitVec 5) (d : BitVec 16) (s : State) : Out :=
  s.loadFpr .fpLoad (s.eaD rA d) 8 frD (BitVec.ofNat 64)
/-- lfdu (R522). -/
def execLfdu (frD rA : BitVec 5) (d : BitVec 16) (s : State) : Out :=
  s.loadFprUpdate (s.eaDU rA d) 8 frD rA (BitVec.ofNat 64)
/-- lfdx (R523). -/
def execLfdx (frD rA rB : BitVec 5) (s : State) : Out := s.loadFpr .fpLoad (s.eaX rA rB) 8 frD (BitVec.ofNat 64)
/-- lfdux (R524). -/
def execLfdux (frD rA rB : BitVec 5) (s : State) : Out := s.loadFprUpdate (s.eaXU rA rB) 8 frD rA (BitVec.ofNat 64)

/-! ### Floating-point stores -/

/-- The word that a floating-point single store writes: any word where the conversion is undefined (42 R907, U31). -/
def State.singleWord (s : State) (frS : BitVec 5) : Word × State :=
  if singleDefined (s.getFpr frS) then (singleOf (s.getFpr frS), s) else s.drawWord

/-- Store n bytes of a floating-point register. -/
def State.storeFp (a : Access) (ea : Word) (n v : Nat) (s : State) : Out := s.needFp (s.storeValue a ea n v)

/-- The same with update. -/
def State.storeFpUpdate (ea : Word) (n v : Nat) (rA : BitVec 5) (s : State) : Out :=
  s.needFp (s.storeUpdate .fpStore ea n v rA)

/-- stfs (R525). -/
def execStfs (frS rA : BitVec 5) (d : BitVec 16) (s : State) : Out :=
  (s.singleWord frS).2.storeFp .fpStore (s.eaD rA d) 4 (s.singleWord frS).1.toNat
/-- stfsu (R526). -/
def execStfsu (frS rA : BitVec 5) (d : BitVec 16) (s : State) : Out :=
  (s.singleWord frS).2.storeFpUpdate (s.eaDU rA d) 4 (s.singleWord frS).1.toNat rA
/-- stfsx (R527). -/
def execStfsx (frS rA rB : BitVec 5) (s : State) : Out :=
  (s.singleWord frS).2.storeFp .fpStore (s.eaX rA rB) 4 (s.singleWord frS).1.toNat
/-- stfsux (R528). -/
def execStfsux (frS rA rB : BitVec 5) (s : State) : Out :=
  (s.singleWord frS).2.storeFpUpdate (s.eaXU rA rB) 4 (s.singleWord frS).1.toNat rA
/-- stfd (R529). -/
def execStfd (frS rA : BitVec 5) (d : BitVec 16) (s : State) : Out :=
  s.storeFp .fpStore (s.eaD rA d) 8 (s.getFpr frS).toNat
/-- stfdu (R530). -/
def execStfdu (frS rA : BitVec 5) (d : BitVec 16) (s : State) : Out :=
  s.storeFpUpdate (s.eaDU rA d) 8 (s.getFpr frS).toNat rA
/-- stfdx (R531). -/
def execStfdx (frS rA rB : BitVec 5) (s : State) : Out := s.storeFp .fpStore (s.eaX rA rB) 8 (s.getFpr frS).toNat
/-- stfdux (R532). -/
def execStfdux (frS rA rB : BitVec 5) (s : State) : Out := s.storeFpUpdate (s.eaXU rA rB) 8 (s.getFpr frS).toNat rA
/-- stfiwx (R533). -/
def execStfiwx (frS rA rB : BitVec 5) (s : State) : Out :=
  s.storeFp .fpStore (s.eaX rA rB) 4 ((s.getFpr frS).setWidth 32).toNat

/-! ### Decorated storage (R534, D22): the address is GPR[rB] alone, and the decoration in rA reaches devices only -/

/-- A decorated access. -/
def Access.decorate (a : Access) : Access := { a with decorated := true }

/-- The decoration: the four low bits of rA. -/
def State.decoration (rA : BitVec 5) (s : State) : BitVec 4 := (s.getGpr rA).setWidth 4

/-- An access, or a part of it, is to caching-inhibited storage. -/
def Placed.inhibited (p : Placed) : Bool := p.wimge.getLsbD 3 || p.upper.getLsbD 3

/-- Record a decorated load or store of caching-inhibited storage (63 R791, events 176 and 177). -/
def State.noteDecorated (write inhibited : Bool) (s : State) : State :=
  { s with
    log :=
      { s.log with
        decLoad := s.log.decLoad || (inhibited && !write)
        decStore := s.log.decStore || (inhibited && write) } }

/-- A decorated load. -/
def State.loadDecorated (a : Access) (rA rB : BitVec 5) (n : Nat) (s : State) (k : Nat → State → State) : Out :=
  (s.access a.decorate (s.getGpr rB) n).andThen fun p t =>
    let r := t.loadPlaced (some (s.decoration rA)) p
    (k r.1 ((r.2.noteLoads (partCount (s.getGpr rB) n)).noteDecorated false p.inhibited)).finish

/-- A decorated store. -/
def State.storeDecorated (a : Access) (rA rB : BitVec 5) (n v : Nat) (s : State) : Out :=
  (s.access a.decorate (s.getGpr rB) n).andThen fun p t =>
    (((t.storePlaced (some (s.decoration rA)) p v).noteStores (partCount (s.getGpr rB) n)).noteDecorated true
      p.inhibited).finish

/-- A decoration alone reaches a device; it changes no storage, and at an absent address it is lost as a store is. -/
def State.notifyPlaced (dec : BitVec 4) (p : Placed) (s : State) : State :=
  match s.regionOf p.bytes with
  | none => s
  | some .device => s.noteDevice { op := .notify, addrs := p.bytes, data := [], decoration := some dec }
  | some .absent => s.storeLost

/-- lbdx (R535). -/
def execLbdx (rD rA rB : BitVec 5) (s : State) : Out :=
  s.loadDecorated .load rA rB 1 fun v t => t.setGpr rD (BitVec.ofNat 32 v)
/-- lhdx (R536). -/
def execLhdx (rD rA rB : BitVec 5) (s : State) : Out :=
  s.loadDecorated .load rA rB 2 fun v t => t.setGpr rD (BitVec.ofNat 32 v)
/-- lwdx (R537). -/
def execLwdx (rD rA rB : BitVec 5) (s : State) : Out :=
  s.loadDecorated .load rA rB 4 fun v t => t.setGpr rD (BitVec.ofNat 32 v)
/-- lfddx (R538). -/
def execLfddx (frD rA rB : BitVec 5) (s : State) : Out :=
  s.needFp (s.loadDecorated .fpLoad rA rB 8 fun v t => t.setFpr frD (BitVec.ofNat 64 v))
/-- stbdx (R539). -/
def execStbdx (rS rA rB : BitVec 5) (s : State) : Out := s.storeDecorated .store rA rB 1 (s.getGpr rS).toNat
/-- sthdx (R540). -/
def execSthdx (rS rA rB : BitVec 5) (s : State) : Out := s.storeDecorated .store rA rB 2 (s.getGpr rS).toNat
/-- stwdx (R541). -/
def execStwdx (rS rA rB : BitVec 5) (s : State) : Out := s.storeDecorated .store rA rB 4 (s.getGpr rS).toNat
/-- stfddx (R542). -/
def execStfddx (frS rA rB : BitVec 5) (s : State) : Out :=
  s.needFp (s.storeDecorated .fpStore rA rB 8 (s.getFpr frS).toNat)

/-- dsn (R543): a store of no bytes; its address is translated as that of a one-byte store, and the decoration is
delivered whatever I is. -/
def execDsn (rA rB : BitVec 5) (s : State) : Out :=
  (s.access Access.store.decorate (s.getGpr rB) 1).andThen fun p t =>
    (((t.notifyPlaced (s.decoration rA) p).noteStores 1).noteDecorated true p.inhibited).finish

/-! ### External PID (R544) -/

/-- An external-PID instruction is for supervisor state. -/
def State.loadExternal (ea : Word) (n : Nat) (rD : BitVec 5) (s : State) : Out :=
  s.supervisorOnly (s.loadGpr Access.load.external ea n rD (BitVec.ofNat 32))

def State.storeExternal (ea : Word) (n v : Nat) (s : State) : Out :=
  s.supervisorOnly (s.storeValue Access.store.external ea n v)

/-- lbepx (R545). -/
def execLbepx (rD rA rB : BitVec 5) (s : State) : Out := s.loadExternal (s.eaX rA rB) 1 rD
/-- lhepx (R546). -/
def execLhepx (rD rA rB : BitVec 5) (s : State) : Out := s.loadExternal (s.eaX rA rB) 2 rD
/-- lwepx (R547). -/
def execLwepx (rD rA rB : BitVec 5) (s : State) : Out := s.loadExternal (s.eaX rA rB) 4 rD
/-- lfdepx (R548). -/
def execLfdepx (frD rA rB : BitVec 5) (s : State) : Out :=
  s.supervisorOnly (s.loadFpr Access.fpLoad.external (s.eaX rA rB) 8 frD (BitVec.ofNat 64))
/-- stbepx (R549). -/
def execStbepx (rS rA rB : BitVec 5) (s : State) : Out := s.storeExternal (s.eaX rA rB) 1 (s.getGpr rS).toNat
/-- sthepx (R550). -/
def execSthepx (rS rA rB : BitVec 5) (s : State) : Out := s.storeExternal (s.eaX rA rB) 2 (s.getGpr rS).toNat
/-- stwepx (R551). -/
def execStwepx (rS rA rB : BitVec 5) (s : State) : Out := s.storeExternal (s.eaX rA rB) 4 (s.getGpr rS).toNat
/-- stfdepx (R552). -/
def execStfdepx (frS rA rB : BitVec 5) (s : State) : Out :=
  s.supervisorOnly (s.storeFp Access.fpStore.external (s.eaX rA rB) 8 (s.getFpr frS).toNat)

end Sys2Proof.Machine
end

