-- ==== Sys2Proof/Machine/Logical.lean ====
section
/-! DEFINITION. Integer logical, rotate and shift (40_integer.md R428 to R451). The target is rA, the source rS. -/

namespace Sys2Proof.Machine

/-! ### Shared operations -/

/-- The end of a logical instruction: the result, then CR0. -/
def State.logical (rA : BitVec 5) (res : Word) (rc : Bool) (s : State) : Out := ((s.setGpr rA res).record rc res).finish

/-- A shift amount: six bits. -/
def shiftAmount (w : Word) : Nat := (w.setWidth 6).toNat

/-- CA of an algebraic right shift: the source is negative and a 1 is shifted out (R450). -/
def shiftCa (v : Word) (n : Nat) : Bool := v.msb && (v.sshiftRight n) <<< n != v

/-- The end of an algebraic right shift. -/
def State.shiftAlgebraic (rA : BitVec 5) (v : Word) (n : Nat) (rc : Bool) (s : State) : Out :=
  (s.setCa (shiftCa v n)).logical rA (v.sshiftRight n) rc

/-- The number of leading zeros. -/
def leadingZeros (v : Word) : Nat := ((List.range 32).takeWhile fun i => !v.getLsbD (31 - i)).length

/-! ### Meanings -/

/-- andi. (R428). -/
def execAndiDot (rS rA : BitVec 5) (uimm : BitVec 16) (s : State) : Out :=
  s.logical rA (s.getGpr rS &&& zext uimm) true

/-- andis. (R429). -/
def execAndisDot (rS rA : BitVec 5) (uimm : BitVec 16) (s : State) : Out :=
  s.logical rA (s.getGpr rS &&& upper uimm) true

/-- ori (R430). -/
def execOri (rS rA : BitVec 5) (uimm : BitVec 16) (s : State) : Out := s.logical rA (s.getGpr rS ||| zext uimm) false

/-- oris (R431). -/
def execOris (rS rA : BitVec 5) (uimm : BitVec 16) (s : State) : Out := s.logical rA (s.getGpr rS ||| upper uimm) false

/-- xori (R432). -/
def execXori (rS rA : BitVec 5) (uimm : BitVec 16) (s : State) : Out := s.logical rA (s.getGpr rS ^^^ zext uimm) false

/-- xoris (R433). -/
def execXoris (rS rA : BitVec 5) (uimm : BitVec 16) (s : State) : Out :=
  s.logical rA (s.getGpr rS ^^^ upper uimm) false

/-- and (R434). -/
def execAnd (rS rA rB : BitVec 5) (rc : Bool) (s : State) : Out := s.logical rA (s.getGpr rS &&& s.getGpr rB) rc

/-- andc (R435). -/
def execAndc (rS rA rB : BitVec 5) (rc : Bool) (s : State) : Out := s.logical rA (s.getGpr rS &&& ~~~s.getGpr rB) rc

/-- or (R436). -/
def execOr (rS rA rB : BitVec 5) (rc : Bool) (s : State) : Out := s.logical rA (s.getGpr rS ||| s.getGpr rB) rc

/-- orc (R437). -/
def execOrc (rS rA rB : BitVec 5) (rc : Bool) (s : State) : Out := s.logical rA (s.getGpr rS ||| ~~~s.getGpr rB) rc

/-- xor (R438). -/
def execXor (rS rA rB : BitVec 5) (rc : Bool) (s : State) : Out := s.logical rA (s.getGpr rS ^^^ s.getGpr rB) rc

/-- nand (R439). -/
def execNand (rS rA rB : BitVec 5) (rc : Bool) (s : State) : Out :=
  s.logical rA (~~~(s.getGpr rS &&& s.getGpr rB)) rc

/-- nor (R440). -/
def execNor (rS rA rB : BitVec 5) (rc : Bool) (s : State) : Out :=
  s.logical rA (~~~(s.getGpr rS ||| s.getGpr rB)) rc

/-- eqv (R441). -/
def execEqv (rS rA rB : BitVec 5) (rc : Bool) (s : State) : Out :=
  s.logical rA (~~~(s.getGpr rS ^^^ s.getGpr rB)) rc

/-- extsb (R442). -/
def execExtsb (rS rA : BitVec 5) (rc : Bool) (s : State) : Out :=
  s.logical rA (((s.getGpr rS).setWidth 8).signExtend 32) rc

/-- extsh (R443). -/
def execExtsh (rS rA : BitVec 5) (rc : Bool) (s : State) : Out :=
  s.logical rA (((s.getGpr rS).setWidth 16).signExtend 32) rc

/-- cntlzw (R444). -/
def execCntlzw (rS rA : BitVec 5) (rc : Bool) (s : State) : Out :=
  s.logical rA (BitVec.ofNat 32 (leadingZeros (s.getGpr rS))) rc

/-- rlwimi (R445). -/
def execRlwimi (rS rA sh mb me : BitVec 5) (rc : Bool) (s : State) : Out :=
  s.logical rA (mix (s.getGpr rA) ((s.getGpr rS).rotateLeft sh.toNat) (maskOf mb me)) rc

/-- rlwinm (R446). -/
def execRlwinm (rS rA sh mb me : BitVec 5) (rc : Bool) (s : State) : Out :=
  s.logical rA ((s.getGpr rS).rotateLeft sh.toNat &&& maskOf mb me) rc

/-- rlwnm (R447). -/
def execRlwnm (rS rA rB mb me : BitVec 5) (rc : Bool) (s : State) : Out :=
  s.logical rA ((s.getGpr rS).rotateLeft ((s.getGpr rB).setWidth 5).toNat &&& maskOf mb me) rc

/-- slw (R448). -/
def execSlw (rS rA rB : BitVec 5) (rc : Bool) (s : State) : Out :=
  s.logical rA (s.getGpr rS <<< shiftAmount (s.getGpr rB)) rc

/-- srw (R449). -/
def execSrw (rS rA rB : BitVec 5) (rc : Bool) (s : State) : Out :=
  s.logical rA (s.getGpr rS >>> shiftAmount (s.getGpr rB)) rc

/-- sraw (R450). -/
def execSraw (rS rA rB : BitVec 5) (rc : Bool) (s : State) : Out :=
  s.shiftAlgebraic rA (s.getGpr rS) (shiftAmount (s.getGpr rB)) rc

/-- srawi (R451). -/
def execSrawi (rS rA sh : BitVec 5) (rc : Bool) (s : State) : Out :=
  s.shiftAlgebraic rA (s.getGpr rS) sh.toNat rc

end Sys2Proof.Machine
end

