-- ==== Sys2Proof/Machine/Spr.lean ====
section
/-! DEFINITION. The special-purpose registers: the map of SPR numbers, who may access each, the guest mapping, the value
that each reads and what a write leaves in it; mfspr, mtspr, mftb (10 R49, R50, R60; 43 R1035 to R1037). -/

namespace Sys2Proof.Machine

/-- The registers that an SPR number names. sprg3User is SPR 259 (10 R50). -/
inductive Spr where
  | xer | lr | ctr | dec | srr0 | srr1 | pid | decar | csrr0 | csrr1 | dear | esr | ivpr | usprg0
  | sprg3User
  | sprg (n : Fin 10)
  | gsprg (n : Fin 4)
  | tbl | tbu | pir | pvr | dbsr | dbsrwr | epcr | dbcr0 | dbcr1 | dbcr2 | dbcr4 | msrp | iac1 | iac2 | dac1 | dac2
  | tsr | lpidr | tcr
  | mas0 | mas1 | mas2 | mas3 | mas4 | mas5 | mas6 | mas7 | mas8
  | gsrr0 | gsrr1 | gepr | gdear | gpir | gesr
  | ivor (n : Fin 23)
  | givor (n : Fin 6)
  | givpr | l1cfg0 | l1cfg1 | npidr | l2cfg0 | atbl | atbu | mcaru | mcsrr0 | mcsrr1 | mcsr | mcar | dsrr0 | dsrr1
  | ddam | l1csr2 | tlb0cfg | tlb1cfg | cdcsr0 | epr
  | l2errinten | l2errattr | l2erraddr | l2erreaddr | l2errctl | l2errdis
  | eplc | epsc | devent | nspd | nspc | l2errinjhi | l2errinjlo | l2errinjctl | l2captdatahi | l2captdatalo
  | l2captecc | l2errdet | hid0 | l1csr0 | l1csr1 | mmucsr0 | bucsr | mmucfg | l2csr0 | l2csr1 | svr
  deriving DecidableEq, Repr

/-- Who may access a register. guestRead: the guest supervisor reads, only the hypervisor writes (61 R690). -/
inductive SprClass where
  | user
  | guest
  | guestRead
  | hypervisor
  deriving DecidableEq, Repr

/-- A row of the SPR map. -/
structure SprRow where
  num      : Nat
  reg      : Spr
  cls      : SprClass
  readable : Bool
  writable : Bool
  deriving DecidableEq, Repr

def SprRow.rw (num : Nat) (reg : Spr) (cls : SprClass) : SprRow := ⟨num, reg, cls, true, true⟩
def SprRow.ro (num : Nat) (reg : Spr) (cls : SprClass) : SprRow := ⟨num, reg, cls, true, false⟩
def SprRow.wo (num : Nat) (reg : Spr) (cls : SprClass) : SprRow := ⟨num, reg, cls, false, true⟩

/-- The rows of the user class. -/
def sprUser : List SprRow :=
  [ .rw 1 .xer .user, .rw 8 .lr .user, .rw 9 .ctr .user, .rw 256 .usprg0 .user, .ro 259 .sprg3User .user,
    .ro 260 (.sprg 4) .user, .ro 261 (.sprg 5) .user, .ro 262 (.sprg 6) .user, .ro 263 (.sprg 7) .user,
    .ro 268 .tbl .user, .ro 269 .tbu .user, .ro 515 .l1cfg0 .user, .ro 516 .l1cfg1 .user, .rw 517 .npidr .user,
    .ro 519 .l2cfg0 .user, .ro 526 .atbl .user, .ro 527 .atbu .user, .rw 576 .ddam .user, .rw 975 .devent .user ]

/-- The rows of the guest supervisor class. -/
def sprGuest : List SprRow :=
  [ .rw 26 .srr0 .guest, .rw 27 .srr1 .guest, .rw 48 .pid .guest, .rw 61 .dear .guest, .rw 62 .esr .guest,
    .rw 272 (.sprg 0) .guest, .rw 273 (.sprg 1) .guest, .rw 274 (.sprg 2) .guest, .rw 275 (.sprg 3) .guest,
    .rw 276 (.sprg 4) .guest, .rw 277 (.sprg 5) .guest, .rw 278 (.sprg 6) .guest, .rw 279 (.sprg 7) .guest,
    .rw 286 .pir .guestRead, .ro 287 .pvr .guest, .rw 368 (.gsprg 0) .guest, .rw 369 (.gsprg 1) .guest,
    .rw 370 (.gsprg 2) .guest, .rw 371 (.gsprg 3) .guest, .rw 378 .gsrr0 .guest, .rw 379 .gsrr1 .guest,
    .rw 380 .gepr .guest, .rw 381 .gdear .guest, .rw 382 .gpir .guestRead, .rw 383 .gesr .guest,
    .rw 605 (.sprg 9) .guest, .rw 624 .mas0 .guest, .rw 625 .mas1 .guest, .rw 626 .mas2 .guest, .rw 627 .mas3 .guest,
    .rw 628 .mas4 .guest, .rw 630 .mas6 .guest, .ro 702 .epr .guest, .rw 944 .mas7 .guest, .rw 947 .eplc .guest,
    .rw 948 .epsc .guest, .ro 1023 .svr .guest ]

/-- The rows of the hypervisor class up to the vectors; the guest vectors may be read by the guest (61 R690). -/
def sprVectors : List SprRow :=
  [ .rw 63 .ivpr .hypervisor, .rw 400 (.ivor 0) .hypervisor, .rw 401 (.ivor 1) .hypervisor,
    .rw 402 (.ivor 2) .hypervisor, .rw 403 (.ivor 3) .hypervisor, .rw 404 (.ivor 4) .hypervisor,
    .rw 405 (.ivor 5) .hypervisor, .rw 406 (.ivor 6) .hypervisor, .rw 407 (.ivor 7) .hypervisor,
    .rw 408 (.ivor 8) .hypervisor, .rw 409 (.ivor 9) .hypervisor, .rw 410 (.ivor 10) .hypervisor,
    .rw 411 (.ivor 11) .hypervisor, .rw 412 (.ivor 12) .hypervisor, .rw 413 (.ivor 13) .hypervisor,
    .rw 414 (.ivor 14) .hypervisor, .rw 415 (.ivor 15) .hypervisor, .rw 531 (.ivor 16) .hypervisor,
    .rw 532 (.ivor 17) .hypervisor, .rw 533 (.ivor 18) .hypervisor, .rw 432 (.ivor 19) .hypervisor,
    .rw 433 (.ivor 20) .hypervisor, .rw 434 (.ivor 21) .hypervisor, .rw 435 (.ivor 22) .hypervisor,
    .rw 440 (.givor 0) .guestRead, .rw 441 (.givor 1) .guestRead, .rw 442 (.givor 2) .guestRead,
    .rw 443 (.givor 3) .guestRead, .rw 444 (.givor 4) .guestRead, .rw 445 (.givor 5) .guestRead,
    .rw 447 .givpr .guestRead ]

/-- The other rows of the hypervisor class. -/
def sprHypervisor : List SprRow :=
  [ .rw 22 .dec .hypervisor, .rw 54 .decar .hypervisor, .rw 58 .csrr0 .hypervisor, .rw 59 .csrr1 .hypervisor,
    .rw 284 .tbl .hypervisor, .rw 285 .tbu .hypervisor, .rw 304 .dbsr .hypervisor, .wo 306 .dbsrwr .hypervisor,
    .rw 307 .epcr .hypervisor, .rw 308 .dbcr0 .hypervisor, .rw 309 .dbcr1 .hypervisor, .rw 310 .dbcr2 .hypervisor,
    .rw 311 .msrp .hypervisor, .rw 312 .iac1 .hypervisor, .rw 313 .iac2 .hypervisor, .rw 316 .dac1 .hypervisor,
    .rw 317 .dac2 .hypervisor, .rw 336 .tsr .hypervisor, .rw 338 .lpidr .hypervisor, .rw 339 .mas5 .hypervisor,
    .rw 340 .tcr .hypervisor, .rw 341 .mas8 .hypervisor, .rw 563 .dbcr4 .hypervisor, .ro 569 .mcaru .hypervisor,
    .rw 570 .mcsrr0 .hypervisor, .rw 571 .mcsrr1 .hypervisor, .rw 572 .mcsr .hypervisor, .ro 573 .mcar .hypervisor,
    .rw 574 .dsrr0 .hypervisor, .rw 575 .dsrr1 .hypervisor, .rw 604 (.sprg 8) .hypervisor, .rw 606 .l1csr2 .hypervisor,
    .ro 688 .tlb0cfg .hypervisor, .ro 689 .tlb1cfg .hypervisor, .rw 696 .cdcsr0 .hypervisor,
    .rw 720 .l2errinten .hypervisor, .rw 721 .l2errattr .hypervisor, .rw 722 .l2erraddr .hypervisor,
    .rw 723 .l2erreaddr .hypervisor, .rw 724 .l2errctl .hypervisor, .rw 725 .l2errdis .hypervisor,
    .rw 983 .nspd .hypervisor, .rw 984 .nspc .hypervisor, .rw 985 .l2errinjhi .hypervisor,
    .rw 986 .l2errinjlo .hypervisor, .rw 987 .l2errinjctl .hypervisor, .rw 988 .l2captdatahi .hypervisor,
    .rw 989 .l2captdatalo .hypervisor, .rw 990 .l2captecc .hypervisor, .rw 991 .l2errdet .hypervisor,
    .rw 1008 .hid0 .hypervisor, .rw 1010 .l1csr0 .hypervisor, .rw 1011 .l1csr1 .hypervisor,
    .rw 1012 .mmucsr0 .hypervisor, .rw 1013 .bucsr .hypervisor, .ro 1015 .mmucfg .hypervisor,
    .rw 1017 .l2csr0 .hypervisor, .rw 1018 .l2csr1 .hypervisor ]

/-- The SPR map (10 R60). NIA, SPR 559, is not in it: no instruction of the stream reaches it (10 R52). -/
def sprTable : List SprRow := sprUser ++ sprGuest ++ sprVectors ++ sprHypervisor

/-- The row of an SPR number. -/
def sprRow (n : BitVec 10) : Option SprRow := sprTable.find? fun r => r.num == n.toNat

/-- What the access rules answer (10 R49). -/
inductive SprAccess where
  | illegal
  | privileged
  | hvPrivilege
  | ok (r : Spr)
  deriving DecidableEq, Repr

/-- The register that the guest mapping puts in the place of another (10 R50). -/
def State.guestMapped (s : State) (r : Spr) : Spr :=
  if !s.gs then r
  else
    match r with
    | .sprg3User => .gsprg 3
    | .srr0 => if s.pr then r else .gsrr0
    | .srr1 => if s.pr then r else .gsrr1
    | .epr => if s.pr then r else .gepr
    | .esr => if s.pr then r else .gesr
    | .dear => if s.pr then r else .gdear
    | .pir => if s.pr then r else .gpir
    | .sprg 0 => if s.pr then r else .gsprg 0
    | .sprg 1 => if s.pr then r else .gsprg 1
    | .sprg 2 => if s.pr then r else .gsprg 2
    | .sprg 3 => if s.pr then r else .gsprg 3
    | _ => r

/-- Only the hypervisor may make the access. -/
def SprClass.hvOnly (write : Bool) : SprClass → Bool
  | .user | .guest => false
  | .guestRead => write
  | .hypervisor => true

/-- The outcome of an SPR access (10 R49). The wrong direction is illegal whatever MSR[GS,PR] are, a user-state write of
PVR, SVR or SPR 259 to 263 too, where 11 R118 and R140 name the privileged exception (log 43). -/
def State.sprAccess (s : State) (n : BitVec 10) (write : Bool) : SprAccess :=
  match sprRow n with
  | none => .illegal
  | some r =>
    if (if write then r.writable else r.readable) = false then .illegal
    else if r.cls ≠ .user ∧ s.pr = true then .privileged
    else if r.cls.hvOnly write ∧ s.gs = true then .hvPrivilege
    else .ok (s.guestMapped r.reg)

/-! ### Reading -/

/-- The Nexus register that NSPC[INDX] selects (14 R261, R265). -/
def Debug.nexus (d : Debug) : Option Word :=
  match d.nspc.toNat with
  | 0x408 => some d.dc1
  | 0x40C => some d.dc2
  | 0x414 => some d.dc4
  | 0x42C => some d.wt1
  | 0x458 => some d.wmsk
  | 0x45C => some d.ovcr
  | _ => none

/-- The value that a register reads. DDAM reads as 0 (14 R263), and so does NSPD where NSPC selects no Nexus register
(U11). -/
def State.sprValue (s : State) (r : Spr) : Word :=
  match r with
  | .xer => s.xer
  | .lr => s.lr
  | .ctr => s.ctr
  | .dec => s.tim.dec
  | .srr0 => s.int.srr0
  | .srr1 => s.int.srr1
  | .pid => s.mmu.pid
  | .decar => s.tim.decar
  | .csrr0 => s.int.csrr0
  | .csrr1 => s.int.csrr1
  | .dear => s.int.dear
  | .esr => s.int.esr
  | .ivpr => s.int.ivpr
  | .usprg0 => s.sprgs.usprg0
  | .sprg3User => s.sprgs.sprg.get 3
  | .sprg n => s.sprgs.sprg.get n
  | .gsprg n => s.sprgs.gsprg.get n
  | .tbl => s.tim.tb.setWidth 32
  | .tbu => s.tim.tb.extractLsb' 32 32
  | .pir => s.ctl.pir
  | .pvr => s.ctl.pvr
  | .dbsr | .dbsrwr => s.dbg.dbsr
  | .epcr => s.ctl.epcr
  | .dbcr0 => s.dbcr0
  | .dbcr1 => s.dbg.dbcr1
  | .dbcr2 => s.dbg.dbcr2
  | .dbcr4 => s.dbg.dbcr4
  | .msrp => s.ctl.msrp
  | .iac1 => s.dbg.iac1
  | .iac2 => s.dbg.iac2
  | .dac1 => s.dbg.dac1
  | .dac2 => s.dbg.dac2
  | .tsr => s.tim.tsr
  | .lpidr => s.mmu.lpidr
  | .tcr => s.tim.tcr
  | .mas0 => s.mmu.mas0
  | .mas1 => s.mmu.mas1
  | .mas2 => s.mmu.mas2
  | .mas3 => s.mmu.mas3
  | .mas4 => s.mmu.mas4
  | .mas5 => s.mmu.mas5
  | .mas6 => s.mmu.mas6
  | .mas7 => s.mmu.mas7
  | .mas8 => s.mmu.mas8
  | .gsrr0 => s.int.gsrr0
  | .gsrr1 => s.int.gsrr1
  | .gepr => s.int.gepr
  | .gdear => s.int.gdear
  | .gpir => s.ctl.gpir
  | .gesr => s.int.gesr
  | .ivor n => s.int.ivor.get n
  | .givor n => s.int.givor.get n
  | .givpr => s.int.givpr
  | .l1cfg0 => s.cache.l1cfg0
  | .l1cfg1 => s.cache.l1cfg1
  | .npidr => s.dbg.npidr
  | .l2cfg0 => s.cache.l2cfg0
  | .atbl => s.tim.atb.setWidth 32
  | .atbu => s.tim.atb.extractLsb' 32 32
  | .mcaru => s.int.mcar.extractLsb' 32 32
  | .mcsrr0 => s.int.mcsrr0
  | .mcsrr1 => s.int.mcsrr1
  | .mcsr => s.int.mcsr
  | .mcar => s.int.mcar.setWidth 32
  | .dsrr0 => s.int.dsrr0
  | .dsrr1 => s.int.dsrr1
  | .ddam => 0
  | .nspd => s.dbg.nexus.getD 0
  | .l1csr2 => s.cache.l1csr2
  | .tlb0cfg => s.mmu.tlb0cfg
  | .tlb1cfg => s.mmu.tlb1cfg
  | .cdcsr0 => s.ctl.cdcsr0
  | .epr => s.int.epr
  | .l2errinten => s.cache.l2errinten
  | .l2errattr => s.cache.l2errattr
  | .l2erraddr => s.cache.l2erraddr
  | .l2erreaddr => s.cache.l2erreaddr
  | .l2errctl => s.cache.l2errctl
  | .l2errdis => s.cache.l2errdis
  | .eplc => s.mmu.eplc
  | .epsc => s.mmu.epsc
  | .devent => s.dbg.devent
  | .nspc => s.dbg.nspc
  | .l2errinjhi => s.cache.l2errinjhi
  | .l2errinjlo => s.cache.l2errinjlo
  | .l2errinjctl => s.cache.l2errinjctl
  | .l2captdatahi => s.cache.l2captdatahi
  | .l2captdatalo => s.cache.l2captdatalo
  | .l2captecc => s.cache.l2captecc
  | .l2errdet => s.cache.l2errdet
  | .hid0 => s.ctl.hid0
  | .l1csr0 => s.cache.l1csr0
  | .l1csr1 => s.cache.l1csr1
  | .mmucsr0 => s.mmu.mmucsr0
  | .bucsr => s.ctl.bucsr
  | .mmucfg => s.mmu.mmucfg
  | .l2csr0 => s.cache.l2csr0
  | .l2csr1 => s.cache.l2csr1
  | .svr => s.ctl.svr

/-! ### Writing -/

/-- L1CSR0: CEI needs CECE; CLFC and CFI clear the locks at once and read 0 (12 R180, D7, D8). -/
def Cache.writeL1csr0 (v : Word) (c : Cache) : Cache :=
  { c with
    l1csr0 := (v &&& 0x00010E69) ||| maskIf (bit v 47) (v &&& 0x00008000)
    lockD := if bit v 55 || bit v 62 then [] else c.lockD }

/-- L1CSR1 (12 R181). -/
def Cache.writeL1csr1 (v : Word) (c : Cache) : Cache :=
  { c with
    l1csr1 := (v &&& 0x00010E01) ||| maskIf (bit v 47) (v &&& 0x00008000)
    lockI := if bit v 55 || bit v 62 then [] else c.lockI }

/-- L1CSR2: a change of DCWS invalidates the data cache (12 R182). -/
def Cache.writeL1csr2 (v : Word) (c : Cache) : Cache :=
  { c with l1csr2 := v &&& 0x400000FF, lockD := if bit v 33 ≠ bit c.l1csr2 33 then [] else c.lockD }

/-- L2CSR0: L2FI and L2LFC read 0 at once, L2LFC clears the locks, L2FL stays set while the cache is not enabled
(12 R190). DESIGN CHOICE: the invalid L2REP = 01 is stored as any other value (log 95). -/
def Cache.writeL2csr0 (v : Word) (c : Cache) : Cache :=
  { c with
    l2csr0 := (v &&& 0xDC1130A0) ||| maskIf (!bit c.l2csr0 32) (v &&& 0x00000800)
    lockL2 := if bit v 53 then [] else c.lockL2 }

/-- MMUCSR0: flash invalidation of an array, complete at once (13 R222). -/
def State.writeMmucsr0 (v : Word) (s : State) : State :=
  let t := if bit v 61 then s.withMmu (·.invalidate0 fun _ => true) else s
  let u := if bit v 62 then t.withMmu (·.invalidate1 fun _ => true) else t
  if bit v 61 || bit v 62 then u.freeNv else u

/-- EPLC and EPSC: the guest leaves EGS and ELPID as they are (13 R247). -/
def State.writeExternal (s : State) (old v : Word) : Word :=
  if s.gs then (old &&& 0x203F0000) ||| (v &&& 0xC00000FF) else v &&& 0xE03F00FF

/-- DBCR0: EDM cannot be written, RST reads 0 and requests a reset (14 R251, D12). -/
def State.writeDbcr0 (v : Word) (s : State) : State :=
  { s with
    dbg := { s.dbg with dbcr0 := v &&& 0x4FCF8061 }
    log := { s.log with resetRequest := s.log.resetRequest || (bit v 34 && s.de && bit v 33) } }

/-- NSPD: the Nexus register that NSPC selects; another index names nothing to write (14 R261, R277, U11). -/
def Debug.writeNspd (v : Word) (d : Debug) : Debug :=
  match d.nspc.toNat with
  | 0x408 => { d with dc1 := v &&& 0x01007F2F }
  | 0x40C => { d with dc2 := v }
  | 0x414 => { d with dc4 := v }
  | 0x42C => { d with wt1 := v &&& 0xFFFF0000 }
  | 0x458 => { d with wmsk := v &&& 0x00003FFF }
  | 0x45C => { d with ovcr := v &&& 0x302F3001 }
  | _ => d

/-- The debug registers that software cannot write in external debug mode (14 R250 c). -/
def Spr.debugOwned : Spr → Bool
  | .dbcr0 | .dbcr1 | .dbcr2 | .dbcr4 | .dbsr | .dbsrwr | .iac1 | .iac2 | .dac1 | .dac2 | .nspc | .nspd => true
  | _ => false

/-- A write of a debug register. -/
def State.writeDebugSpr (r : Spr) (v : Word) (s : State) : State :=
  match r with
  | .dbcr0 => s.writeDbcr0 v
  | .dbcr1 => s.withDbg ({ · with dbcr1 := v &&& 0xFFC00000 })
  | .dbcr2 => s.withDbg ({ · with dbcr2 := v &&& 0xFFF00000 })
  | .dbcr4 => s.withDbg ({ · with dbcr4 := v &&& 0x0000FF00 })
  | .dbsr => s.setDbsr (s.dbg.dbsr &&& ~~~v)
  | .dbsrwr => s.setDbsr (v &&& 0xFFCF8060)
  | .iac1 => s.withDbg ({ · with iac1 := v })
  | .iac2 => s.withDbg ({ · with iac2 := v })
  | .dac1 => s.withDbg ({ · with dac1 := v })
  | .dac2 => s.withDbg ({ · with dac2 := v })
  | .nspc => s.withDbg ({ · with nspc := v &&& 0x00000FFF })
  | .nspd => s.withDbg (·.writeNspd v)
  | _ => s

/-- A write of an interrupt register (11 R125 to R130, R136). -/
def IntRegs.write (r : Spr) (v : Word) (i : IntRegs) : IntRegs :=
  match r with
  | .srr0 => { i with srr0 := v }
  | .srr1 => { i with srr1 := v }
  | .gsrr0 => { i with gsrr0 := v }
  | .gsrr1 => { i with gsrr1 := v }
  | .csrr0 => { i with csrr0 := v }
  | .csrr1 => { i with csrr1 := v }
  | .dsrr0 => { i with dsrr0 := v }
  | .dsrr1 => { i with dsrr1 := v }
  | .mcsrr0 => { i with mcsrr0 := v }
  | .mcsrr1 => { i with mcsrr1 := v }
  | .esr => { i with esr := v &&& 0x0FB30040 }
  | .gesr => { i with gesr := v &&& 0x0FB30040 }
  | .dear => { i with dear := v }
  | .gdear => { i with gdear := v }
  | .gepr => { i with gepr := v }
  | .mcsr => { i with mcsr := i.mcsr &&& ~~~v }
  | .ivpr => { i with ivpr := v &&& 0xFFFF0000 }
  | .givpr => { i with givpr := v &&& 0xFFFF0000 }
  | .ivor n => { i with ivor := i.ivor.set n.val (v &&& 0x0000FFF0) n.isLt }
  | .givor n => { i with givor := i.givor.set n.val (v &&& 0x0000FFF0) n.isLt }
  | _ => i

/-- A write of a memory management register, MMUCSR0, EPLC and EPSC apart (13 R220, R221, R235 to R243). -/
def Mmu.write (r : Spr) (v : Word) (m : Mmu) : Mmu :=
  match r with
  | .pid => { m with pid := v &&& 0x000000FF }
  | .lpidr => { m with lpidr := v &&& 0x0000003F }
  | .mas0 => { m with mas0 := v &&& 0x103F0003 }
  | .mas1 => { m with mas1 := v &&& 0xC0FF1F00 }
  | .mas2 => { m with mas2 := v &&& 0xFFFFF07F }
  | .mas3 => { m with mas3 := v &&& 0xFFFFF3FF }
  | .mas4 => { m with mas4 := v &&& 0x10000F7F }
  | .mas5 => { m with mas5 := v &&& 0x8000003F }
  | .mas6 => { m with mas6 := v &&& 0x00FF0001 }
  | .mas7 => { m with mas7 := v &&& 0x0000000F }
  | .mas8 => { m with mas8 := v &&& 0xC000003F }
  | _ => m

/-- A write of a cache register (12 R180 to R207). -/
def Cache.write (r : Spr) (v : Word) (c : Cache) : Cache :=
  match r with
  | .l1csr0 => c.writeL1csr0 v
  | .l1csr1 => c.writeL1csr1 v
  | .l1csr2 => c.writeL1csr2 v
  | .l2csr0 => c.writeL2csr0 v
  | .l2csr1 => { c with l2csr1 := v &&& 0xBF0000FF }
  | .l2errinten => { c with l2errinten := v &&& 0x0000009E }
  | .l2errdis => { c with l2errdis := v &&& 0x0000009E }
  | .l2errdet => { c with l2errdet := c.l2errdet &&& ~~~v }
  | .l2errattr => { c with l2errattr := v &&& 0x701F3001 }
  | .l2erraddr => { c with l2erraddr := v }
  | .l2erreaddr => { c with l2erreaddr := v &&& 0x0000000F }
  | .l2errctl => { c with l2errctl := v &&& 0x00FF00FF }
  | .l2errinjhi => { c with l2errinjhi := v }
  | .l2errinjlo => { c with l2errinjlo := v }
  | .l2errinjctl => { c with l2errinjctl := v &&& 0x000103FF }
  | .l2captdatahi => { c with l2captdatahi := v }
  | .l2captdatalo => { c with l2captdatalo := v }
  | .l2captecc => { c with l2captecc := v }
  | _ => c

/-- A write of a register, after the access rules: the fields that exist take the value written; the rest read 0
(00 R12). CDCSR0 ignores writes (11 R150); registers that no mtspr reaches stay. -/
def State.writeSpr (r : Spr) (v : Word) (s : State) : State :=
  match r with
  | .xer => s.setXer (v &&& 0xE000007F)
  | .lr => s.setLr v
  | .ctr => s.setCtr v
  | .usprg0 => { s with sprgs := { s.sprgs with usprg0 := v } }
  | .sprg n => { s with sprgs := { s.sprgs with sprg := s.sprgs.sprg.set n.val v n.isLt } }
  | .gsprg n => { s with sprgs := { s.sprgs with gsprg := s.sprgs.gsprg.set n.val v n.isLt } }
  | .dec => s.withTim ({ · with dec := v })
  | .decar => s.withTim ({ · with decar := v })
  | .tcr => s.withTim (·.writeTcr v)
  | .tsr => s.withTim (·.clearTsr v)
  | .tbl => s.setTb (s.tim.tb.extractLsb' 32 32 ++ v)
  | .tbu => s.setTb (v ++ s.tim.tb.setWidth 32)
  | .msrp => s.withCtl ({ · with msrp := v &&& 0x04000204 })
  | .epcr => s.withCtl ({ · with epcr := v &&& 0xFCC00000 })
  | .pir => s.withCtl ({ · with pir := v })
  | .gpir => s.withCtl ({ · with gpir := v })
  | .hid0 => s.withCtl ({ · with hid0 := v &&& 0xC00000D1 })
  | .bucsr => s.withCtl ({ · with bucsr := v &&& 0x00000001 })
  | .npidr => s.withDbg ({ · with npidr := v })
  | .ddam => s.withDbg ({ · with ddam := v })
  | .devent =>
    { s with dbg := { s.dbg with devent := v &&& 0xFF0000FF }, log := { s.log with devnt := v.setWidth 8 } }
  | .dbcr0 | .dbcr1 | .dbcr2 | .dbcr4 | .dbsr | .dbsrwr | .iac1 | .iac2 | .dac1 | .dac2 | .nspc | .nspd =>
    if s.edm then s else s.writeDebugSpr r v
  | .srr0 | .srr1 | .gsrr0 | .gsrr1 | .csrr0 | .csrr1 | .dsrr0 | .dsrr1 | .mcsrr0 | .mcsrr1 | .esr | .gesr | .dear
  | .gdear | .gepr | .mcsr | .ivpr | .givpr | .ivor _ | .givor _ => s.withInt (·.write r v)
  | .pid | .lpidr | .mas0 | .mas1 | .mas2 | .mas3 | .mas4 | .mas5 | .mas6 | .mas7 | .mas8 => s.withMmu (·.write r v)
  | .mmucsr0 => s.writeMmucsr0 v
  | .eplc => s.withMmu ({ · with eplc := s.writeExternal s.mmu.eplc v })
  | .epsc => s.withMmu ({ · with epsc := s.writeExternal s.mmu.epsc v })
  | .l1csr0 | .l1csr1 | .l1csr2 | .l2csr0 | .l2csr1 | .l2errinten | .l2errdis | .l2errdet | .l2errattr | .l2erraddr
  | .l2erreaddr | .l2errctl | .l2errinjhi | .l2errinjlo | .l2errinjctl | .l2captdatahi | .l2captdatalo | .l2captecc =>
    s.withCache (·.write r v)
  | .cdcsr0 | .sprg3User | .pvr | .svr | .l1cfg0 | .l1cfg1 | .l2cfg0 | .atbl | .atbu | .mcaru | .mcar | .tlb0cfg
  | .tlb1cfg | .epr | .mmucfg => s

/-! ### Meanings -/

/-- The end of an SPR access. -/
def State.onSpr (s : State) (n : BitVec 10) (write : Bool) (k : Spr → Out) : Out :=
  match s.sprAccess n write with
  | .illegal => s.illegal
  | .privileged => s.privileged
  | .hvPrivilege => s.hvPrivilege
  | .ok r => k r

/-- Read a special-purpose register into a general-purpose one. -/
def State.moveFromSpr (rD : BitVec 5) (n : BitVec 10) (s : State) : Out :=
  s.onSpr n false fun r => (s.setGpr rD (s.sprValue r)).finish

/-- mfspr (R1035). -/
def execMfspr (rD : BitVec 5) (spr : BitVec 10) (s : State) : Out := s.moveFromSpr rD spr

/-- mftb (R1037): as mfspr with the same number (D25). -/
def execMftb (rD : BitVec 5) (tbr : BitVec 10) (s : State) : Out := s.moveFromSpr rD tbr

/-- mtspr (R1036). -/
def execMtspr (rS : BitVec 5) (spr : BitVec 10) (s : State) : Out :=
  s.onSpr spr true fun r => (s.writeSpr r (s.getGpr rS)).finish

end Sys2Proof.Machine
end

