-- ==== Sys2Proof/Machine/Supervisor.lean ====
section
/-! DEFINITION. Supervisor instructions: the returns, the machine state register, messages, the halt of a debugger,
the performance monitor registers (45_supervisor.md; 14 R270, R271). -/

namespace Sys2Proof.Machine

/-! ### Returns (R1111 to R1117) -/

/-- A return after its debug event, which can take its place (63 R748, R750). -/
def State.returnAfter (event srr0 srr1 : Word) (s : State) : Out :=
  (s.debugBefore event s.de).andThen fun _ t => .next (t.returnTo srr0 srr1)

/-- Return through the guest pair. -/
def State.guestReturn (s : State) : Out := s.returnAfter (s.enabledBit 48 dbRet) s.int.gsrr0 s.int.gsrr1

/-- rfi (R1111): in guest supervisor state it is rfgi. -/
def execRfi (s : State) : Out :=
  s.supervisorOnly
    (if s.gs then s.guestReturn else s.returnAfter (s.enabledBit 48 dbRet) s.int.srr0 s.int.srr1)

/-- rfgi (R1112, D28). -/
def execRfgi (s : State) : Out := s.supervisorOnly s.guestReturn

/-- rfci (R1113). -/
def execRfci (s : State) : Out :=
  s.hypervisorOnly (s.returnAfter (s.enabledBit 58 dbCret) s.int.csrr0 s.int.csrr1)

/-- rfdi (R1114). -/
def execRfdi (s : State) : Out := s.hypervisorOnly (.next (s.returnTo s.int.dsrr0 s.int.dsrr1))

/-- rfmci (R1115). -/
def execRfmci (s : State) : Out := s.hypervisorOnly (.next (s.returnTo s.int.mcsrr0 s.int.mcsrr1))

/-! ### The machine state register (R1120 to R1123) -/

/-- MSR[EE] takes a value. -/
def State.setEe (v : Bool) (s : State) : State := { s with msr := (s.msr &&& 0xFFFF7FFF) ||| maskIf v 0x00008000 }

/-- mfmsr (R1120). -/
def execMfmsr (rD : BitVec 5) (s : State) : Out := s.supervisorOnly (s.setGpr rD s.msr).finish

/-- mtmsr (R1121). -/
def execMtmsr (rS : BitVec 5) (s : State) : Out := s.supervisorOnly (s.writeMsr (s.getGpr rS)).finish

/-- wrtee (R1122). -/
def execWrtee (rS : BitVec 5) (s : State) : Out := s.supervisorOnly (s.setEe (bit (s.getGpr rS) 48)).finish

/-- wrteei (R1123). -/
def execWrteei (e : Bool) (s : State) : Out := s.supervisorOnly (s.setEe e).finish

/-! ### Messages (R1139 to R1141) -/

/-- msgsnd (R1140): the message leaves the core, which filters it like every other (D29). -/
def execMsgsnd (rB : BitVec 5) (s : State) : Out :=
  s.hypervisorOnly
    ((s.receive (s.getGpr rB)).setLog { s.log with msgOut := some (s.getGpr rB), stores := s.log.stores + 1 }).finish

/-- msgclr (R1141). -/
def execMsgclr (rB : BitVec 5) (s : State) : Out :=
  s.hypervisorOnly (s.setDbell (msgType (s.getGpr rB)) false).finish

/-! ### Debugger notify halt (R1150) -/

/-- Halt for dnh: PRSR[DNH_HALT] and PRSR[DNHM]; the next instruction stays dnh itself. DESIGN CHOICE, unsafe: a dnh that
halts does not complete (log 97). -/
def State.dnhHalt (dui : BitVec 5) (s : State) : State :=
  { s with
    dbg := { s.dbg with prsr := (s.dbg.prsr &&& 0xFFFFFFE0) ||| 0x10000000 ||| dui.setWidth 32 }
    hid := { s.hid with dbgHalted := true } }

/-- dnh (R1150): DUIS is not kept. -/
def execDnh (dui : BitVec 5) (_duis : BitVec 10) (s : State) : Out :=
  if bit s.dbg.edbcr0 33 then .next (s.dnhHalt dui) else s.illegal

/-! ### Performance monitor registers (R1160, R1161; 14 R266 to R271) -/

/-- The registers that a PMR number names. -/
inductive Pmr where
  | pmc (n : Fin 4)
  | pmlca (n : Fin 4)
  | pmlcb (n : Fin 4)
  | pmgc0
  deriving DecidableEq, Repr

/-- The register of a supervisor number. -/
def pmrOf (n : Nat) : Option Pmr :=
  if n = 400 then some .pmgc0
  else
    match n / 4 with
    | 4 => some (.pmc (Fin.ofNat 4 n))
    | 36 => some (.pmlca (Fin.ofNat 4 n))
    | 68 => some (.pmlcb (Fin.ofNat 4 n))
    | _ => none

/-- The register of a number and whether it is named by its user alias, which is 16 less (14 R270). -/
def pmrRow (n : BitVec 10) : Option (Pmr × Bool) :=
  match pmrOf n.toNat with
  | some r => some (r, false)
  | none => (pmrOf (n.toNat + 16)).map (·, true)

/-- The value that a register reads; PMLCbn[PMCC] shows the trigger state (14 R268). -/
def PerfMon.read (p : PerfMon) : Pmr → Word
  | .pmc n => p.c n
  | .pmlca n => p.a n
  | .pmlcb n => p.b n ||| maskIf (p.trigger n) 0x00800000
  | .pmgc0 => p.pmgc0

/-- A write of a register: its fields take the value written. -/
def PerfMon.write (r : Pmr) (v : Word) (p : PerfMon) : PerfMon :=
  match r with
  | .pmc n => { p with pmc := p.pmc.set n.val v n.isLt }
  | .pmlca n => { p with pmlca := p.pmlca.set n.val (v &&& 0xFCFF0003) n.isLt }
  | .pmlcb n => { p with pmlcb := p.pmlcb.set n.val (v &&& 0xFF00E73F) n.isLt }
  | .pmgc0 => { p with pmgc0 := v &&& 0xE0001900 }

/-- MSRP[PMMP] keeps the registers from the guest (14 R271 step 4). -/
def State.pmProtected (s : State) : Bool := bit s.ctl.msrp 61 && s.gs

/-- mfpmr (R1160). -/
def execMfpmr (rD : BitVec 5) (pmrn : BitVec 10) (s : State) : Out :=
  match pmrRow pmrn with
  | none => s.illegal
  | some (r, user) =>
    if !user && s.pr then s.privileged
    else if s.pmProtected then if s.pr then (s.setGpr rD 0).finish else s.hvPrivilege
    else (s.setGpr rD (s.pm.read r)).finish

/-- mtpmr (R1161). -/
def execMtpmr (rS : BitVec 5) (pmrn : BitVec 10) (s : State) : Out :=
  match pmrRow pmrn with
  | none => s.illegal
  | some (_, true) => s.illegal
  | some (r, false) =>
    if s.pr then s.privileged
    else if s.pmProtected then s.hvPrivilege
    else { s with pm := s.pm.write r (s.getGpr rS) }.finish

end Sys2Proof.Machine
end

