-- ==== Sys2Proof/Machine/Sync.lean ====
section
/-! DEFINITION. Synchronization and the reservation instructions (44 R1060 to R1067). -/

namespace Sys2Proof.Machine

/-- isync (R1060): nothing is fetched ahead, so nothing is discarded. -/
def execIsync (s : State) : Out := s.finish

/-- A sync 0 ends the window in which CT = 2 and CT = 0 operations on one line are unsynchronized (R1084 f). -/
def State.synchronize (l : BitVec 2) (s : State) : State :=
  if l = 1 then s else { s with cache := { s.cache with recent := [] } }

/-- sync (R1061): storage accesses are performed in program order already; L above 1 is as L = 0 (D26). -/
def execSync (l : BitVec 2) (s : State) : Out := ((s.synchronize l).noteStores 1).finish

/-- mbar (R1062, D16). -/
def execMbar (_mo : BitVec 5) (s : State) : Out := (s.noteStores 1).finish

/-- lwarx and stwcx. (R1065). -/
def Access.lwarx : Access := { Access.load with aligned := true, reserving := true }
def Access.stwcx : Access := { Access.store with aligned := true, reserving := true }

/-- The granule of the first byte of an access. -/
def Placed.granule (p : Placed) : BitVec 30 := granuleOf (p.bytes.headD 0)

/-- lwarx (R1066). -/
def execLwarx (rD rA rB : BitVec 5) (s : State) : Out :=
  (s.access .lwarx (s.eaX rA rB) 4).andThen fun p t =>
    ((((t.loadPlaced none p).2.setGpr rD (BitVec.ofNat 32 (t.loadPlaced none p).1)).setReserve
      (some { granule := p.granule, coherent := p.m })).noteLoads 1).finish

/-- The reservation is held for the granule of an access. -/
def State.reserved (s : State) (p : Placed) : Bool :=
  match s.hid.reserve with
  | some r => r.granule == p.granule
  | none => false

/-- The end of stwcx.: CR0 tells whether it stored, and no reservation is left. -/
def State.concludeStwcx (ok : Bool) (s : State) : Out :=
  ((((s.setCrField 0 (compareBits false false ok s.so)).setReserve none).setLog
    { s.log with stwcx := some ok }).noteStores 1).finish

/-- stwcx. (R1067): its exceptions come whether or not the reservation is held (D17). -/
def execStwcxDot (rS rA rB : BitVec 5) (s : State) : Out :=
  (s.reach .stwcx (s.eaX rA rB) 4).andThen fun p t =>
    (t.debugBefore (t.partEvents true (s.eaX rA rB) 4) t.de).andThen fun _ u =>
      if u.reserved p then (u.storePlaced none p (s.getGpr rS).toNat).concludeStwcx true
      else u.concludeStwcx false

end Sys2Proof.Machine
end

