-- ==== Sys2Proof/Machine/Tlb.lean ====
section
/-! DEFINITION. The TLB instructions (21 R348 to R354; 45 R1130). -/

namespace Sys2Proof.Machine

/-- MAS0[NV] as a read of an entry leaves it (13 R244 columns b and d). -/
def Mmu.nvOf (m : Mmu) : TlbLoc → BitVec 2
  | .tlb0 set _ => m.nextVictim set
  | .tlb1 _ => 0

/-- MAS0 naming a place. -/
def Mmu.mas0At (m : Mmu) : TlbLoc → Word
  | .tlb0 set way => mas0Of false (way.setWidth 6) (m.nextVictim set)
  | .tlb1 n => mas0Of true n 0

/-- The MAS registers after tlbre (13 R244 column d). -/
def State.tlbRead (s : State) : Mmu :=
  { s.masFromEntry s.mmu.selected with
    mas0 := (s.mmu.mas0 &&& 0xFFFFFFFC) ||| (s.mmu.nvOf s.mmu.selected).setWidth 32 }

/-- The MAS registers after a tlbsx that hits (13 R244 column b). -/
def State.tlbFound (s : State) (l : TlbLoc) : Mmu := { s.masFromEntry l with mas0 := s.mmu.mas0At l }

/-- The arrays after tlbwe: the selected entry, and the next victim of its TLB0 set (R349, R352). -/
def Mmu.tlbWrite (m : Mmu) : Mmu :=
  match m.selected with
  | .tlb0 set way =>
    { m.setEntry (.tlb0 set way) m.entryFromMas with nv := m.nv.set set.toNat (m.mas0.setWidth 2) set.isLt }
  | .tlb1 n => m.setEntry (.tlb1 n) m.entryFromMas

/-- tlbre (R348). -/
def execTlbre (s : State) : Out := s.hypervisorOnly { s with mmu := s.tlbRead }.finish

/-- tlbwe (R349). -/
def execTlbwe (s : State) : Out := s.hypervisorOnly { s with mmu := s.mmu.tlbWrite }.finish

/-- tlbsx (R350): illegal unless rA is 0; a search that finds two entries is a multiple hit. DESIGN CHOICE, unsafe: its
error report sets MCSR[ST]; the table of 61 R653 has no row for tlbsx (log 52). -/
def execTlbsx (rA rB : BitVec 5) (s : State) : Out :=
  s.hypervisorOnly
    (if rA ≠ 0 then s.illegal
    else
      match s.mmu.matches s.searchCtx (s.eaX rA rB) with
      | [] => { s with mmu := s.missTemplate (s.eaX rA rB) false s.searchCtx.pid s.searchCtx.as }.finish
      | [l] => { s with mmu := s.tlbFound l }.finish
      | _ :: _ :: _ => s.multipleHit 0x00004000 (s.eaX rA rB))

/-- tlbilx (R351): the guest may execute it unless EPCR[DGTMI]; T = 2 selects nothing (U19). -/
def execTlbilx (t : BitVec 2) (rA rB : BitVec 5) (s : State) : Out :=
  s.supervisorOnly
    (if s.gs && bit s.ctl.epcr 40 then s.hvPrivilege
    else if t = 2 then (s.noteStores 1).finish
    else ({ s with mmu := s.mmu.tlbilx t (s.eaX rA rB) }.freeNv.noteStores 1).finish)

/-- tlbivax (R353). -/
def execTlbivax (rA rB : BitVec 5) (s : State) : Out :=
  s.hypervisorOnly
    ({ s with
        mmu := s.mmu.tlbivax (s.eaX rA rB) (s.mmu.mas5.setWidth 6) (bit s.mmu.mas5 32) }.freeNv.noteStores 1).finish

/-- tlbsync (R354). -/
def execTlbsync (s : State) : Out := s.hypervisorOnly s.finish

end Sys2Proof.Machine
end

