-- ==== Sys2Proof/Machine/Dispatch.lean ====
section
/-! DEFINITION. One arm for each instruction of spec/opcode_table.json, in the table's order. -/

namespace Sys2Proof.Machine

def exec (i : Instr) (s : State) : Host.Outcome State Fault Refusal :=
  match i with
  | .twi tO rA simm => Sys2Proof.Machine.execTwi tO rA simm s
  | .mulli rD rA simm => Sys2Proof.Machine.execMulli rD rA simm s
  | .subfic rD rA simm => Sys2Proof.Machine.execSubfic rD rA simm s
  | .cmpli crfD l rA uimm => Sys2Proof.Machine.execCmpli crfD l rA uimm s
  | .cmpi crfD l rA simm => Sys2Proof.Machine.execCmpi crfD l rA simm s
  | .addic rD rA simm => Sys2Proof.Machine.execAddic rD rA simm s
  | .addicDot rD rA simm => Sys2Proof.Machine.execAddicDot rD rA simm s
  | .addi rD rA simm => Sys2Proof.Machine.execAddi rD rA simm s
  | .addis rD rA simm => Sys2Proof.Machine.execAddis rD rA simm s
  | .bc bo bi bd aa lk => Sys2Proof.Machine.execBc bo bi bd aa lk s
  | .sc lev => Sys2Proof.Machine.execSc lev s
  | .b li aa lk => Sys2Proof.Machine.execB li aa lk s
  | .mcrf crfD crfS => Sys2Proof.Machine.execMcrf crfD crfS s
  | .bclr bo bi bh lk => Sys2Proof.Machine.execBclr bo bi bh lk s
  | .crnor crbD crbA crbB => Sys2Proof.Machine.execCrnor crbD crbA crbB s
  | .rfmci => Sys2Proof.Machine.execRfmci s
  | .rfdi => Sys2Proof.Machine.execRfdi s
  | .rfi => Sys2Proof.Machine.execRfi s
  | .rfci => Sys2Proof.Machine.execRfci s
  | .rfgi => Sys2Proof.Machine.execRfgi s
  | .crandc crbD crbA crbB => Sys2Proof.Machine.execCrandc crbD crbA crbB s
  | .isync => Sys2Proof.Machine.execIsync s
  | .crxor crbD crbA crbB => Sys2Proof.Machine.execCrxor crbD crbA crbB s
  | .dnh dui duis => Sys2Proof.Machine.execDnh dui duis s
  | .crnand crbD crbA crbB => Sys2Proof.Machine.execCrnand crbD crbA crbB s
  | .crand crbD crbA crbB => Sys2Proof.Machine.execCrand crbD crbA crbB s
  | .creqv crbD crbA crbB => Sys2Proof.Machine.execCreqv crbD crbA crbB s
  | .crorc crbD crbA crbB => Sys2Proof.Machine.execCrorc crbD crbA crbB s
  | .cror crbD crbA crbB => Sys2Proof.Machine.execCror crbD crbA crbB s
  | .bcctr bo bi bh lk => Sys2Proof.Machine.execBcctr bo bi bh lk s
  | .rlwimi rS rA sh mb me rc => Sys2Proof.Machine.execRlwimi rS rA sh mb me rc s
  | .rlwinm rS rA sh mb me rc => Sys2Proof.Machine.execRlwinm rS rA sh mb me rc s
  | .rlwnm rS rA rB mb me rc => Sys2Proof.Machine.execRlwnm rS rA rB mb me rc s
  | .ori rS rA uimm => Sys2Proof.Machine.execOri rS rA uimm s
  | .oris rS rA uimm => Sys2Proof.Machine.execOris rS rA uimm s
  | .xori rS rA uimm => Sys2Proof.Machine.execXori rS rA uimm s
  | .xoris rS rA uimm => Sys2Proof.Machine.execXoris rS rA uimm s
  | .andiDot rS rA uimm => Sys2Proof.Machine.execAndiDot rS rA uimm s
  | .andisDot rS rA uimm => Sys2Proof.Machine.execAndisDot rS rA uimm s
  | .cmp crfD l rA rB => Sys2Proof.Machine.execCmp crfD l rA rB s
  | .tw tO rA rB => Sys2Proof.Machine.execTw tO rA rB s
  | .subfc rD rA rB oe rc => Sys2Proof.Machine.execSubfc rD rA rB oe rc s
  | .addc rD rA rB oe rc => Sys2Proof.Machine.execAddc rD rA rB oe rc s
  | .mulhwu rD rA rB rc => Sys2Proof.Machine.execMulhwu rD rA rB rc s
  | .isel rD rA rB crbC => Sys2Proof.Machine.execIsel rD rA rB crbC s
  | .tlbilx t rA rB => Sys2Proof.Machine.execTlbilx t rA rB s
  | .mfcr rD => Sys2Proof.Machine.execMfcr rD s
  | .mfocrf rD crm => Sys2Proof.Machine.execMfocrf rD crm s
  | .lwarx rD rA rB => Sys2Proof.Machine.execLwarx rD rA rB s
  | .icbt ct rA rB => Sys2Proof.Machine.execIcbt ct rA rB s
  | .lwzx rD rA rB => Sys2Proof.Machine.execLwzx rD rA rB s
  | .slw rS rA rB rc => Sys2Proof.Machine.execSlw rS rA rB rc s
  | .cntlzw rS rA rc => Sys2Proof.Machine.execCntlzw rS rA rc s
  | .and rS rA rB rc => Sys2Proof.Machine.execAnd rS rA rB rc s
  | .lwepx rD rA rB => Sys2Proof.Machine.execLwepx rD rA rB s
  | .cmpl crfD l rA rB => Sys2Proof.Machine.execCmpl crfD l rA rB s
  | .subf rD rA rB oe rc => Sys2Proof.Machine.execSubf rD rA rB oe rc s
  | .dcbst rA rB => Sys2Proof.Machine.execDcbst rA rB s
  | .lwzux rD rA rB => Sys2Proof.Machine.execLwzux rD rA rB s
  | .andc rS rA rB rc => Sys2Proof.Machine.execAndc rS rA rB rc s
  | .wait wc => Sys2Proof.Machine.execWait wc s
  | .dcbstep rA rB => Sys2Proof.Machine.execDcbstep rA rB s
  | .mulhw rD rA rB rc => Sys2Proof.Machine.execMulhw rD rA rB rc s
  | .mfmsr rD => Sys2Proof.Machine.execMfmsr rD s
  | .dcbf rA rB => Sys2Proof.Machine.execDcbf rA rB s
  | .lbzx rD rA rB => Sys2Proof.Machine.execLbzx rD rA rB s
  | .lbepx rD rA rB => Sys2Proof.Machine.execLbepx rD rA rB s
  | .neg rD rA oe rc => Sys2Proof.Machine.execNeg rD rA oe rc s
  | .lbzux rD rA rB => Sys2Proof.Machine.execLbzux rD rA rB s
  | .nor rS rA rB rc => Sys2Proof.Machine.execNor rS rA rB rc s
  | .dcbfep rA rB => Sys2Proof.Machine.execDcbfep rA rB s
  | .wrtee rS => Sys2Proof.Machine.execWrtee rS s
  | .dcbtstls ct rA rB => Sys2Proof.Machine.execDcbtstls ct rA rB s
  | .subfe rD rA rB oe rc => Sys2Proof.Machine.execSubfe rD rA rB oe rc s
  | .adde rD rA rB oe rc => Sys2Proof.Machine.execAdde rD rA rB oe rc s
  | .mtcrf rS crm => Sys2Proof.Machine.execMtcrf rS crm s
  | .mtocrf rS crm => Sys2Proof.Machine.execMtocrf rS crm s
  | .mtmsr rS => Sys2Proof.Machine.execMtmsr rS s
  | .stwcxDot rS rA rB => Sys2Proof.Machine.execStwcxDot rS rA rB s
  | .stwx rS rA rB => Sys2Proof.Machine.execStwx rS rA rB s
  | .stwepx rS rA rB => Sys2Proof.Machine.execStwepx rS rA rB s
  | .wrteei e => Sys2Proof.Machine.execWrteei e s
  | .dcbtls ct rA rB => Sys2Proof.Machine.execDcbtls ct rA rB s
  | .stwux rS rA rB => Sys2Proof.Machine.execStwux rS rA rB s
  | .subfze rD rA oe rc => Sys2Proof.Machine.execSubfze rD rA oe rc s
  | .addze rD rA oe rc => Sys2Proof.Machine.execAddze rD rA oe rc s
  | .msgsnd rB => Sys2Proof.Machine.execMsgsnd rB s
  | .stbx rS rA rB => Sys2Proof.Machine.execStbx rS rA rB s
  | .stbepx rS rA rB => Sys2Proof.Machine.execStbepx rS rA rB s
  | .icblc ct rA rB => Sys2Proof.Machine.execIcblc ct rA rB s
  | .subfme rD rA oe rc => Sys2Proof.Machine.execSubfme rD rA oe rc s
  | .addme rD rA oe rc => Sys2Proof.Machine.execAddme rD rA oe rc s
  | .mullw rD rA rB oe rc => Sys2Proof.Machine.execMullw rD rA rB oe rc s
  | .msgclr rB => Sys2Proof.Machine.execMsgclr rB s
  | .dcbtst th rA rB => Sys2Proof.Machine.execDcbtst th rA rB s
  | .stbux rS rA rB => Sys2Proof.Machine.execStbux rS rA rB s
  | .dcbtstep th rA rB => Sys2Proof.Machine.execDcbtstep th rA rB s
  | .add rD rA rB oe rc => Sys2Proof.Machine.execAdd rD rA rB oe rc s
  | .ehpriv oc => Sys2Proof.Machine.execEhpriv oc s
  | .dcbt th rA rB => Sys2Proof.Machine.execDcbt th rA rB s
  | .lhzx rD rA rB => Sys2Proof.Machine.execLhzx rD rA rB s
  | .eqv rS rA rB rc => Sys2Proof.Machine.execEqv rS rA rB rc s
  | .lhepx rD rA rB => Sys2Proof.Machine.execLhepx rD rA rB s
  | .lhzux rD rA rB => Sys2Proof.Machine.execLhzux rD rA rB s
  | .xor rS rA rB rc => Sys2Proof.Machine.execXor rS rA rB rc s
  | .dcbtep th rA rB => Sys2Proof.Machine.execDcbtep th rA rB s
  | .mfpmr rD pmrn => Sys2Proof.Machine.execMfpmr rD pmrn s
  | .mfspr rD spr => Sys2Proof.Machine.execMfspr rD spr s
  | .lhax rD rA rB => Sys2Proof.Machine.execLhax rD rA rB s
  | .mftb rD tbr => Sys2Proof.Machine.execMftb rD tbr s
  | .lhaux rD rA rB => Sys2Proof.Machine.execLhaux rD rA rB s
  | .dcblc ct rA rB => Sys2Proof.Machine.execDcblc ct rA rB s
  | .sthx rS rA rB => Sys2Proof.Machine.execSthx rS rA rB s
  | .orc rS rA rB rc => Sys2Proof.Machine.execOrc rS rA rB rc s
  | .sthepx rS rA rB => Sys2Proof.Machine.execSthepx rS rA rB s
  | .sthux rS rA rB => Sys2Proof.Machine.execSthux rS rA rB s
  | .or rS rA rB rc => Sys2Proof.Machine.execOr rS rA rB rc s
  | .divwu rD rA rB oe rc => Sys2Proof.Machine.execDivwu rD rA rB oe rc s
  | .mtpmr rS pmrn => Sys2Proof.Machine.execMtpmr rS pmrn s
  | .mtspr rS spr => Sys2Proof.Machine.execMtspr rS spr s
  | .dcbi rA rB => Sys2Proof.Machine.execDcbi rA rB s
  | .nand rS rA rB rc => Sys2Proof.Machine.execNand rS rA rB rc s
  | .dsn rA rB => Sys2Proof.Machine.execDsn rA rB s
  | .icbtls ct rA rB => Sys2Proof.Machine.execIcbtls ct rA rB s
  | .divw rD rA rB oe rc => Sys2Proof.Machine.execDivw rD rA rB oe rc s
  | .mcrxr crfD => Sys2Proof.Machine.execMcrxr crfD s
  | .lbdx rD rA rB => Sys2Proof.Machine.execLbdx rD rA rB s
  | .lwbrx rD rA rB => Sys2Proof.Machine.execLwbrx rD rA rB s
  | .lfsx frD rA rB => Sys2Proof.Machine.execLfsx frD rA rB s
  | .srw rS rA rB rc => Sys2Proof.Machine.execSrw rS rA rB rc s
  | .lhdx rD rA rB => Sys2Proof.Machine.execLhdx rD rA rB s
  | .tlbsync => Sys2Proof.Machine.execTlbsync s
  | .lfsux frD rA rB => Sys2Proof.Machine.execLfsux frD rA rB s
  | .lwdx rD rA rB => Sys2Proof.Machine.execLwdx rD rA rB s
  | .sync l => Sys2Proof.Machine.execSync l s
  | .lfdx frD rA rB => Sys2Proof.Machine.execLfdx frD rA rB s
  | .lfdepx frD rA rB => Sys2Proof.Machine.execLfdepx frD rA rB s
  | .lfdux frD rA rB => Sys2Proof.Machine.execLfdux frD rA rB s
  | .stbdx rS rA rB => Sys2Proof.Machine.execStbdx rS rA rB s
  | .stwbrx rS rA rB => Sys2Proof.Machine.execStwbrx rS rA rB s
  | .stfsx frS rA rB => Sys2Proof.Machine.execStfsx frS rA rB s
  | .sthdx rS rA rB => Sys2Proof.Machine.execSthdx rS rA rB s
  | .stfsux frS rA rB => Sys2Proof.Machine.execStfsux frS rA rB s
  | .stwdx rS rA rB => Sys2Proof.Machine.execStwdx rS rA rB s
  | .stfdx frS rA rB => Sys2Proof.Machine.execStfdx frS rA rB s
  | .stfdepx frS rA rB => Sys2Proof.Machine.execStfdepx frS rA rB s
  | .dcba rA rB => Sys2Proof.Machine.execDcba rA rB s
  | .dcbal rA rB => Sys2Proof.Machine.execDcbal rA rB s
  | .stfdux frS rA rB => Sys2Proof.Machine.execStfdux frS rA rB s
  | .tlbivax rA rB => Sys2Proof.Machine.execTlbivax rA rB s
  | .lhbrx rD rA rB => Sys2Proof.Machine.execLhbrx rD rA rB s
  | .sraw rS rA rB rc => Sys2Proof.Machine.execSraw rS rA rB rc s
  | .lfddx frD rA rB => Sys2Proof.Machine.execLfddx frD rA rB s
  | .srawi rS rA sh rc => Sys2Proof.Machine.execSrawi rS rA sh rc s
  | .mbar mo => Sys2Proof.Machine.execMbar mo s
  | .tlbsx rA rB => Sys2Proof.Machine.execTlbsx rA rB s
  | .sthbrx rS rA rB => Sys2Proof.Machine.execSthbrx rS rA rB s
  | .extsh rS rA rc => Sys2Proof.Machine.execExtsh rS rA rc s
  | .stfddx frS rA rB => Sys2Proof.Machine.execStfddx frS rA rB s
  | .tlbre => Sys2Proof.Machine.execTlbre s
  | .extsb rS rA rc => Sys2Proof.Machine.execExtsb rS rA rc s
  | .tlbwe => Sys2Proof.Machine.execTlbwe s
  | .icbi rA rB => Sys2Proof.Machine.execIcbi rA rB s
  | .stfiwx frS rA rB => Sys2Proof.Machine.execStfiwx frS rA rB s
  | .icbiep rA rB => Sys2Proof.Machine.execIcbiep rA rB s
  | .dcbz rA rB => Sys2Proof.Machine.execDcbz rA rB s
  | .dcbzl rA rB => Sys2Proof.Machine.execDcbzl rA rB s
  | .dcbzep rA rB => Sys2Proof.Machine.execDcbzep rA rB s
  | .dcbzlep rA rB => Sys2Proof.Machine.execDcbzlep rA rB s
  | .lwz rD rA d => Sys2Proof.Machine.execLwz rD rA d s
  | .lwzu rD rA d => Sys2Proof.Machine.execLwzu rD rA d s
  | .lbz rD rA d => Sys2Proof.Machine.execLbz rD rA d s
  | .lbzu rD rA d => Sys2Proof.Machine.execLbzu rD rA d s
  | .stw rS rA d => Sys2Proof.Machine.execStw rS rA d s
  | .stwu rS rA d => Sys2Proof.Machine.execStwu rS rA d s
  | .stb rS rA d => Sys2Proof.Machine.execStb rS rA d s
  | .stbu rS rA d => Sys2Proof.Machine.execStbu rS rA d s
  | .lhz rD rA d => Sys2Proof.Machine.execLhz rD rA d s
  | .lhzu rD rA d => Sys2Proof.Machine.execLhzu rD rA d s
  | .lha rD rA d => Sys2Proof.Machine.execLha rD rA d s
  | .lhau rD rA d => Sys2Proof.Machine.execLhau rD rA d s
  | .sth rS rA d => Sys2Proof.Machine.execSth rS rA d s
  | .sthu rS rA d => Sys2Proof.Machine.execSthu rS rA d s
  | .lmw rD rA d => Sys2Proof.Machine.execLmw rD rA d s
  | .stmw rS rA d => Sys2Proof.Machine.execStmw rS rA d s
  | .lfs frD rA d => Sys2Proof.Machine.execLfs frD rA d s
  | .lfsu frD rA d => Sys2Proof.Machine.execLfsu frD rA d s
  | .lfd frD rA d => Sys2Proof.Machine.execLfd frD rA d s
  | .lfdu frD rA d => Sys2Proof.Machine.execLfdu frD rA d s
  | .stfs frS rA d => Sys2Proof.Machine.execStfs frS rA d s
  | .stfsu frS rA d => Sys2Proof.Machine.execStfsu frS rA d s
  | .stfd frS rA d => Sys2Proof.Machine.execStfd frS rA d s
  | .stfdu frS rA d => Sys2Proof.Machine.execStfdu frS rA d s
  | .fdivs frD frA frB rc => Sys2Proof.Machine.execFdivs frD frA frB rc s
  | .fsubs frD frA frB rc => Sys2Proof.Machine.execFsubs frD frA frB rc s
  | .fadds frD frA frB rc => Sys2Proof.Machine.execFadds frD frA frB rc s
  | .fres frD frB rc => Sys2Proof.Machine.execFres frD frB rc s
  | .fmuls frD frA frC rc => Sys2Proof.Machine.execFmuls frD frA frC rc s
  | .fmsubs frD frA frC frB rc => Sys2Proof.Machine.execFmsubs frD frA frC frB rc s
  | .fmadds frD frA frC frB rc => Sys2Proof.Machine.execFmadds frD frA frC frB rc s
  | .fnmsubs frD frA frC frB rc => Sys2Proof.Machine.execFnmsubs frD frA frC frB rc s
  | .fnmadds frD frA frC frB rc => Sys2Proof.Machine.execFnmadds frD frA frC frB rc s
  | .fcmpu crfD frA frB => Sys2Proof.Machine.execFcmpu crfD frA frB s
  | .frsp frD frB rc => Sys2Proof.Machine.execFrsp frD frB rc s
  | .fctiw frD frB rc => Sys2Proof.Machine.execFctiw frD frB rc s
  | .fctiwz frD frB rc => Sys2Proof.Machine.execFctiwz frD frB rc s
  | .fdiv frD frA frB rc => Sys2Proof.Machine.execFdiv frD frA frB rc s
  | .fsub frD frA frB rc => Sys2Proof.Machine.execFsub frD frA frB rc s
  | .fadd frD frA frB rc => Sys2Proof.Machine.execFadd frD frA frB rc s
  | .fsel frD frA frC frB rc => Sys2Proof.Machine.execFsel frD frA frC frB rc s
  | .fmul frD frA frC rc => Sys2Proof.Machine.execFmul frD frA frC rc s
  | .frsqrte frD frB rc => Sys2Proof.Machine.execFrsqrte frD frB rc s
  | .fmsub frD frA frC frB rc => Sys2Proof.Machine.execFmsub frD frA frC frB rc s
  | .fmadd frD frA frC frB rc => Sys2Proof.Machine.execFmadd frD frA frC frB rc s
  | .fnmsub frD frA frC frB rc => Sys2Proof.Machine.execFnmsub frD frA frC frB rc s
  | .fnmadd frD frA frC frB rc => Sys2Proof.Machine.execFnmadd frD frA frC frB rc s
  | .fcmpo crfD frA frB => Sys2Proof.Machine.execFcmpo crfD frA frB s
  | .mtfsb1 crbD rc => Sys2Proof.Machine.execMtfsb1 crbD rc s
  | .fneg frD frB rc => Sys2Proof.Machine.execFneg frD frB rc s
  | .mcrfs crfD crfS => Sys2Proof.Machine.execMcrfs crfD crfS s
  | .mtfsb0 crbD rc => Sys2Proof.Machine.execMtfsb0 crbD rc s
  | .fmr frD frB rc => Sys2Proof.Machine.execFmr frD frB rc s
  | .mtfsfi crfD imm rc => Sys2Proof.Machine.execMtfsfi crfD imm rc s
  | .fnabs frD frB rc => Sys2Proof.Machine.execFnabs frD frB rc s
  | .fabs frD frB rc => Sys2Proof.Machine.execFabs frD frB rc s
  | .mffs frD rc => Sys2Proof.Machine.execMffs frD rc s
  | .mtfsf fm frB rc => Sys2Proof.Machine.execMtfsf fm frB rc s

end Sys2Proof.Machine
end

