-- ==== Sys2Proof/Decode.lean ====
section
/-! DEFINITION. Decoding and encoding (30_encoding.md rules R370 to R385). An instruction is one 32-bit
word, its bits numbered 0 (most significant) to 31. The decoder reads the primary opcode in bits 0:5
and, for opcodes 19, 31, 59 and 63, the extended opcode; it ignores reserved bits (R383). A word that
no row of spec/opcode_table.json matches is refused by name. The encoder writes each instruction by
the format of its row, with every reserved bit 0. -/

namespace Sys2Proof

/-- Why the decoder refuses (30 R382, R384). -/
inductive DecodeError where
  /-- No row has this primary opcode (for opcode 17: none has bit 30 clear). -/
  | primary (opcd : BitVec 6)
  /-- No row of this primary opcode has this extended opcode (bits 21:30; for 150 of opcode 31: none has bit 31 clear). -/
  | extended (opcd : BitVec 6) (xo : BitVec 10)
  /-- Fewer than four bytes were given. -/
  | truncated
  deriving DecidableEq, Repr

/-! The fields of an instruction word (R375 to R379), each named after its bits. -/

/-- Bit n of the word, counted from the right (bit 31 - n in the manual's numbering). -/
def bitAt (n : Nat) (w : Word) : Bool := w.getLsbD n

/-- Bits 0:5, the primary opcode. -/
def fldOp (w : Word) : BitVec 6 := w.extractLsb' 26 6
/-- Bits 6:10. -/
def fldA (w : Word) : BitVec 5 := w.extractLsb' 21 5
/-- Bits 11:15. -/
def fldB (w : Word) : BitVec 5 := w.extractLsb' 16 5
/-- Bits 16:20. -/
def fldC (w : Word) : BitVec 5 := w.extractLsb' 11 5
/-- Bits 21:25. -/
def fldD (w : Word) : BitVec 5 := w.extractLsb' 6 5
/-- Bits 26:30. -/
def fldE (w : Word) : BitVec 5 := w.extractLsb' 1 5
/-- Bits 16:31. -/
def fldImm (w : Word) : BitVec 16 := w.extractLsb' 0 16
/-- Bits 11:20, a register number whose two five-bit halves stand swapped in the word (R375, R376). -/
def fldSpr (w : Word) : BitVec 10 := w.extractLsb' 11 5 ++ w.extractLsb' 16 5
/-- Bits 6:29. -/
def fldLi (w : Word) : BitVec 24 := w.extractLsb' 2 24
/-- Bits 16:29. -/
def fldBd (w : Word) : BitVec 14 := w.extractLsb' 2 14
/-- Bits 6:8. -/
def fldCrD (w : Word) : BitVec 3 := w.extractLsb' 23 3
/-- Bits 11:13. -/
def fldCrS (w : Word) : BitVec 3 := w.extractLsb' 18 3
/-- Bits 7:10. -/
def fldCt (w : Word) : BitVec 4 := w.extractLsb' 21 4
/-- Bits 9:10. -/
def fldL (w : Word) : BitVec 2 := w.extractLsb' 21 2
/-- Bits 12:19. -/
def fldCrm (w : Word) : BitVec 8 := w.extractLsb' 12 8
/-- Bits 7:14. -/
def fldFm (w : Word) : BitVec 8 := w.extractLsb' 17 8
/-- Bits 20:26. -/
def fldLev (w : Word) : BitVec 7 := w.extractLsb' 5 7
/-- Bits 19:20. -/
def fldBh (w : Word) : BitVec 2 := w.extractLsb' 11 2
/-- Bits 10:10. -/
def fldL1 (w : Word) : BitVec 1 := w.extractLsb' 21 1
/-- Bits 6:20. -/
def fldOc (w : Word) : BitVec 15 := w.extractLsb' 11 15
/-- Bits 16:19. -/
def fldFsImm (w : Word) : BitVec 4 := w.extractLsb' 12 4
/-- Bits 11:20 as they stand (dnh's DUIS). -/
def fldDuis (w : Word) : BitVec 10 := w.extractLsb' 11 10
/-- Bits 21:30, the ten-bit extended opcode. -/
def fldXo (w : Word) : BitVec 10 := w.extractLsb' 1 10

/-- Primary opcode 19: branches to registers, condition-register logic, returns (R378). -/
def decode19 (w : Word) : Except DecodeError Instr :=
  match (fldXo w).toNat with
  | 0 => .ok (.mcrf (fldCrD w) (fldCrS w))
  | 16 => .ok (.bclr (fldA w) (fldB w) (fldBh w) (bitAt 0 w))
  | 33 => .ok (.crnor (fldA w) (fldB w) (fldC w))
  | 38 => .ok .rfmci
  | 39 => .ok .rfdi
  | 50 => .ok .rfi
  | 51 => .ok .rfci
  | 102 => .ok .rfgi
  | 129 => .ok (.crandc (fldA w) (fldB w) (fldC w))
  | 150 => .ok .isync
  | 193 => .ok (.crxor (fldA w) (fldB w) (fldC w))
  | 198 => .ok (.dnh (fldA w) (fldDuis w))
  | 225 => .ok (.crnand (fldA w) (fldB w) (fldC w))
  | 257 => .ok (.crand (fldA w) (fldB w) (fldC w))
  | 289 => .ok (.creqv (fldA w) (fldB w) (fldC w))
  | 417 => .ok (.crorc (fldA w) (fldB w) (fldC w))
  | 449 => .ok (.cror (fldA w) (fldB w) (fldC w))
  | 528 => .ok (.bcctr (fldA w) (fldB w) (fldBh w) (bitAt 0 w))
  | _ => .error (.extended 19 (fldXo w))

/-- Primary opcode 31, XO form: integer arithmetic, whose bit 21 is OE (or, for mulhw and mulhwu,
reserved) and whose nine-bit extended opcode is bits 22:30 (R379). -/
def decode31Xo (w : Word) : Except DecodeError Instr :=
  match (fldXo w).toNat % 512 with
  | 8 => .ok (.subfc (fldA w) (fldB w) (fldC w) (bitAt 10 w) (bitAt 0 w))
  | 10 => .ok (.addc (fldA w) (fldB w) (fldC w) (bitAt 10 w) (bitAt 0 w))
  | 11 => .ok (.mulhwu (fldA w) (fldB w) (fldC w) (bitAt 0 w))
  | 40 => .ok (.subf (fldA w) (fldB w) (fldC w) (bitAt 10 w) (bitAt 0 w))
  | 75 => .ok (.mulhw (fldA w) (fldB w) (fldC w) (bitAt 0 w))
  | 104 => .ok (.neg (fldA w) (fldB w) (bitAt 10 w) (bitAt 0 w))
  | 136 => .ok (.subfe (fldA w) (fldB w) (fldC w) (bitAt 10 w) (bitAt 0 w))
  | 138 => .ok (.adde (fldA w) (fldB w) (fldC w) (bitAt 10 w) (bitAt 0 w))
  | 200 => .ok (.subfze (fldA w) (fldB w) (bitAt 10 w) (bitAt 0 w))
  | 202 => .ok (.addze (fldA w) (fldB w) (bitAt 10 w) (bitAt 0 w))
  | 232 => .ok (.subfme (fldA w) (fldB w) (bitAt 10 w) (bitAt 0 w))
  | 234 => .ok (.addme (fldA w) (fldB w) (bitAt 10 w) (bitAt 0 w))
  | 235 => .ok (.mullw (fldA w) (fldB w) (fldC w) (bitAt 10 w) (bitAt 0 w))
  | 266 => .ok (.add (fldA w) (fldB w) (fldC w) (bitAt 10 w) (bitAt 0 w))
  | 459 => .ok (.divwu (fldA w) (fldB w) (fldC w) (bitAt 10 w) (bitAt 0 w))
  | 491 => .ok (.divw (fldA w) (fldB w) (fldC w) (bitAt 10 w) (bitAt 0 w))
  | _ => .error (.extended 31 (fldXo w))

/-- Primary opcode 31, extended opcodes below 512 (R379). -/
def decode31Lo (w : Word) : Except DecodeError Instr :=
  match (fldXo w).toNat with
  | 0 => .ok (.cmp (fldCrD w) (fldL1 w) (fldB w) (fldC w))
  | 4 => .ok (.tw (fldA w) (fldB w) (fldC w))
  | 18 => .ok (.tlbilx (fldL w) (fldB w) (fldC w))
  | 20 => .ok (.lwarx (fldA w) (fldB w) (fldC w))
  | 22 => .ok (.icbt (fldCt w) (fldB w) (fldC w))
  | 23 => .ok (.lwzx (fldA w) (fldB w) (fldC w))
  | 24 => .ok (.slw (fldA w) (fldB w) (fldC w) (bitAt 0 w))
  | 26 => .ok (.cntlzw (fldA w) (fldB w) (bitAt 0 w))
  | 28 => .ok (.and (fldA w) (fldB w) (fldC w) (bitAt 0 w))
  | 31 => .ok (.lwepx (fldA w) (fldB w) (fldC w))
  | 32 => .ok (.cmpl (fldCrD w) (fldL1 w) (fldB w) (fldC w))
  | 54 => .ok (.dcbst (fldB w) (fldC w))
  | 55 => .ok (.lwzux (fldA w) (fldB w) (fldC w))
  | 60 => .ok (.andc (fldA w) (fldB w) (fldC w) (bitAt 0 w))
  | 62 => .ok (.wait (fldL w))
  | 63 => .ok (.dcbstep (fldB w) (fldC w))
  | 83 => .ok (.mfmsr (fldA w))
  | 86 => .ok (.dcbf (fldB w) (fldC w))
  | 87 => .ok (.lbzx (fldA w) (fldB w) (fldC w))
  | 95 => .ok (.lbepx (fldA w) (fldB w) (fldC w))
  | 119 => .ok (.lbzux (fldA w) (fldB w) (fldC w))
  | 124 => .ok (.nor (fldA w) (fldB w) (fldC w) (bitAt 0 w))
  | 127 => .ok (.dcbfep (fldB w) (fldC w))
  | 131 => .ok (.wrtee (fldA w))
  | 134 => .ok (.dcbtstls (fldCt w) (fldB w) (fldC w))
  | 146 => .ok (.mtmsr (fldA w))
  | 150 => if bitAt 0 w then .ok (.stwcxDot (fldA w) (fldB w) (fldC w)) else .error (.extended 31 150)
  | 151 => .ok (.stwx (fldA w) (fldB w) (fldC w))
  | 159 => .ok (.stwepx (fldA w) (fldB w) (fldC w))
  | 163 => .ok (.wrteei (bitAt 15 w))
  | 166 => .ok (.dcbtls (fldCt w) (fldB w) (fldC w))
  | 183 => .ok (.stwux (fldA w) (fldB w) (fldC w))
  | 206 => .ok (.msgsnd (fldC w))
  | 215 => .ok (.stbx (fldA w) (fldB w) (fldC w))
  | 223 => .ok (.stbepx (fldA w) (fldB w) (fldC w))
  | 230 => .ok (.icblc (fldCt w) (fldB w) (fldC w))
  | 238 => .ok (.msgclr (fldC w))
  | 246 => .ok (.dcbtst (fldCt w) (fldB w) (fldC w))
  | 247 => .ok (.stbux (fldA w) (fldB w) (fldC w))
  | 255 => .ok (.dcbtstep (fldCt w) (fldB w) (fldC w))
  | 270 => .ok (.ehpriv (fldOc w))
  | 278 => .ok (.dcbt (fldCt w) (fldB w) (fldC w))
  | 279 => .ok (.lhzx (fldA w) (fldB w) (fldC w))
  | 284 => .ok (.eqv (fldA w) (fldB w) (fldC w) (bitAt 0 w))
  | 287 => .ok (.lhepx (fldA w) (fldB w) (fldC w))
  | 311 => .ok (.lhzux (fldA w) (fldB w) (fldC w))
  | 316 => .ok (.xor (fldA w) (fldB w) (fldC w) (bitAt 0 w))
  | 319 => .ok (.dcbtep (fldCt w) (fldB w) (fldC w))
  | 334 => .ok (.mfpmr (fldA w) (fldSpr w))
  | 339 => .ok (.mfspr (fldA w) (fldSpr w))
  | 343 => .ok (.lhax (fldA w) (fldB w) (fldC w))
  | 371 => .ok (.mftb (fldA w) (fldSpr w))
  | 375 => .ok (.lhaux (fldA w) (fldB w) (fldC w))
  | 390 => .ok (.dcblc (fldCt w) (fldB w) (fldC w))
  | 407 => .ok (.sthx (fldA w) (fldB w) (fldC w))
  | 412 => .ok (.orc (fldA w) (fldB w) (fldC w) (bitAt 0 w))
  | 415 => .ok (.sthepx (fldA w) (fldB w) (fldC w))
  | 439 => .ok (.sthux (fldA w) (fldB w) (fldC w))
  | 444 => .ok (.or (fldA w) (fldB w) (fldC w) (bitAt 0 w))
  | 462 => .ok (.mtpmr (fldA w) (fldSpr w))
  | 467 => .ok (.mtspr (fldA w) (fldSpr w))
  | 470 => .ok (.dcbi (fldB w) (fldC w))
  | 476 => .ok (.nand (fldA w) (fldB w) (fldC w) (bitAt 0 w))
  | 483 => .ok (.dsn (fldB w) (fldC w))
  | 486 => .ok (.icbtls (fldCt w) (fldB w) (fldC w))
  | 19 => .ok (if bitAt 20 w then .mfocrf (fldA w) (fldCrm w) else .mfcr (fldA w))
  | 144 => .ok (if bitAt 20 w then .mtocrf (fldA w) (fldCrm w) else .mtcrf (fldA w) (fldCrm w))
  | _ => decode31Xo w

/-- Primary opcode 31, extended opcodes from 512 on (R379). -/
def decode31Hi (w : Word) : Except DecodeError Instr :=
  match (fldXo w).toNat with
  | 512 => .ok (.mcrxr (fldCrD w))
  | 515 => .ok (.lbdx (fldA w) (fldB w) (fldC w))
  | 534 => .ok (.lwbrx (fldA w) (fldB w) (fldC w))
  | 535 => .ok (.lfsx (fldA w) (fldB w) (fldC w))
  | 536 => .ok (.srw (fldA w) (fldB w) (fldC w) (bitAt 0 w))
  | 547 => .ok (.lhdx (fldA w) (fldB w) (fldC w))
  | 566 => .ok .tlbsync
  | 567 => .ok (.lfsux (fldA w) (fldB w) (fldC w))
  | 579 => .ok (.lwdx (fldA w) (fldB w) (fldC w))
  | 598 => .ok (.sync (fldL w))
  | 599 => .ok (.lfdx (fldA w) (fldB w) (fldC w))
  | 607 => .ok (.lfdepx (fldA w) (fldB w) (fldC w))
  | 631 => .ok (.lfdux (fldA w) (fldB w) (fldC w))
  | 643 => .ok (.stbdx (fldA w) (fldB w) (fldC w))
  | 662 => .ok (.stwbrx (fldA w) (fldB w) (fldC w))
  | 663 => .ok (.stfsx (fldA w) (fldB w) (fldC w))
  | 675 => .ok (.sthdx (fldA w) (fldB w) (fldC w))
  | 695 => .ok (.stfsux (fldA w) (fldB w) (fldC w))
  | 707 => .ok (.stwdx (fldA w) (fldB w) (fldC w))
  | 727 => .ok (.stfdx (fldA w) (fldB w) (fldC w))
  | 735 => .ok (.stfdepx (fldA w) (fldB w) (fldC w))
  | 759 => .ok (.stfdux (fldA w) (fldB w) (fldC w))
  | 786 => .ok (.tlbivax (fldB w) (fldC w))
  | 790 => .ok (.lhbrx (fldA w) (fldB w) (fldC w))
  | 792 => .ok (.sraw (fldA w) (fldB w) (fldC w) (bitAt 0 w))
  | 803 => .ok (.lfddx (fldA w) (fldB w) (fldC w))
  | 824 => .ok (.srawi (fldA w) (fldB w) (fldC w) (bitAt 0 w))
  | 854 => .ok (.mbar (fldA w))
  | 914 => .ok (.tlbsx (fldB w) (fldC w))
  | 918 => .ok (.sthbrx (fldA w) (fldB w) (fldC w))
  | 922 => .ok (.extsh (fldA w) (fldB w) (bitAt 0 w))
  | 931 => .ok (.stfddx (fldA w) (fldB w) (fldC w))
  | 946 => .ok .tlbre
  | 954 => .ok (.extsb (fldA w) (fldB w) (bitAt 0 w))
  | 978 => .ok .tlbwe
  | 982 => .ok (.icbi (fldB w) (fldC w))
  | 983 => .ok (.stfiwx (fldA w) (fldB w) (fldC w))
  | 991 => .ok (.icbiep (fldB w) (fldC w))
  | 758 => .ok (if bitAt 21 w then .dcbal (fldB w) (fldC w) else .dcba (fldB w) (fldC w))
  | 1014 => .ok (if bitAt 21 w then .dcbzl (fldB w) (fldC w) else .dcbz (fldB w) (fldC w))
  | 1023 => .ok (if bitAt 21 w then .dcbzlep (fldB w) (fldC w) else .dcbzep (fldB w) (fldC w))
  | _ => decode31Xo w

/-- Primary opcode 31 (R379). isel is recognised by bits 26:30 alone: bits 21:25 are its crbC. -/
def decode31 (w : Word) : Except DecodeError Instr :=
  if fldE w = 15 then .ok (.isel (fldA w) (fldB w) (fldC w) (fldD w))
  else if (fldXo w).toNat < 512 then decode31Lo w else decode31Hi w

/-- Primary opcode 59: single-precision arithmetic (R380). -/
def decode59 (w : Word) : Except DecodeError Instr :=
  match (fldE w).toNat with
  | 18 => .ok (.fdivs (fldA w) (fldB w) (fldC w) (bitAt 0 w))
  | 20 => .ok (.fsubs (fldA w) (fldB w) (fldC w) (bitAt 0 w))
  | 21 => .ok (.fadds (fldA w) (fldB w) (fldC w) (bitAt 0 w))
  | 24 => .ok (.fres (fldA w) (fldC w) (bitAt 0 w))
  | 25 => .ok (.fmuls (fldA w) (fldB w) (fldD w) (bitAt 0 w))
  | 28 => .ok (.fmsubs (fldA w) (fldB w) (fldD w) (fldC w) (bitAt 0 w))
  | 29 => .ok (.fmadds (fldA w) (fldB w) (fldD w) (fldC w) (bitAt 0 w))
  | 30 => .ok (.fnmsubs (fldA w) (fldB w) (fldD w) (fldC w) (bitAt 0 w))
  | 31 => .ok (.fnmadds (fldA w) (fldB w) (fldD w) (fldC w) (bitAt 0 w))
  | _ => .error (.extended 59 (fldXo w))

/-- Primary opcode 63, X form (R380). -/
def decode63X (w : Word) : Except DecodeError Instr :=
  match (fldXo w).toNat with
  | 0 => .ok (.fcmpu (fldCrD w) (fldB w) (fldC w))
  | 12 => .ok (.frsp (fldA w) (fldC w) (bitAt 0 w))
  | 14 => .ok (.fctiw (fldA w) (fldC w) (bitAt 0 w))
  | 15 => .ok (.fctiwz (fldA w) (fldC w) (bitAt 0 w))
  | 32 => .ok (.fcmpo (fldCrD w) (fldB w) (fldC w))
  | 38 => .ok (.mtfsb1 (fldA w) (bitAt 0 w))
  | 40 => .ok (.fneg (fldA w) (fldC w) (bitAt 0 w))
  | 64 => .ok (.mcrfs (fldCrD w) (fldCrS w))
  | 70 => .ok (.mtfsb0 (fldA w) (bitAt 0 w))
  | 72 => .ok (.fmr (fldA w) (fldC w) (bitAt 0 w))
  | 134 => .ok (.mtfsfi (fldCrD w) (fldFsImm w) (bitAt 0 w))
  | 136 => .ok (.fnabs (fldA w) (fldC w) (bitAt 0 w))
  | 264 => .ok (.fabs (fldA w) (fldC w) (bitAt 0 w))
  | 583 => .ok (.mffs (fldA w) (bitAt 0 w))
  | 711 => .ok (.mtfsf (fldFm w) (fldC w) (bitAt 0 w))
  | _ => .error (.extended 63 (fldXo w))

/-- Primary opcode 63: the A-form rows are recognised by bits 26:30, the others by bits 21:30 (R380). -/
def decode63 (w : Word) : Except DecodeError Instr :=
  match (fldE w).toNat with
  | 18 => .ok (.fdiv (fldA w) (fldB w) (fldC w) (bitAt 0 w))
  | 20 => .ok (.fsub (fldA w) (fldB w) (fldC w) (bitAt 0 w))
  | 21 => .ok (.fadd (fldA w) (fldB w) (fldC w) (bitAt 0 w))
  | 23 => .ok (.fsel (fldA w) (fldB w) (fldD w) (fldC w) (bitAt 0 w))
  | 25 => .ok (.fmul (fldA w) (fldB w) (fldD w) (bitAt 0 w))
  | 26 => .ok (.frsqrte (fldA w) (fldC w) (bitAt 0 w))
  | 28 => .ok (.fmsub (fldA w) (fldB w) (fldD w) (fldC w) (bitAt 0 w))
  | 29 => .ok (.fmadd (fldA w) (fldB w) (fldD w) (fldC w) (bitAt 0 w))
  | 30 => .ok (.fnmsub (fldA w) (fldB w) (fldD w) (fldC w) (bitAt 0 w))
  | 31 => .ok (.fnmadd (fldA w) (fldB w) (fldD w) (fldC w) (bitAt 0 w))
  | _ => decode63X w

/-- The instruction that a word encodes, or the name of its refusal (R371 to R384). -/
def decode (w : Word) : Except DecodeError Instr :=
  match (fldOp w).toNat with
  | 3 => .ok (.twi (fldA w) (fldB w) (fldImm w))
  | 7 => .ok (.mulli (fldA w) (fldB w) (fldImm w))
  | 8 => .ok (.subfic (fldA w) (fldB w) (fldImm w))
  | 10 => .ok (.cmpli (fldCrD w) (fldL1 w) (fldB w) (fldImm w))
  | 11 => .ok (.cmpi (fldCrD w) (fldL1 w) (fldB w) (fldImm w))
  | 12 => .ok (.addic (fldA w) (fldB w) (fldImm w))
  | 13 => .ok (.addicDot (fldA w) (fldB w) (fldImm w))
  | 14 => .ok (.addi (fldA w) (fldB w) (fldImm w))
  | 15 => .ok (.addis (fldA w) (fldB w) (fldImm w))
  | 16 => .ok (.bc (fldA w) (fldB w) (fldBd w) (bitAt 1 w) (bitAt 0 w))
  | 18 => .ok (.b (fldLi w) (bitAt 1 w) (bitAt 0 w))
  | 20 => .ok (.rlwimi (fldA w) (fldB w) (fldC w) (fldD w) (fldE w) (bitAt 0 w))
  | 21 => .ok (.rlwinm (fldA w) (fldB w) (fldC w) (fldD w) (fldE w) (bitAt 0 w))
  | 23 => .ok (.rlwnm (fldA w) (fldB w) (fldC w) (fldD w) (fldE w) (bitAt 0 w))
  | 24 => .ok (.ori (fldA w) (fldB w) (fldImm w))
  | 25 => .ok (.oris (fldA w) (fldB w) (fldImm w))
  | 26 => .ok (.xori (fldA w) (fldB w) (fldImm w))
  | 27 => .ok (.xoris (fldA w) (fldB w) (fldImm w))
  | 28 => .ok (.andiDot (fldA w) (fldB w) (fldImm w))
  | 29 => .ok (.andisDot (fldA w) (fldB w) (fldImm w))
  | 32 => .ok (.lwz (fldA w) (fldB w) (fldImm w))
  | 33 => .ok (.lwzu (fldA w) (fldB w) (fldImm w))
  | 34 => .ok (.lbz (fldA w) (fldB w) (fldImm w))
  | 35 => .ok (.lbzu (fldA w) (fldB w) (fldImm w))
  | 36 => .ok (.stw (fldA w) (fldB w) (fldImm w))
  | 37 => .ok (.stwu (fldA w) (fldB w) (fldImm w))
  | 38 => .ok (.stb (fldA w) (fldB w) (fldImm w))
  | 39 => .ok (.stbu (fldA w) (fldB w) (fldImm w))
  | 40 => .ok (.lhz (fldA w) (fldB w) (fldImm w))
  | 41 => .ok (.lhzu (fldA w) (fldB w) (fldImm w))
  | 42 => .ok (.lha (fldA w) (fldB w) (fldImm w))
  | 43 => .ok (.lhau (fldA w) (fldB w) (fldImm w))
  | 44 => .ok (.sth (fldA w) (fldB w) (fldImm w))
  | 45 => .ok (.sthu (fldA w) (fldB w) (fldImm w))
  | 46 => .ok (.lmw (fldA w) (fldB w) (fldImm w))
  | 47 => .ok (.stmw (fldA w) (fldB w) (fldImm w))
  | 48 => .ok (.lfs (fldA w) (fldB w) (fldImm w))
  | 49 => .ok (.lfsu (fldA w) (fldB w) (fldImm w))
  | 50 => .ok (.lfd (fldA w) (fldB w) (fldImm w))
  | 51 => .ok (.lfdu (fldA w) (fldB w) (fldImm w))
  | 52 => .ok (.stfs (fldA w) (fldB w) (fldImm w))
  | 53 => .ok (.stfsu (fldA w) (fldB w) (fldImm w))
  | 54 => .ok (.stfd (fldA w) (fldB w) (fldImm w))
  | 55 => .ok (.stfdu (fldA w) (fldB w) (fldImm w))
  | 17 => if bitAt 1 w then .ok (.sc (fldLev w)) else .error (.primary 17)
  | 19 => decode19 w
  | 31 => decode31 w
  | 59 => decode59 w
  | 63 => decode63 w
  | _ => .error (.primary (fldOp w))

/-- The word that four bytes make, the first one the most significant (20 R283). -/
def wordOfBytes (b0 b1 b2 b3 : Byte) : Word := b0 ++ b1 ++ b2 ++ b3

/-- The four bytes of a word, the most significant first (20 R283). -/
def bytesOfWord (w : Word) : List Byte :=
  [w.extractLsb' 24 8, w.extractLsb' 16 8, w.extractLsb' 8 8, w.extractLsb' 0 8]

/-- Decoding from a run of bytes: the instruction and the bytes that follow it. -/
def decodeBytes : List Byte → Except DecodeError (Instr × List Byte)
  | b0 :: b1 :: b2 :: b3 :: rest => (decode (wordOfBytes b0 b1 b2 b3)).map (·, rest)
  | _ => .error .truncated

/-! Encoding, one function for each format (R374 to R380). -/

/-- A truth value as a one-bit field. -/
def ofBool (x : Bool) : BitVec 1 := BitVec.ofBool x

/-- D form. -/
def encD (op : BitVec 6) (a b : BitVec 5) (imm : BitVec 16) : Word := op ++ a ++ b ++ imm
/-- B form (bc). -/
def encB (bo bi : BitVec 5) (bd : BitVec 14) (aa lk : Bool) : Word :=
  16#6 ++ bo ++ bi ++ bd ++ ofBool aa ++ ofBool lk
/-- I form (b). -/
def encI (li : BitVec 24) (aa lk : Bool) : Word := 18#6 ++ li ++ ofBool aa ++ ofBool lk
/-- SC form. -/
def encSc (lev : BitVec 7) : Word := 17#6 ++ 0#14 ++ lev ++ 2#5
/-- X and XL forms. -/
def encX (op : BitVec 6) (a b c : BitVec 5) (xo : BitVec 10) (r : Bool) : Word :=
  op ++ a ++ b ++ c ++ xo ++ ofBool r
/-- XO form. -/
def encXo (a b c : BitVec 5) (oe : Bool) (xo : BitVec 9) (rc : Bool) : Word :=
  31#6 ++ a ++ b ++ c ++ ofBool oe ++ xo ++ ofBool rc
/-- A and M forms: five five-bit fields. -/
def encA (op : BitVec 6) (a b c d e : BitVec 5) (rc : Bool) : Word :=
  op ++ a ++ b ++ c ++ d ++ e ++ ofBool rc
/-- XFX form with a register number in swapped halves (R375, R376). -/
def encSpr (op : BitVec 6) (a : BitVec 5) (n : BitVec 10) (xo : BitVec 10) (r : Bool) : Word :=
  op ++ a ++ n.extractLsb' 0 5 ++ n.extractLsb' 5 5 ++ xo ++ ofBool r
/-- XL form of dnh, whose DUIS stands in bits 11:20 as it is. -/
def encDnh (dui : BitVec 5) (duis : BitVec 10) : Word := 19#6 ++ dui ++ duis ++ 198#10 ++ 0#1
/-- X form of ehpriv, whose OC is bits 6:20. -/
def encOc (oc : BitVec 15) : Word := 31#6 ++ oc ++ 270#10 ++ 0#1
/-- XFX form with a CR field mask; bit 11 tells mtocrf and mfocrf from mtcrf and mfcr. -/
def encCrm (a : BitVec 5) (one : Bool) (crm : BitVec 8) (xo : BitVec 10) : Word :=
  31#6 ++ a ++ ofBool one ++ crm ++ 0#1 ++ xo ++ 0#1
/-- XFL form (mtfsf). -/
def encFm (fm : BitVec 8) (b : BitVec 5) (rc : Bool) : Word :=
  63#6 ++ 0#1 ++ fm ++ 0#1 ++ b ++ 711#10 ++ ofBool rc

/-- The word of an instruction, its reserved bits 0 (R374 to R380). -/
def encode : Instr → Word
  | .twi tO rA simm => encD 3 tO rA simm
  | .mulli rD rA simm => encD 7 rD rA simm
  | .subfic rD rA simm => encD 8 rD rA simm
  | .cmpli crfD l rA uimm => encD 10 (crfD ++ (0#1) ++ l) rA uimm
  | .cmpi crfD l rA simm => encD 11 (crfD ++ (0#1) ++ l) rA simm
  | .addic rD rA simm => encD 12 rD rA simm
  | .addicDot rD rA simm => encD 13 rD rA simm
  | .addi rD rA simm => encD 14 rD rA simm
  | .addis rD rA simm => encD 15 rD rA simm
  | .bc bo bi bd aa lk => encB bo bi bd aa lk
  | .sc lev => encSc lev
  | .b li aa lk => encI li aa lk
  | .mcrf crfD crfS => encX 19 (crfD ++ (0#2)) (crfS ++ (0#2)) 0 0 false
  | .bclr bo bi bh lk => encX 19 bo bi ((0#3) ++ bh) 16 lk
  | .crnor crbD crbA crbB => encX 19 crbD crbA crbB 33 false
  | .rfmci => encX 19 0 0 0 38 false
  | .rfdi => encX 19 0 0 0 39 false
  | .rfi => encX 19 0 0 0 50 false
  | .rfci => encX 19 0 0 0 51 false
  | .rfgi => encX 19 0 0 0 102 false
  | .crandc crbD crbA crbB => encX 19 crbD crbA crbB 129 false
  | .isync => encX 19 0 0 0 150 false
  | .crxor crbD crbA crbB => encX 19 crbD crbA crbB 193 false
  | .dnh dui duis => encDnh dui duis
  | .crnand crbD crbA crbB => encX 19 crbD crbA crbB 225 false
  | .crand crbD crbA crbB => encX 19 crbD crbA crbB 257 false
  | .creqv crbD crbA crbB => encX 19 crbD crbA crbB 289 false
  | .crorc crbD crbA crbB => encX 19 crbD crbA crbB 417 false
  | .cror crbD crbA crbB => encX 19 crbD crbA crbB 449 false
  | .bcctr bo bi bh lk => encX 19 bo bi ((0#3) ++ bh) 528 lk
  | .rlwimi rS rA sh mb me rc => encA 20 rS rA sh mb me rc
  | .rlwinm rS rA sh mb me rc => encA 21 rS rA sh mb me rc
  | .rlwnm rS rA rB mb me rc => encA 23 rS rA rB mb me rc
  | .ori rS rA uimm => encD 24 rS rA uimm
  | .oris rS rA uimm => encD 25 rS rA uimm
  | .xori rS rA uimm => encD 26 rS rA uimm
  | .xoris rS rA uimm => encD 27 rS rA uimm
  | .andiDot rS rA uimm => encD 28 rS rA uimm
  | .andisDot rS rA uimm => encD 29 rS rA uimm
  | .cmp crfD l rA rB => encX 31 (crfD ++ (0#1) ++ l) rA rB 0 false
  | .tw tO rA rB => encX 31 tO rA rB 4 false
  | .subfc rD rA rB oe rc => encXo rD rA rB oe 8 rc
  | .addc rD rA rB oe rc => encXo rD rA rB oe 10 rc
  | .mulhwu rD rA rB rc => encXo rD rA rB false 11 rc
  | .isel rD rA rB crbC => encA 31 rD rA rB crbC 15 false
  | .tlbilx t rA rB => encX 31 ((0#3) ++ t) rA rB 18 false
  | .mfcr rD => encCrm rD false 0 19
  | .mfocrf rD crm => encCrm rD true crm 19
  | .lwarx rD rA rB => encX 31 rD rA rB 20 false
  | .icbt ct rA rB => encX 31 ((0#1) ++ ct) rA rB 22 false
  | .lwzx rD rA rB => encX 31 rD rA rB 23 false
  | .slw rS rA rB rc => encX 31 rS rA rB 24 rc
  | .cntlzw rS rA rc => encX 31 rS rA 0 26 rc
  | .and rS rA rB rc => encX 31 rS rA rB 28 rc
  | .lwepx rD rA rB => encX 31 rD rA rB 31 false
  | .cmpl crfD l rA rB => encX 31 (crfD ++ (0#1) ++ l) rA rB 32 false
  | .subf rD rA rB oe rc => encXo rD rA rB oe 40 rc
  | .dcbst rA rB => encX 31 0 rA rB 54 false
  | .lwzux rD rA rB => encX 31 rD rA rB 55 false
  | .andc rS rA rB rc => encX 31 rS rA rB 60 rc
  | .wait wc => encX 31 ((0#3) ++ wc) 0 0 62 false
  | .dcbstep rA rB => encX 31 0 rA rB 63 false
  | .mulhw rD rA rB rc => encXo rD rA rB false 75 rc
  | .mfmsr rD => encX 31 rD 0 0 83 false
  | .dcbf rA rB => encX 31 0 rA rB 86 false
  | .lbzx rD rA rB => encX 31 rD rA rB 87 false
  | .lbepx rD rA rB => encX 31 rD rA rB 95 false
  | .neg rD rA oe rc => encXo rD rA 0 oe 104 rc
  | .lbzux rD rA rB => encX 31 rD rA rB 119 false
  | .nor rS rA rB rc => encX 31 rS rA rB 124 rc
  | .dcbfep rA rB => encX 31 0 rA rB 127 false
  | .wrtee rS => encX 31 rS 0 0 131 false
  | .dcbtstls ct rA rB => encX 31 ((0#1) ++ ct) rA rB 134 false
  | .subfe rD rA rB oe rc => encXo rD rA rB oe 136 rc
  | .adde rD rA rB oe rc => encXo rD rA rB oe 138 rc
  | .mtcrf rS crm => encCrm rS false crm 144
  | .mtocrf rS crm => encCrm rS true crm 144
  | .mtmsr rS => encX 31 rS 0 0 146 false
  | .stwcxDot rS rA rB => encX 31 rS rA rB 150 true
  | .stwx rS rA rB => encX 31 rS rA rB 151 false
  | .stwepx rS rA rB => encX 31 rS rA rB 159 false
  | .wrteei e => encX 31 0 0 ((ofBool e) ++ (0#4)) 163 false
  | .dcbtls ct rA rB => encX 31 ((0#1) ++ ct) rA rB 166 false
  | .stwux rS rA rB => encX 31 rS rA rB 183 false
  | .subfze rD rA oe rc => encXo rD rA 0 oe 200 rc
  | .addze rD rA oe rc => encXo rD rA 0 oe 202 rc
  | .msgsnd rB => encX 31 0 0 rB 206 false
  | .stbx rS rA rB => encX 31 rS rA rB 215 false
  | .stbepx rS rA rB => encX 31 rS rA rB 223 false
  | .icblc ct rA rB => encX 31 ((0#1) ++ ct) rA rB 230 false
  | .subfme rD rA oe rc => encXo rD rA 0 oe 232 rc
  | .addme rD rA oe rc => encXo rD rA 0 oe 234 rc
  | .mullw rD rA rB oe rc => encXo rD rA rB oe 235 rc
  | .msgclr rB => encX 31 0 0 rB 238 false
  | .dcbtst th rA rB => encX 31 ((0#1) ++ th) rA rB 246 false
  | .stbux rS rA rB => encX 31 rS rA rB 247 false
  | .dcbtstep th rA rB => encX 31 ((0#1) ++ th) rA rB 255 false
  | .add rD rA rB oe rc => encXo rD rA rB oe 266 rc
  | .ehpriv oc => encOc oc
  | .dcbt th rA rB => encX 31 ((0#1) ++ th) rA rB 278 false
  | .lhzx rD rA rB => encX 31 rD rA rB 279 false
  | .eqv rS rA rB rc => encX 31 rS rA rB 284 rc
  | .lhepx rD rA rB => encX 31 rD rA rB 287 false
  | .lhzux rD rA rB => encX 31 rD rA rB 311 false
  | .xor rS rA rB rc => encX 31 rS rA rB 316 rc
  | .dcbtep th rA rB => encX 31 ((0#1) ++ th) rA rB 319 false
  | .mfpmr rD pmrn => encSpr 31 rD pmrn 334 false
  | .mfspr rD spr => encSpr 31 rD spr 339 false
  | .lhax rD rA rB => encX 31 rD rA rB 343 false
  | .mftb rD tbr => encSpr 31 rD tbr 371 false
  | .lhaux rD rA rB => encX 31 rD rA rB 375 false
  | .dcblc ct rA rB => encX 31 ((0#1) ++ ct) rA rB 390 false
  | .sthx rS rA rB => encX 31 rS rA rB 407 false
  | .orc rS rA rB rc => encX 31 rS rA rB 412 rc
  | .sthepx rS rA rB => encX 31 rS rA rB 415 false
  | .sthux rS rA rB => encX 31 rS rA rB 439 false
  | .or rS rA rB rc => encX 31 rS rA rB 444 rc
  | .divwu rD rA rB oe rc => encXo rD rA rB oe 459 rc
  | .mtpmr rS pmrn => encSpr 31 rS pmrn 462 false
  | .mtspr rS spr => encSpr 31 rS spr 467 false
  | .dcbi rA rB => encX 31 0 rA rB 470 false
  | .nand rS rA rB rc => encX 31 rS rA rB 476 rc
  | .dsn rA rB => encX 31 0 rA rB 483 false
  | .icbtls ct rA rB => encX 31 ((0#1) ++ ct) rA rB 486 false
  | .divw rD rA rB oe rc => encXo rD rA rB oe 491 rc
  | .mcrxr crfD => encX 31 (crfD ++ (0#2)) 0 0 512 false
  | .lbdx rD rA rB => encX 31 rD rA rB 515 false
  | .lwbrx rD rA rB => encX 31 rD rA rB 534 false
  | .lfsx frD rA rB => encX 31 frD rA rB 535 false
  | .srw rS rA rB rc => encX 31 rS rA rB 536 rc
  | .lhdx rD rA rB => encX 31 rD rA rB 547 false
  | .tlbsync => encX 31 0 0 0 566 false
  | .lfsux frD rA rB => encX 31 frD rA rB 567 false
  | .lwdx rD rA rB => encX 31 rD rA rB 579 false
  | .sync l => encX 31 ((0#3) ++ l) 0 0 598 false
  | .lfdx frD rA rB => encX 31 frD rA rB 599 false
  | .lfdepx frD rA rB => encX 31 frD rA rB 607 false
  | .lfdux frD rA rB => encX 31 frD rA rB 631 false
  | .stbdx rS rA rB => encX 31 rS rA rB 643 false
  | .stwbrx rS rA rB => encX 31 rS rA rB 662 false
  | .stfsx frS rA rB => encX 31 frS rA rB 663 false
  | .sthdx rS rA rB => encX 31 rS rA rB 675 false
  | .stfsux frS rA rB => encX 31 frS rA rB 695 false
  | .stwdx rS rA rB => encX 31 rS rA rB 707 false
  | .stfdx frS rA rB => encX 31 frS rA rB 727 false
  | .stfdepx frS rA rB => encX 31 frS rA rB 735 false
  | .dcba rA rB => encX 31 0 rA rB 758 false
  | .dcbal rA rB => encX 31 1 rA rB 758 false
  | .stfdux frS rA rB => encX 31 frS rA rB 759 false
  | .tlbivax rA rB => encX 31 0 rA rB 786 false
  | .lhbrx rD rA rB => encX 31 rD rA rB 790 false
  | .sraw rS rA rB rc => encX 31 rS rA rB 792 rc
  | .lfddx frD rA rB => encX 31 frD rA rB 803 false
  | .srawi rS rA sh rc => encX 31 rS rA sh 824 rc
  | .mbar mo => encX 31 mo 0 0 854 false
  | .tlbsx rA rB => encX 31 0 rA rB 914 false
  | .sthbrx rS rA rB => encX 31 rS rA rB 918 false
  | .extsh rS rA rc => encX 31 rS rA 0 922 rc
  | .stfddx frS rA rB => encX 31 frS rA rB 931 false
  | .tlbre => encX 31 0 0 0 946 false
  | .extsb rS rA rc => encX 31 rS rA 0 954 rc
  | .tlbwe => encX 31 0 0 0 978 false
  | .icbi rA rB => encX 31 0 rA rB 982 false
  | .stfiwx frS rA rB => encX 31 frS rA rB 983 false
  | .icbiep rA rB => encX 31 0 rA rB 991 false
  | .dcbz rA rB => encX 31 0 rA rB 1014 false
  | .dcbzl rA rB => encX 31 1 rA rB 1014 false
  | .dcbzep rA rB => encX 31 0 rA rB 1023 false
  | .dcbzlep rA rB => encX 31 1 rA rB 1023 false
  | .lwz rD rA d => encD 32 rD rA d
  | .lwzu rD rA d => encD 33 rD rA d
  | .lbz rD rA d => encD 34 rD rA d
  | .lbzu rD rA d => encD 35 rD rA d
  | .stw rS rA d => encD 36 rS rA d
  | .stwu rS rA d => encD 37 rS rA d
  | .stb rS rA d => encD 38 rS rA d
  | .stbu rS rA d => encD 39 rS rA d
  | .lhz rD rA d => encD 40 rD rA d
  | .lhzu rD rA d => encD 41 rD rA d
  | .lha rD rA d => encD 42 rD rA d
  | .lhau rD rA d => encD 43 rD rA d
  | .sth rS rA d => encD 44 rS rA d
  | .sthu rS rA d => encD 45 rS rA d
  | .lmw rD rA d => encD 46 rD rA d
  | .stmw rS rA d => encD 47 rS rA d
  | .lfs frD rA d => encD 48 frD rA d
  | .lfsu frD rA d => encD 49 frD rA d
  | .lfd frD rA d => encD 50 frD rA d
  | .lfdu frD rA d => encD 51 frD rA d
  | .stfs frS rA d => encD 52 frS rA d
  | .stfsu frS rA d => encD 53 frS rA d
  | .stfd frS rA d => encD 54 frS rA d
  | .stfdu frS rA d => encD 55 frS rA d
  | .fdivs frD frA frB rc => encA 59 frD frA frB 0 18 rc
  | .fsubs frD frA frB rc => encA 59 frD frA frB 0 20 rc
  | .fadds frD frA frB rc => encA 59 frD frA frB 0 21 rc
  | .fres frD frB rc => encA 59 frD 0 frB 0 24 rc
  | .fmuls frD frA frC rc => encA 59 frD frA 0 frC 25 rc
  | .fmsubs frD frA frC frB rc => encA 59 frD frA frB frC 28 rc
  | .fmadds frD frA frC frB rc => encA 59 frD frA frB frC 29 rc
  | .fnmsubs frD frA frC frB rc => encA 59 frD frA frB frC 30 rc
  | .fnmadds frD frA frC frB rc => encA 59 frD frA frB frC 31 rc
  | .fcmpu crfD frA frB => encX 63 (crfD ++ (0#2)) frA frB 0 false
  | .frsp frD frB rc => encX 63 frD 0 frB 12 rc
  | .fctiw frD frB rc => encX 63 frD 0 frB 14 rc
  | .fctiwz frD frB rc => encX 63 frD 0 frB 15 rc
  | .fdiv frD frA frB rc => encA 63 frD frA frB 0 18 rc
  | .fsub frD frA frB rc => encA 63 frD frA frB 0 20 rc
  | .fadd frD frA frB rc => encA 63 frD frA frB 0 21 rc
  | .fsel frD frA frC frB rc => encA 63 frD frA frB frC 23 rc
  | .fmul frD frA frC rc => encA 63 frD frA 0 frC 25 rc
  | .frsqrte frD frB rc => encA 63 frD 0 frB 0 26 rc
  | .fmsub frD frA frC frB rc => encA 63 frD frA frB frC 28 rc
  | .fmadd frD frA frC frB rc => encA 63 frD frA frB frC 29 rc
  | .fnmsub frD frA frC frB rc => encA 63 frD frA frB frC 30 rc
  | .fnmadd frD frA frC frB rc => encA 63 frD frA frB frC 31 rc
  | .fcmpo crfD frA frB => encX 63 (crfD ++ (0#2)) frA frB 32 false
  | .mtfsb1 crbD rc => encX 63 crbD 0 0 38 rc
  | .fneg frD frB rc => encX 63 frD 0 frB 40 rc
  | .mcrfs crfD crfS => encX 63 (crfD ++ (0#2)) (crfS ++ (0#2)) 0 64 false
  | .mtfsb0 crbD rc => encX 63 crbD 0 0 70 rc
  | .fmr frD frB rc => encX 63 frD 0 frB 72 rc
  | .mtfsfi crfD imm rc => encX 63 (crfD ++ (0#2)) 0 (imm ++ (0#1)) 134 rc
  | .fnabs frD frB rc => encX 63 frD 0 frB 136 rc
  | .fabs frD frB rc => encX 63 frD 0 frB 264 rc
  | .mffs frD rc => encX 63 frD 0 0 583 rc
  | .mtfsf fm frB rc => encFm fm frB rc

/-- What the decoder reads from an instruction given as a number, as the opcode table numbers its
bits: the word goes out as four bytes, most significant first, and through `decodeBytes`. -/
def decodeTableWord (_nbits w : Nat) : Option Instr :=
  match decodeBytes (bytesOfWord (BitVec.ofNat 32 w)) with
  | .ok (i, _) => some i
  | .error _ => none

end Sys2Proof
end

