-- ==== Sys2Proof/Machine/Fetch.lean ====
section
/-! DEFINITION. Instruction fetch (60 R627 step 1; 20 R283; 61 R653, R658, R668). -/

namespace Sys2Proof.Machine

/-- Instruction TLB error interrupt (61 R668). -/
def State.instrTlbError (s : State) : State :=
  (s.loadMasOnMiss (s.gs && bit s.ctl.epcr 34) s.fetchCtx s.pc).takeInterrupt
    { kind := .instrTlbError, guest := s.gs && bit s.ctl.epcr 34, async := false, ret := s.pc, esr := none,
      dear := none }

/-- Instruction storage interrupt: (G)ESR becomes 0 (61 R658). -/
def State.instrStorage (s : State) : State :=
  s.takeInterrupt
    { kind := .instrStorage, guest := s.gs && bit s.ctl.epcr 36, async := false, ret := s.pc, esr := some 0,
      dear := none }

/-- Where the four bytes of the next instruction lie. -/
def State.fetchPlace (s : State) : Except (AccessFail × Word) Placed := s.placeRange s.fetchCtx .execute s.pc 4

/-- The reads by which a fetch reaches a device: none for a word that an earlier fetch brought with its fetch group (71
R845), else from a caching-inhibited page the burst of a cache line (20 R292), from another the word (log 22). -/
def State.fetchReads (s : State) (p : Placed) : List (List (BitVec 36) × Option (BitVec 4)) :=
  if s.hid.fetched = some p.ra then [] else [(if p.i then blockOf p.ra 64 else p.bytes, none)]

/-- Read the bytes of an instruction. -/
def State.fetchPlaced (p : Placed) (s : State) : Nat × State :=
  if s.regionOf p.bytes = none then (s.readPlaced p, s) else s.readDevice (s.fetchReads p) p

/-- The next instruction word and the state after the fetch, which a device can answer (log 22), or the end of the
step. -/
def State.fetch (s : State) : Except Out (Word × State) :=
  match s.fetchPlace with
  | .error (.xlate .miss, _) => .error (.next s.instrTlbError)
  | .error (.xlate .multiple, ea) => .error (s.multipleHit 0x00010000 ea)
  | .error (_, _) => .error (.next s.instrStorage)
  | .ok p =>
    if s.regionOf p.bytes = some .absent then .error (s.errorReport (0x00010000 ||| s.busErrorBit))
    else .ok (BitVec.ofNat 32 (s.fetchPlaced p).1, (s.fetchPlaced p).2)

/-- The fetch ends in an error report: a detected multiple hit, or an absent address (61 R653; 20 R280). -/
def State.fetchReports (s : State) : Bool :=
  match s.fetchPlace with
  | .error (.xlate .multiple, _) => bit s.ctl.hid0 33
  | .error (_, _) => false
  | .ok p => s.regionOf p.bytes == some .absent

/-! ### Fetch groups (71 R845) -/

/-- The instructions after which the next one is fetched anew: isync and the returns, which synchronize the context. -/
def refetches : Instr → Bool
  | .isync | .rfi | .rfgi | .rfci | .rfdi | .rfmci => true
  | _ => false

/-- After a step that began in s, ran an instruction and left the state t: the real address of the next word of the
instruction's fetch group, if that is fetched from a caching-inhibited page of a device and the machine goes on with it.
DESIGN CHOICE, unsafe: a group is all that follows in the 16 bytes, and it is kept from a step to the next alone, also
after a change of XER[SO], whose refetch 71 R846 calls a performance fact (log 94). -/
def State.groupLeft (s : State) (i : Option Instr) (t : State) : Option (BitVec 36) :=
  match i, s.fetchPlace with
  | some j, .ok p =>
    if p.i ∧ s.regionOf p.bytes = some .device ∧ p.ra.toNat % 16 < 12 ∧ t.running ∧ t.log.interrupts = [] ∧
        refetches j = false ∧ t.pc = s.pc + 4 then
      some (p.ra + 4)
    else none
  | none, _ | some _, .error _ => none

end Sys2Proof.Machine
end

