-- ==== Sys2Proof/Machine/Run.lean ====
section
/-! DEFINITION. What one step does around the meaning of an instruction: events of the environment, asynchronous
interrupts, instruction address compare, fetch and decode, the debug events that follow, the performance monitor
(60 R613, R627; 62 R720; 63 R742, R746, R747, R749). -/

namespace Sys2Proof.Machine

/-- The return instructions: their ICMP event is tested with MSR[DE] as it was before (63 R746). -/
def isReturn : Instr → Bool
  | .rfi | .rfgi | .rfci | .rfdi | .rfmci => true
  | _ => false

/-- An interrupt of the standard class, for IRPT (63 R747), or of the critical class, for CIRPT (63 R749). -/
def IntKind.takenBit (k : IntKind) (s : State) : Word :=
  match k.savePair false with
  | .srr | .gsrr => s.enabledBit 38 dbIrpt
  | .csrr => s.enabledBit 57 dbCirpt
  | .dsrr | .mcsrr => 0

/-- The bits of the interrupts that a state's record holds. -/
def State.takenBits (s : State) : Word :=
  match s.log.interrupts with
  | k :: _ => k.takenBit s
  | [] => 0

/-- The debug conditions recognised after an instruction or an interrupt entry: IRPT, CIRPT, ICMP. -/
def State.afterEvents (de : Bool) (s : State) : State :=
  s.debugAfter (s.takenBits ||| (if s.log.completed then s.enabledBit 36 dbIcmp else 0)) de (s.takenBits ≠ 0)

/-- The bits of an IAC event that does not stop the instruction, recorded when that completes or takes an interrupt, but
for an error report, which is of a higher priority (60 R626 c; 63 R742, R752). DESIGN CHOICE, unsafe: they are recorded
for a dnh that halts, too (log 97). -/
def State.recordIac (a : DebugAction) (s : State) : State :=
  if s.log.interrupts.contains .errorReport then s
  else
    match a with
    | .record b => s.setDbsr (s.dbg.dbsr ||| b)
    | .mark b => s.markEdbsr b
    | .ignore | .interrupt _ | .halt _ => s

/-- Record the IAC conditions for the performance monitor. -/
def State.noteIac (s : State) : State :=
  { s with log := { s.log with iac1 := s.iacConditions.1, iac2 := s.iacConditions.2, iacPair := s.iacPaired } }

/-- Fetch, decode and execute; a word that is no instruction is illegal (60 R627 step 2). -/
def State.fetchExec (s : State) : Option Instr × Out :=
  match s.fetch with
  | .error o => (none, o)
  | .ok (w, t) =>
    match decode w with
    | .error _ => (none, t.illegal)
    | .ok i => (some i, exec i t)

/-- What follows the execution of an instruction that began in s and reached the state t. -/
def State.afterInstr (s : State) (i : Option Instr) (t : State) : State :=
  (t.recordIac (s.debugAction s.iacEvents s.de)).afterEvents
    (if t.log.completed && (i.map isReturn).getD false then s.de else t.de)

/-- One instruction from its fetch on. -/
def State.runFetched (s : State) : Option Instr × Out :=
  match s.fetchExec with
  | (i, .next t) => (i, .next (s.afterInstr i t))
  | (i, .fault r) => (i, .fault r)
  | (i, .refused r) => (i, .refused r)

/-- One instruction, from the instruction address compare on. An event of that compare comes before every other exception
of the instruction but an error report of its fetch (60 R625, R627 step 1; 63 R742). -/
def State.runInstr (s : State) : Option Instr × Out :=
  match s.debugAction s.iacEvents s.de with
  | .interrupt b => if s.fetchReports then s.runFetched else (none, .next (s.takeDebug b s.pc false))
  | .halt b => if s.fetchReports then s.runFetched else (none, .next (s.haltForDebug b s.pc))
  | .ignore | .record _ | .mark _ => s.runFetched

/-- What the core does in a step, after the events of the environment (60 R613, 62 R720). -/
def State.act (s : State) : Option Instr × Out :=
  if s.running then
    match s.asyncPending with
    | some k =>
      let t := s.takeAsync k
      (none, .next (t.afterEvents t.de))
    | none => if s.hid.waiting then (none, .next s) else s.noteIac.runInstr
  else (none, .next s)

/-- The end of a step whose instruction began in s: the performance monitor, which goes by that state (63 R780), and the
rest of its fetch group. -/
def State.closeStep (s : State) (i : Option Instr) (t : State) : State :=
  (s.endStep i t).setFetched (s.groupLeft i t)

/-- One step: the environment, the core, the end of the step. -/
def State.oneStep (s : State) : Out :=
  match s.beginStep.noteUde.act with
  | (i, .next t) => .next (s.beginStep.noteUde.closeStep i t)
  | (_, .fault r) => .fault r
  | (_, .refused r) => .refused r

/-- The state with an instruction word stored where the next fetch reads it, in the byte order of its page. -/
def State.placeInstr (w : Word) (s : State) : State :=
  match s.fetchPlace with
  | .ok p => s.writeBytes (p.cells w.toNat)
  | .error _ => s

end Sys2Proof.Machine
end

