-- ==== Sys2Proof/Machine/Step.lean ====
section
/-! DEFINITION. One step of the machine, and the placing of an instruction where the next step fetches it. -/

namespace Sys2Proof.Machine

/-- One step (60 R613, R627). -/
def step (s : State) : Host.Outcome State Fault Refusal := s.oneStep

/-- The state whose next step runs the instruction with these bits. Every instruction is one 32-bit word. -/
def State.withFetchWord (s : State) (_nbits w : Nat) : State := s.placeInstr (BitVec.ofNat 32 w)

end Sys2Proof.Machine
end

