-- ==== Sys2Proof/Safety.lean ====
section
/-! DEFINITION. What claims call a safe run, the invariant of the machine, and the words in which the statements about
instructions are made: what an instruction may change, that it completes, that an access goes through. -/

namespace Sys2Proof.Machine

/-- A step that reaches a next state. -/
def goesOn (s : State) : Bool :=
  match step s with
  | .next _ => true
  | .fault _ | .refused _ => false

/-- A run of k steps that neither faults nor is refused. -/
def SafeFor (k : Nat) (s : State) : Prop := ∃ t, Sys2Proof.core.run k s = .next t

/-- FPSCR[VX] and FPSCR[FEX] say what the exception and enable bits say, and the reserved bit is 0 (10 R28). -/
def fpscrConsistent (f : Word) : Prop := fpSummary f = f ∧ f &&& 0x00000800 = 0

/-- The invariant that every step keeps: storage is in its canonical form, the next instruction address is a word
address (10 R46), the reserved bits of MSR and XER are 0 (10 R37, R40, U3), and FPSCR is consistent. -/
structure State.Inv (s : State) : Prop where
  memory : s.mem.wf
  aligned : s.pc &&& 3 = 0
  reserved : s.msr &&& ~~~msrDefined = 0
  xer : s.xer &&& 0x1FFFFF80 = 0
  fpscr : fpscrConsistent s.fpscr

/-! ### Frames -/

/-- What an instruction may change of the state that software sees: registers by number, bits of CR, XER and FPSCR by
mask, other registers and groups of registers by a flag. -/
structure Effect where
  gprs  : List (BitVec 5) := []
  fprs  : List (BitVec 5) := []
  cr    : Word := 0
  xer   : Word := 0
  fpscr : Word := 0
  lr    : Bool := false
  ctr   : Bool := false
  msr   : Bool := false
  cache : Bool := false
  mmu   : Bool := false
  hid   : Bool := false
  pm    : Bool := false

/-- Two words agree outside a mask. -/
def agreeBut (mask a b : Word) : Prop := a &&& ~~~mask = b &&& ~~~mask

/-- From s to t nothing changed but what the effect allows, the next instruction address, storage and the model's own
bookkeeping. The control, interrupt, SPRG, timer and debug registers, the inputs and the address map never do. -/
structure Keeps (e : Effect) (s t : State) : Prop where
  gprs  : ∀ r, r ∉ e.gprs → t.getGpr r = s.getGpr r
  fprs  : ∀ r, r ∉ e.fprs → t.getFpr r = s.getFpr r
  cr    : agreeBut e.cr t.cr s.cr
  xer   : agreeBut e.xer t.xer s.xer
  fpscr : agreeBut e.fpscr t.fpscr s.fpscr
  lr    : e.lr = false → t.lr = s.lr
  ctr   : e.ctr = false → t.ctr = s.ctr
  msr   : e.msr = false → t.msr = s.msr
  cache : e.cache = false → t.cache = s.cache
  mmu   : e.mmu = false → t.mmu = s.mmu
  hid   : e.hid = false → t.hid = s.hid
  pm    : e.pm = false → t.pm = s.pm
  ctl   : t.ctl = s.ctl
  int   : t.int = s.int
  sprgs : t.sprgs = s.sprgs
  tim   : t.tim = s.tim
  dbg   : t.dbg = s.dbg
  env   : t.env = s.env
  map   : t.physMap = s.physMap

/-- Every byte of storage reads as before, but those at the listed addresses. -/
def StorageKept (but : List (BitVec 36)) (s t : State) : Prop := ∀ a, a ∉ but → t.readByte a = s.readByte a

/-- The instruction answers a next state, the one after it is next, nothing else changed but what the effect allows and
the listed bytes, and the state has a property. -/
def Does (i : Instr) (s : State) (e : Effect) (but : List (BitVec 36)) (p : State → Prop) : Prop :=
  ∃ t, exec i s = .next t ∧ t.pc = s.pc + 4 ∧ Keeps e s t ∧ StorageKept but s t ∧ p t

/-! ### Flags -/

/-- The CR bits of field n. -/
def crFieldMask (n : BitVec 3) : Word := (0xF : Word) <<< (28 - 4 * n.toNat)

/-- The CR field n holds LT, GT, EQ, SO of these truth values. -/
def CrFieldIs (n : BitVec 3) (lt gt eq so : Prop) (t : State) : Prop :=
  (bit t.cr (32 + 4 * n.toNat) = true ↔ lt) ∧ (bit t.cr (33 + 4 * n.toNat) = true ↔ gt) ∧
    (bit t.cr (34 + 4 * n.toNat) = true ↔ eq) ∧ (bit t.cr (35 + 4 * n.toNat) = true ↔ so)

/-- With Rc, CR0 records the comparison of a result with 0 and the XER[SO] that the instruction leaves (40 R400). -/
def Records (rc : Bool) (res : Word) (t : State) : Prop :=
  rc = true → CrFieldIs 0 (res.toInt < 0) (0 < res.toInt) (res.toInt = 0) (bit t.xer 32 = true) t

/-- With OE, OV says whether the result overflowed and SO accumulates it (40 R401). -/
def Overflows (oe : Bool) (ov : Prop) (s t : State) : Prop :=
  oe = true → (bit t.xer 33 = true ↔ ov) ∧ (bit t.xer 32 = true ↔ bit s.xer 32 = true ∨ ov)

/-- A 32-bit signed number cannot hold this. -/
def notInt32 (v : Int) : Prop := v < -2 ^ 31 ∨ 2 ^ 31 ≤ v

/-- CR bits that Rc lets an integer instruction change, and XER bits that OE lets it change. -/
def rcMask (rc : Bool) : Word := if rc then 0xF0000000 else 0
def oeMask (oe : Bool) : Word := if oe then 0xC0000000 else 0

/-! ### Accesses -/

/-- An access of n bytes goes through: it is translated, permitted and aligned, it reaches storage at p, and no debug
event responds to it. -/
structure Reaches (s : State) (a : Access) (ea : Word) (n : Nat) (p : Placed) : Prop where
  placed  : s.place a ea n = .ok p
  storage : s.regionOf p.bytes = none
  quiet   : s.debugAction (s.partEvents a.dacWrite ea n) s.de = .ignore

/-- The bytes at p hold the number v: the first byte is the most significant one in a big-endian page, the least
significant one in a little-endian page (20 R281). -/
def Holds (s : State) (p : Placed) (v : Nat) : Prop :=
  v < 256 ^ p.bytes.length ∧
    ∀ i (h : i < p.bytes.length),
      (s.readByte p.bytes[i]).toNat = v / 256 ^ (if p.e then i else p.bytes.length - 1 - i) % 256

/-! ### Integer instructions (40 R400, R401) -/

/-- The instruction writes x + y + c to a register, its carry to CA if it is one that records it, its overflow to OV and
SO with OE, and CR0 with Rc; nothing else. -/
def Sums (i : Instr) (s : State) (rD : BitVec 5) (x y : Word) (c : Bool) (wca oe rc : Bool) : Prop :=
  Does i s { gprs := [rD], xer := (if wca then 0x20000000 else 0) ||| oeMask oe, cr := rcMask rc } [] fun t =>
    t.getGpr rD = x + y + (if c then 1 else 0) ∧
      (wca = true → (bit t.xer 34 = true ↔ 2 ^ 32 ≤ x.toNat + y.toNat + c.toNat)) ∧
      Overflows oe (notInt32 (x.toInt + y.toInt + c.toNat)) s t ∧ Records rc (t.getGpr rD) t

/-- The instruction writes a result to a register, with OE whether it overflowed, and with Rc CR0; nothing else. -/
def Writes (i : Instr) (s : State) (r : BitVec 5) (v : Word) (ov : Prop) (oe rc : Bool) : Prop :=
  Does i s { gprs := [r], xer := oeMask oe, cr := rcMask rc } [] fun t =>
    t.getGpr r = v ∧ Overflows oe ov s t ∧ Records rc v t

/-- The instruction compares: one CR field, nothing else. -/
def Compares (i : Instr) (s : State) (crfD : BitVec 3) (lt gt eq : Prop) : Prop :=
  Does i s { cr := crFieldMask crfD } [] (CrFieldIs crfD lt gt eq (bit s.xer 32 = true))

/-- The instruction writes a register bit by bit, bits numbered from 0 at the right, and with Rc CR0; nothing else. -/
def WritesBits (i : Instr) (s : State) (r : BitVec 5) (f : Nat → Bool) (rc : Bool) : Prop :=
  Does i s { gprs := [r], cr := rcMask rc } [] fun t =>
    (∀ n, n < 32 → (t.getGpr r).getLsbD n = f n) ∧ Records rc (t.getGpr r) t

/-- The instruction writes a register and CA, and with Rc CR0; nothing else. -/
def ShiftsAlgebraic (i : Instr) (s : State) (rA : BitVec 5) (v : Int) (ca : Prop) (rc : Bool) : Prop :=
  Does i s { gprs := [rA], xer := 0x20000000, cr := rcMask rc } [] fun t =>
    (t.getGpr rA).toInt = v ∧ (bit t.xer 34 = true ↔ ca) ∧ Records rc (t.getGpr rA) t

/-- A bit position, numbered from 0 at the left, from mb to me, around the end if mb is greater. -/
def inMask (mb me : BitVec 5) (k : Nat) : Bool :=
  if mb.toNat ≤ me.toNat then decide (mb.toNat ≤ k ∧ k ≤ me.toNat) else decide (mb.toNat ≤ k ∨ k ≤ me.toNat)

/-! ### Branches, conditions, interrupts -/

/-- The mask of one CR bit, numbered from 0 at the left. -/
def crBitMask (n : BitVec 5) : Word := (0x80000000 : Word) >>> n.toNat

/-- The instruction writes one CR bit; nothing else. -/
def SetsCrBit (i : Instr) (s : State) (n : BitVec 5) (v : Bool) : Prop :=
  Does i s { cr := crBitMask n } [] fun t => bit t.cr (32 + n.toNat) = v

/-- The CR bits of the fields that an eight-bit field mask selects, its leftmost bit for field 0. -/
def crFields (crm : BitVec 8) (w : Word) (old : Word) (t : State) : Prop :=
  ∀ n, n < 32 → bit t.cr (32 + n) = if crm.getLsbD (7 - n / 4) then bit w (32 + n) else bit old (32 + n)

/-- The instruction branches: the next address, LR and CTR; nothing else. A taken branch is no debug event. -/
def Branches (i : Instr) (s : State) (taken : Bool) (target ctr : Word) (lk : Bool) : Prop :=
  (taken = true → s.debugAction (s.enabledBit 37 dbBrt) s.de = .ignore) →
    ∃ t, exec i s = .next t ∧ t.pc = (if taken then target else s.pc + 4) ∧
      t.lr = (if lk then s.pc + 4 else s.lr) ∧ t.ctr = ctr ∧ Keeps { lr := true, ctr := true } s t ∧ StorageKept [] s t

/-- BranchCond (43 R1000) with the counter's value after the decrement. -/
def branchTaken (bo bi : BitVec 5) (ctr cr : Word) : Bool :=
  (bo.getLsbD 2 || (decide (ctr ≠ 0) ^^ bo.getLsbD 1)) && (bo.getLsbD 4 || bit cr (32 + bi.toNat) == bo.getLsbD 3)

/-- The instruction ends in an interrupt, and does nothing else; the model's own bookkeeping apart. -/
def Enters (i : Instr) (s : State) (k : IntKind) (guest : Bool) (ret : Word) (esr dear : Option Word) : Prop :=
  ∃ l d, exec i s =
    .next { s.takeInterrupt { kind := k, guest := guest, async := false, ret := ret, esr := esr, dear := dear } with
            log := l, draws := d }

/-- The condition of a trap instruction (43 R1020). -/
def Traps (tO : BitVec 5) (a b : Word) : Prop :=
  (tO.getLsbD 4 = true ∧ a.toInt < b.toInt) ∨ (tO.getLsbD 3 = true ∧ b.toInt < a.toInt) ∨
    (tO.getLsbD 2 = true ∧ a = b) ∨ (tO.getLsbD 1 = true ∧ a.toNat < b.toNat) ∨
    (tO.getLsbD 0 = true ∧ b.toNat < a.toNat)

/-! ### Loads and stores -/

/-- An access that goes through loads the n bytes there as one number into a general-purpose register, by a function;
nothing else changes. -/
def LoadsGpr (i : Instr) (s : State) (a : Access) (ea : Word) (n : Nat) (rD : BitVec 5) (f : Nat → Word) : Prop :=
  ∀ p, Reaches s a ea n p → ∃ v, p.bytes.length = n ∧ Holds s p v ∧
    Does i s { gprs := [rD] } [] fun t => t.getGpr rD = f v

/-- The same with rA receiving EA (41 R481). -/
def LoadsGprUpdate (i : Instr) (s : State) (ea : Word) (n : Nat) (rD rA : BitVec 5) (f : Nat → Word) : Prop :=
  ∀ p, Reaches s .load ea n p → ∃ v, p.bytes.length = n ∧ Holds s p v ∧
    Does i s { gprs := [rD, rA] } [] fun t =>
      rA ≠ 0 → rA ≠ rD → t.getGpr rD = f v ∧ t.getGpr rA = ea

/-- The same into a floating-point register. -/
def LoadsFpr (i : Instr) (s : State) (a : Access) (ea : Word) (n : Nat) (frD : BitVec 5) (f : Nat → DWord) : Prop :=
  ∀ p, Reaches s a ea n p → ∃ v, p.bytes.length = n ∧ Holds s p v ∧
    Does i s { fprs := [frD] } [] fun t => t.getFpr frD = f v

/-- The same with rA receiving EA. -/
def LoadsFprUpdate (i : Instr) (s : State) (ea : Word) (n : Nat) (frD rA : BitVec 5) (f : Nat → DWord) : Prop :=
  ∀ p, Reaches s .fpLoad ea n p → ∃ v, p.bytes.length = n ∧ Holds s p v ∧
    Does i s { fprs := [frD], gprs := [rA] } [] fun t => t.getFpr frD = f v ∧ (rA ≠ 0 → t.getGpr rA = ea)

/-- An access that goes through stores the n low bytes of a number there; no other byte and no register changes. -/
def StoresBytes (i : Instr) (s : State) (a : Access) (ea : Word) (n v : Nat) : Prop :=
  ∀ p, Reaches s a ea n p → p.bytes.length = n ∧ Does i s {} p.bytes fun t => Holds t p (v % 256 ^ n)

/-- The same with rA receiving EA (41 R481). -/
def StoresUpdate (i : Instr) (s : State) (a : Access) (ea : Word) (n v : Nat) (rA : BitVec 5) : Prop :=
  ∀ p, Reaches s a ea n p → p.bytes.length = n ∧
    Does i s { gprs := [rA] } p.bytes fun t => Holds t p (v % 256 ^ n) ∧ (rA ≠ 0 → t.getGpr rA = ea)

/-- A register, or 0 where rA is 0. -/
def orZero (s : State) (rA : BitVec 5) : Word := if rA = 0 then 0 else s.getGpr rA

/-- No debug event interrupts, halts or is recorded: external debug mode is off and DBCR0[IDM] is 0 (63 R741). -/
def DebugOff (s : State) : Prop := bit s.dbg.edbcr0 32 = false ∧ bit s.dbg.dbcr0 33 = false

/-- The components of the virtual address of an access in the running context, with the address space that the MSR bit of
a fetch (IS) or of a data access (DS) gives (21 R331). -/
def runningContext (s : State) (space : Bool) : Ctx :=
  { gs := bit s.msr 35, lpid := BitVec.ofNat 6 s.mmu.lpidr.toNat, as := space, pid := BitVec.ofNat 8 s.mmu.pid.toNat,
    pr := bit s.msr 49 }

/-- The fields EGS, ELPID, EAS, EPID and EPR of EPLC or EPSC in their place (41 R544). -/
def externalContext (w : Word) : Ctx :=
  { gs := bit w 34, lpid := BitVec.ofNat 6 (w.toNat / 2 ^ 16), as := bit w 33, pid := BitVec.ofNat 8 w.toNat,
    pr := bit w 32 }

/-- The context of a data access: MSR[DS] and the running registers, EPLC for an external-PID load, EPSC for an
external-PID store (21 R331). -/
def accessContext (s : State) : PidContext → Ctx
  | .running => runningContext s (bit s.msr 59)
  | .extLoad => externalContext s.mmu.eplc
  | .extStore => externalContext s.mmu.epsc

/-- The data access of a load, a store, lwarx or stwcx.: what it is, its effective address and its size; of lmw and
stmw, the first word. -/
def memAccess (s : State) : Instr → Option (Access × Word × Nat)
  | .lbz _ rA d => some (.load, orZero s rA + d.signExtend 32, 1)
  | .lhz _ rA d | .lha _ rA d => some (.load, orZero s rA + d.signExtend 32, 2)
  | .lwz _ rA d => some (.load, orZero s rA + d.signExtend 32, 4)
  | .lbzu _ rA d => some (.load, s.getGpr rA + d.signExtend 32, 1)
  | .lhzu _ rA d | .lhau _ rA d => some (.load, s.getGpr rA + d.signExtend 32, 2)
  | .lwzu _ rA d => some (.load, s.getGpr rA + d.signExtend 32, 4)
  | .lbzx _ rA rB => some (.load, orZero s rA + s.getGpr rB, 1)
  | .lhzx _ rA rB | .lhax _ rA rB | .lhbrx _ rA rB => some (.load, orZero s rA + s.getGpr rB, 2)
  | .lwzx _ rA rB | .lwbrx _ rA rB => some (.load, orZero s rA + s.getGpr rB, 4)
  | .lbzux _ rA rB => some (.load, s.getGpr rA + s.getGpr rB, 1)
  | .lhzux _ rA rB | .lhaux _ rA rB => some (.load, s.getGpr rA + s.getGpr rB, 2)
  | .lwzux _ rA rB => some (.load, s.getGpr rA + s.getGpr rB, 4)
  | .lbdx _ _ rB => some (.load, s.getGpr rB, 1)
  | .lhdx _ _ rB => some (.load, s.getGpr rB, 2)
  | .lwdx _ _ rB => some (.load, s.getGpr rB, 4)
  | .lbepx _ rA rB => some (Access.load.external, orZero s rA + s.getGpr rB, 1)
  | .lhepx _ rA rB => some (Access.load.external, orZero s rA + s.getGpr rB, 2)
  | .lwepx _ rA rB => some (Access.load.external, orZero s rA + s.getGpr rB, 4)
  | .lmw _ rA d => some ({ Access.load with aligned := true }, orZero s rA + d.signExtend 32, 4)
  | .lwarx _ rA rB => some (.lwarx, orZero s rA + s.getGpr rB, 4)
  | .lfs _ rA d => some (.fpLoad, orZero s rA + d.signExtend 32, 4)
  | .lfd _ rA d => some (.fpLoad, orZero s rA + d.signExtend 32, 8)
  | .lfsu _ rA d => some (.fpLoad, s.getGpr rA + d.signExtend 32, 4)
  | .lfdu _ rA d => some (.fpLoad, s.getGpr rA + d.signExtend 32, 8)
  | .lfsx _ rA rB => some (.fpLoad, orZero s rA + s.getGpr rB, 4)
  | .lfdx _ rA rB => some (.fpLoad, orZero s rA + s.getGpr rB, 8)
  | .lfsux _ rA rB => some (.fpLoad, s.getGpr rA + s.getGpr rB, 4)
  | .lfdux _ rA rB => some (.fpLoad, s.getGpr rA + s.getGpr rB, 8)
  | .lfddx _ _ rB => some (.fpLoad, s.getGpr rB, 8)
  | .lfdepx _ rA rB => some (Access.fpLoad.external, orZero s rA + s.getGpr rB, 8)
  | .stb _ rA d => some (.store, orZero s rA + d.signExtend 32, 1)
  | .sth _ rA d => some (.store, orZero s rA + d.signExtend 32, 2)
  | .stw _ rA d => some (.store, orZero s rA + d.signExtend 32, 4)
  | .stbu _ rA d => some (.store, s.getGpr rA + d.signExtend 32, 1)
  | .sthu _ rA d => some (.store, s.getGpr rA + d.signExtend 32, 2)
  | .stwu _ rA d => some (.store, s.getGpr rA + d.signExtend 32, 4)
  | .stbx _ rA rB => some (.store, orZero s rA + s.getGpr rB, 1)
  | .sthx _ rA rB | .sthbrx _ rA rB => some (.store, orZero s rA + s.getGpr rB, 2)
  | .stwx _ rA rB | .stwbrx _ rA rB => some (.store, orZero s rA + s.getGpr rB, 4)
  | .stbux _ rA rB => some (.store, s.getGpr rA + s.getGpr rB, 1)
  | .sthux _ rA rB => some (.store, s.getGpr rA + s.getGpr rB, 2)
  | .stwux _ rA rB => some (.store, s.getGpr rA + s.getGpr rB, 4)
  | .stbdx _ _ rB | .dsn _ rB => some (.store, s.getGpr rB, 1)
  | .sthdx _ _ rB => some (.store, s.getGpr rB, 2)
  | .stwdx _ _ rB => some (.store, s.getGpr rB, 4)
  | .stbepx _ rA rB => some (Access.store.external, orZero s rA + s.getGpr rB, 1)
  | .sthepx _ rA rB => some (Access.store.external, orZero s rA + s.getGpr rB, 2)
  | .stwepx _ rA rB => some (Access.store.external, orZero s rA + s.getGpr rB, 4)
  | .stmw _ rA d => some ({ Access.store with aligned := true }, orZero s rA + d.signExtend 32, 4)
  | .stwcxDot _ rA rB => some (.stwcx, orZero s rA + s.getGpr rB, 4)
  | .stfs _ rA d => some (.fpStore, orZero s rA + d.signExtend 32, 4)
  | .stfd _ rA d => some (.fpStore, orZero s rA + d.signExtend 32, 8)
  | .stfsu _ rA d => some (.fpStore, s.getGpr rA + d.signExtend 32, 4)
  | .stfdu _ rA d => some (.fpStore, s.getGpr rA + d.signExtend 32, 8)
  | .stfsx _ rA rB | .stfiwx _ rA rB => some (.fpStore, orZero s rA + s.getGpr rB, 4)
  | .stfdx _ rA rB => some (.fpStore, orZero s rA + s.getGpr rB, 8)
  | .stfsux _ rA rB => some (.fpStore, s.getGpr rA + s.getGpr rB, 4)
  | .stfdux _ rA rB => some (.fpStore, s.getGpr rA + s.getGpr rB, 8)
  | .stfddx _ _ rB => some (.fpStore, s.getGpr rB, 8)
  | .stfdepx _ rA rB => some (Access.fpStore.external, orZero s rA + s.getGpr rB, 8)
  | _ => none

/-- The modes that an access needs: MSR[FP] for a floating-point one, supervisor state for an external-PID one. -/
def accessAllowed (s : State) (a : Access) : Prop :=
  (a.fp = true → bit s.msr 50 = true) ∧ (a.ctx ≠ .running → bit s.msr 49 = false)

/-- From a state u that it has reached, the instruction ends in an interrupt; before it the MAS registers may be loaded,
and nothing else changes. -/
def EntersFrom (i : Instr) (s u : State) (m : Mmu) (k : IntKind) (guest : Bool) (esr dear : Word) : Prop :=
  ∃ l d, exec i s =
    .next { ({ u with mmu := m }).takeInterrupt
              { kind := k, guest := guest, async := false, ret := u.pc, esr := some esr, dear := some dear } with
            log := l, draws := d }

/-- The MMU after a TLB error of an access in a context, field by field (13 R244 column a; 21 R358): MAS0 proposes the
victim, MAS1, MAS2 and MAS6 describe the page, MAS3 is 0, and MAS7 with HID0[EN_MAS7_UPDATE]. An error that goes to the
hypervisor with EPCR[DMIUH] changes nothing (21 R359). -/
def missedMmu (s : State) (guest : Bool) (c : Ctx) (ea : Word) : Mmu :=
  let m := s.mmu
  let nv := (m.nv[ea.toNat / 4096 % 128]'(Nat.mod_lt _ (by decide))).toNat
  if guest = false ∧ bit s.ctl.epcr 41 = true then m
  else
    { m with
      mas0 := BitVec.ofNat 32 (if bit m.mas4 35 then 2 ^ 28 else nv * 2 ^ 16 + (nv + 1) % 4)
      mas1 := BitVec.ofNat 32 (2 ^ 31 + c.pid.toNat * 2 ^ 16 + c.as.toNat * 2 ^ 12) ||| (m.mas4 &&& 0xF00)
      mas2 := (ea &&& 0xFFFFF000) ||| (m.mas4 &&& 0x7F)
      mas3 := 0
      mas6 := BitVec.ofNat 32 (c.pid.toNat * 2 ^ 16 + c.as.toNat)
      mas7 := if bit s.ctl.hid0 56 then 0 else m.mas7 }

/-- The state after the error report of a multiple hit (21 R337; 61 R653): MCSR takes the hit and the bit of the access,
and unless it holds an address already, the page of this one with MAV and MEA. -/
def hitReported (u : State) (report ea : Word) : State :=
  let mav := bit u.int.mcsr 44
  { u with
    int := { u.int with
      mcsrr0 := u.pc
      mcsrr1 := u.msr
      mcsr := u.int.mcsr ||| 0x08000000 ||| report ||| (if mav then 0 else 0x000C0000)
      mcar := if mav then u.int.mcar else (ea &&& 0xFFFFF000).setWidth 64 }
    msr := 0
    pc := (u.int.ivpr &&& (0xFFFF0000 : Word)) ||| ((u.int.ivor[1] : Word) &&& 0xFFF0)
    hid := { u.hid with waiting := false }
    log := { u.log with interrupts := .errorReport :: u.log.interrupts } }

/-- From a state u that it has reached, the instruction ends in the error report of a multiple hit; the model's own
bookkeeping apart. -/
def ReportsHits (i : Instr) (s u : State) (report ea : Word) : Prop :=
  ∃ l d, exec i s = .next { hitReported u report ea with log := l, draws := d }

/-- From a state u that it has reached, the instruction ends as an access that is not made does, by the reason and the
address of the failure (60 R627; 61 R657, R660, R667; 21 R337). The report of a multiple hit has MCSR[ST] for a store and
a cache-block instruction, MCSR[LD] for a load (D34). -/
def Fails (i : Instr) (s u : State) (a : Access) (f : AccessFail) (ea : Word) : Prop :=
  let directed (n : Nat) : Bool := bit u.msr 35 && bit u.ctl.epcr n
  match f with
  | .xlate .miss =>
    EntersFrom i s u (missedMmu u (directed 33) (accessContext u a.ctx) ea) .dataTlbError (directed 33) a.esr ea
  | .xlate .denied | .storageSync => EntersFrom i s u u.mmu .dataStorage (directed 35) a.esr ea
  | .xlate .virtualization => EntersFrom i s u u.mmu .dataStorage false a.esr ea
  | .byteOrder => EntersFrom i s u u.mmu .dataStorage (directed 35) (a.esr ||| 0x00020000) ea
  | .alignment => EntersFrom i s u u.mmu .alignment false a.esr ea
  | .xlate .multiple =>
    if bit u.ctl.hid0 33 then ReportsHits i s u (if a.storeReport then 0x4000 else 0x8000) ea
    else exec i s = .fault .overlappingTlbEntries

/-- An lmw from rD on completes: each register to r31 holds the word at its place; nothing else changes. -/
def LoadsWords (i : Instr) (s : State) (rD : BitVec 5) (ps : Nat → Placed) : Prop :=
  Does i s { gprs := (List.range (32 - rD.toNat)).map fun k => rD + BitVec.ofNat 5 k } [] fun t =>
    ∀ k, rD.toNat + k < 32 → Holds s (ps k) (t.getGpr (rD + BitVec.ofNat 5 k)).toNat

/-- The effective address of word k of an lmw. In the invalid form that loads rA too, the words after it come from the
value loaded there, if the base moves, or from the base read first (R515, U26). -/
def lmwAddress (s : State) (rD rA : BitVec 5) (d : BitVec 16) (moves : Bool) (loaded : Word) (k : Nat) : Word :=
  (if moves = true ∧ rA ≠ 0 ∧ rD.toNat ≤ rA.toNat ∧ rA.toNat < rD.toNat + k then loaded else orZero s rA) +
    d.signExtend 32 + BitVec.ofNat 32 (4 * k)

/-! ### Floating point -/

/-- With Rc, CR1 is a copy of FPSCR[FX,FEX,VX,OX] (10 R34). -/
def CopiesToCr1 (rc : Bool) (t : State) : Prop :=
  rc = true → ∀ n, n < 4 → bit t.cr (36 + n) = bit t.fpscr (32 + n)

/-- The CR bits that Rc lets a floating-point instruction change. -/
def rcMask1 (rc : Bool) : Word := if rc then 0x0F000000 else 0

/-- Neither MSR[FE0] nor MSR[FE1] is 1. -/
def FeOff (s : State) : Prop := bit s.msr 52 = false ∧ bit s.msr 55 = false

/-- The instruction writes a floating-point register and with Rc CR1; nothing else. -/
def MovesFpr (i : Instr) (s : State) (frD : BitVec 5) (rc : Bool) (p : DWord → Prop) : Prop :=
  Does i s { fprs := [frD], cr := rcMask1 rc } [] fun t => p (t.getFpr frD) ∧ CopiesToCr1 rc t

/-- The instruction computes: it may write a floating-point register, the status bits of FPSCR and with Rc CR1, and
nothing else; no exception bit of FPSCR falls, and FEX and VX say what the others do. Then it completes, unless FEX is 1
and MSR[FE0] or MSR[FE1] too: then it ends in a program interrupt with ESR[FP] (42 R903). -/
def Computes (i : Instr) (s : State) (frD : BitVec 5) (rc : Bool) : Prop :=
  ∃ u : State, u.pc = s.pc ∧ Keeps { fprs := [frD], cr := rcMask1 rc, fpscr := 0xFFFFFF00 } s u ∧
    StorageKept [] s u ∧ CopiesToCr1 rc u ∧ s.fpscr &&& fpExceptions &&& ~~~u.fpscr = 0 ∧
    fpSummary u.fpscr = u.fpscr ∧
    (FeOff s ∨ bit u.fpscr 33 = false → exec i s = .next u.advance) ∧
    (¬FeOff s ∧ bit u.fpscr 33 = true → exec i s = .next (u.takeHere .program (some 0x01000000) none))

/-- With MSR[FE0] and MSR[FE1] 0 the instruction completes, its register holds a value, the given FPSCR exception bits
are 1, and FPRF is as given. -/
def Delivers (i : Instr) (s : State) (frD : BitVec 5) (v : DWord) (exc : Word) (fprf : BitVec 5) : Prop :=
  FeOff s → ∃ t, exec i s = .next t ∧ t.pc = s.pc + 4 ∧ t.getFpr frD = v ∧ t.fpscr &&& exc = exc ∧
    t.fpscr.extractLsb' 12 5 = fprf

/-! #### Values and rounding (42 R901, R902) -/

/-- The number that a finite double stands for (42 R901). -/
def valueOf (d : DWord) : ℚ :=
  (if d.msb then -1 else 1) *
    (if d.extractLsb' 52 11 = 0 then (d.setWidth 52).toNat * (2 : ℚ) ^ (-1074 : ℤ)
     else (2 ^ 52 + (d.setWidth 52).toNat) * (2 : ℚ) ^ ((d.extractLsb' 52 11).toNat - 1075 : ℤ))

/-- A double that is neither an infinity nor a NaN. -/
def isFinite (d : DWord) : Prop := d.extractLsb' 52 11 ≠ 2047

/-- n units are v rounded under RN: less than a unit away, and the multiple that the mode chooses (42 R902). -/
def RoundsTo (rn : BitVec 2) (unit v : ℚ) (n : ℤ) : Prop :=
  |n * unit - v| < unit ∧ (rn = 0 → 2 * |n * unit - v| ≤ unit ∧ (2 * |n * unit - v| = unit → 2 ∣ n)) ∧
    (rn = 1 → |n * unit| ≤ |v|) ∧ (rn = 2 → v ≤ n * unit) ∧ (rn = 3 → n * unit ≤ v)

/-- r is v rounded to p significant bits. -/
def RoundsToBits (p : Nat) (rn : BitVec 2) (v r : ℚ) : Prop :=
  ∃ x n : ℤ, let unit : ℚ := 2 ^ (x - (p - 1))
    2 ^ x ≤ |v| ∧ |v| < 2 ^ (x + 1) ∧ r = n * unit ∧ RoundsTo rn unit v n

/-- A format's significant bits, least exponent and greatest exponent. -/
structure FloatFormat where
  p    : Nat
  emin : ℤ
  emax : ℤ

def doubleFormat : FloatFormat := { p := 53, emin := -1022, emax := 1023 }
def singleFormat : FloatFormat := { p := 24, emin := -126, emax := 127 }

/-- A magnitude that a format holds as a normalised number, whichever way it is rounded. -/
def InRange (fmt : FloatFormat) (v : ℚ) : Prop :=
  2 ^ fmt.emin ≤ |v| ∧ |v| ≤ (2 - 2 ^ (1 - fmt.p : ℤ)) * 2 ^ fmt.emax

/-- The instruction completes, and delivers v rounded to a format, with the other sign if it negates: FI says whether the
result differs from v, which is inexact, FR whether its magnitude is greater, FPRF is the normal class (42 R902, R904). -/
def DeliversRounded (i : Instr) (s : State) (frD : BitVec 5) (fmt : FloatFormat) (neg : Bool) (v : ℚ) : Prop :=
  ∃ t r, exec i s = .next t ∧ t.pc = s.pc + 4 ∧ isFinite (t.getFpr frD) ∧
    valueOf (t.getFpr frD) = (if neg then -r else r) ∧ RoundsToBits fmt.p (s.fpscr.setWidth 2) v r ∧
    (bit t.fpscr 46 = true ↔ r ≠ v) ∧ (bit t.fpscr 45 = true ↔ |v| < |r|) ∧ (r ≠ v → bit t.fpscr 38 = true) ∧
    t.fpscr.extractLsb' 12 5 = if valueOf (t.getFpr frD) < 0 then 0b01000 else 0b00100

/-- The instruction completes, and delivers an exact zero of a sign: FR and FI are 0, FPRF is the zero class. -/
def DeliversZero (i : Instr) (s : State) (frD : BitVec 5) (sign : Bool) : Prop :=
  ∃ t, exec i s = .next t ∧ t.pc = s.pc + 4 ∧ t.getFpr frD = BitVec.ofBool sign ++ (0 : BitVec 63) ∧
    bit t.fpscr 45 = false ∧ bit t.fpscr 46 = false ∧
    t.fpscr.extractLsb' 12 5 = if sign then 0b10010 else 0b00010

/-- The first NaN of a list of operands, made quiet (42 R908). -/
def firstNan (l : List DWord) : DWord := (l.find? isNan).getD 0 ||| 0x0008000000000000

/-- A double that is no NaN, as a number that orders doubles as their values: sign and magnitude. -/
def numericOrder (d : DWord) : Int := if d.msb then -((d.setWidth 63).toNat : Int) else ((d.setWidth 63).toNat : Int)

/-- The instructions that need MSR[FP]: every floating-point load, store, move, arithmetic instruction, comparison and
FPSCR access (10 R26). -/
def usesFp : Instr → Bool
  | .lfs .. | .lfsu .. | .lfsx .. | .lfsux .. | .lfd .. | .lfdu .. | .lfdx .. | .lfdux .. | .lfddx .. | .lfdepx ..
  | .stfs .. | .stfsu .. | .stfsx .. | .stfsux .. | .stfd .. | .stfdu .. | .stfdx .. | .stfdux .. | .stfiwx ..
  | .stfddx .. | .stfdepx ..
  | .fadd .. | .fadds .. | .fsub .. | .fsubs .. | .fmul .. | .fmuls .. | .fdiv .. | .fdivs .. | .fres .. | .frsqrte ..
  | .fsel .. | .fmadd .. | .fmadds .. | .fmsub .. | .fmsubs .. | .fnmadd .. | .fnmadds .. | .fnmsub .. | .fnmsubs ..
  | .frsp .. | .fctiw .. | .fctiwz .. | .fcmpu .. | .fcmpo .. | .mffs .. | .mcrfs .. | .mtfsfi .. | .mtfsf ..
  | .mtfsb0 .. | .mtfsb1 .. | .fmr .. | .fneg .. | .fabs .. | .fnabs .. => true
  | _ => false

/-! ### Privilege (45 R1110) -/

/-- The instructions that user state may not execute, but guest supervisor state may (tlbilx unless EPCR[DGTMI]). -/
def supervisorClass : Instr → Bool
  | .rfi | .rfgi | .mfmsr .. | .mtmsr .. | .wrtee .. | .wrteei .. | .dcbi .. | .lbepx .. | .lhepx .. | .lwepx ..
  | .lfdepx .. | .stbepx .. | .sthepx .. | .stwepx .. | .stfdepx .. | .dcbfep .. | .dcbstep .. | .dcbtep ..
  | .dcbtstep .. | .dcbzep .. | .dcbzlep .. | .icbiep .. | .tlbilx .. => true
  | _ => false

/-- The instructions that only hypervisor state may execute. -/
def hypervisorClass : Instr → Bool
  | .rfci | .rfdi | .rfmci | .msgsnd .. | .msgclr .. | .tlbivax .. | .tlbre | .tlbsx .. | .tlbsync | .tlbwe => true
  | _ => false

/-- Hypervisor state, and supervisor state of either kind. -/
def InHypervisor (s : State) : Prop := bit s.msr 49 = false ∧ bit s.msr 35 = false
def InSupervisor (s : State) : Prop := bit s.msr 49 = false

/-! ### Special registers (10 R60) -/

/-- The SPR numbers of the classes user, guest supervisor and hypervisor. -/
def sprUserNumbers : List Nat :=
  [1, 8, 9, 256, 259, 260, 261, 262, 263, 268, 269, 515, 516, 517, 519, 526, 527, 576, 975]
def sprGuestNumbers : List Nat :=
  [26, 27, 48, 61, 62, 272, 273, 274, 275, 276, 277, 278, 279, 286, 287, 368, 369, 370, 371, 378, 379, 380, 381, 382,
   383, 605, 624, 625, 626, 627, 628, 630, 702, 944, 947, 948, 1023]
def sprHypervisorNumbers : List Nat :=
  [22, 54, 58, 59, 63, 284, 285, 304, 306, 307, 308, 309, 310, 311, 312, 313, 316, 317, 336, 338, 339, 340, 341, 400,
   401, 402, 403, 404, 405, 406, 407, 408, 409, 410, 411, 412, 413, 414, 415, 432, 433, 434, 435, 440, 441, 442, 443,
   444, 445, 447, 531, 532, 533, 563, 569, 570, 571, 572, 573, 574, 575, 604, 606, 688, 689, 696, 720, 721, 722, 723,
   724, 725, 983, 984, 985, 986, 987, 988, 989, 990, 991, 1008, 1010, 1011, 1012, 1013, 1015, 1017, 1018]

/-- The numbers that cannot be written, and the one that cannot be read. -/
def sprReadOnly : List Nat :=
  [259, 260, 261, 262, 263, 268, 269, 287, 515, 516, 519, 526, 527, 569, 573, 688, 689, 702, 1015, 1023]
def sprWriteOnly : List Nat := [306]

/-- Registers that the guest supervisor reads and only the hypervisor writes: PIR, GPIR, the guest vectors (61 R690). -/
def sprGuestReads : List Nat := [286, 382, 440, 441, 442, 443, 444, 445, 447]

/-- mfspr of a number, and mftb of the same number, write a value to a register; nothing else. -/
def ReadsSpr (s : State) (rD : BitVec 5) (n : BitVec 10) (p : Word → Prop) : Prop :=
  Does (.mfspr rD n) s { gprs := [rD] } [] (fun t => p (t.getGpr rD)) ∧
    Does (.mftb rD n) s { gprs := [rD] } [] (fun t => p (t.getGpr rD))

/-- mtspr of a number completes; this is the state but for the next instruction address. -/
def WritesSpr (s : State) (rS : BitVec 5) (n : BitVec 10) (t : State) : Prop :=
  exec (.mtspr rS n) s = .next t.advance

/-! ### Translation (21 R330 to R339) -/

/-- The bytes of a page: 4096 in TLB0; 1024 * 4 ^ TSIZE in TLB1 for TSIZE 1 to 11 (21 R334). -/
def pageBytes (l : TlbLoc) (e : TlbEntry) : Nat :=
  match l with
  | .tlb0 _ _ => 4096
  | .tlb1 _ => if 1 ≤ e.tsize.toNat ∧ e.tsize.toNat ≤ 11 then 1024 * 4 ^ e.tsize.toNat else 4096

/-- The place is in TLB1, or in the TLB0 set of the address (21 R333). -/
def candidateFor (l : TlbLoc) (ea : Word) : Prop :=
  match l with
  | .tlb0 set _ => set.toNat = ea.toNat / 4096 % 128
  | .tlb1 _ => True

/-- The entry is for the page of the address. -/
def pageHolds (l : TlbLoc) (e : TlbEntry) (ea : Word) : Prop :=
  e.epn.toNat * 4096 / pageBytes l e = ea.toNat / pageBytes l e

/-- The entry at a place matches the virtual address (21 R335). -/
def entryMatches (m : Mmu) (c : Ctx) (ea : Word) (l : TlbLoc) : Prop :=
  let e := m.entry l
  candidateFor l ea ∧ e.v = true ∧ e.ts = c.as ∧ e.tgs = c.gs ∧ (e.tlpid = c.lpid ∨ e.tlpid = 0) ∧
    (e.tid = c.pid ∨ e.tid = 0) ∧ pageHolds l e ea

/-- The permission bit that an access needs (21 R339): UX, SX, UW, SW, UR, SR from the left. -/
def permitted (e : TlbEntry) (k : AccessKind) (pr : Bool) : Bool :=
  match k, pr with
  | .execute, true => e.perm.getLsbD 5
  | .execute, false => e.perm.getLsbD 4
  | .write, true => e.perm.getLsbD 3
  | .write, false => e.perm.getLsbD 2
  | .read, true => e.perm.getLsbD 1
  | .read, false => e.perm.getLsbD 0

/-- The place that MAS0 and MAS2 select (21 R348). -/
def chosenEntry (m : Mmu) : TlbLoc :=
  if bit m.mas0 35 then .tlb1 (BitVec.ofNat 6 (m.mas0.toNat / 2 ^ 16))
  else .tlb0 (BitVec.ofNat 7 (m.mas2.toNat / 4096)) (BitVec.ofNat 2 (m.mas0.toNat / 2 ^ 16))

/-- The entry that the MAS registers describe, field by field (21 R349). TLB0 has no IPROT and one page size; a size that
TLB1 does not have is 4 Kbytes (log 74). -/
def describedEntry (m : Mmu) : TlbEntry :=
  let one := bit m.mas0 35
  let size := m.mas1.toNat / 256 % 16
  { v := bit m.mas1 32
    iprot := one && bit m.mas1 33
    tid := BitVec.ofNat 8 (m.mas1.toNat / 2 ^ 16)
    ts := bit m.mas1 51
    tsize := if one = true ∧ 1 ≤ size ∧ size ≤ 11 then BitVec.ofNat 4 size else 1
    epn := BitVec.ofNat 20 (m.mas2.toNat / 4096)
    rpn := BitVec.ofNat 24 (m.mas7.toNat % 16 * 2 ^ 20 + m.mas3.toNat / 4096)
    x := BitVec.ofNat 2 (m.mas2.toNat / 32)
    wimge := BitVec.ofNat 5 m.mas2.toNat
    u := BitVec.ofNat 4 (m.mas3.toNat / 64)
    perm := BitVec.ofNat 6 m.mas3.toNat
    tgs := bit m.mas8 32
    vf := bit m.mas8 33
    tlpid := BitVec.ofNat 6 m.mas8.toNat }

/-- The next-victim number of the set of a place; 0 for TLB1 (21 R352). -/
def victimOf (m : Mmu) (l : TlbLoc) : BitVec 2 :=
  match l with
  | .tlb0 set _ => m.nv[set.toNat]'set.isLt
  | .tlb1 _ => 0

/-- The MAS registers show the entry that a state holds at a place (13 R244 columns b and d): MAS1, MAS2, MAS3, MAS8, and
MAS7 with HID0[EN_MAS7_UPDATE]. TLB0 shows no IPROT, the size 1 and the set as the low bits of the page number. -/
def ShowsEntry (s : State) (l : TlbLoc) (m : Mmu) : Prop :=
  let e := s.mmu.entry l
  m.mas1.toNat = e.v.toNat * 2 ^ 31 + e.tid.toNat * 2 ^ 16 + e.ts.toNat * 2 ^ 12 +
    (match l with | .tlb0 .. => 2 ^ 8 | .tlb1 _ => e.iprot.toNat * 2 ^ 30 + e.tsize.toNat * 2 ^ 8) ∧
  m.mas2.toNat = (match l with | .tlb0 set _ => e.epn.toNat / 128 * 128 + set.toNat | .tlb1 _ => e.epn.toNat) * 4096 +
    e.x.toNat * 32 + e.wimge.toNat ∧
  m.mas3.toNat = e.rpn.toNat % 2 ^ 20 * 4096 + e.u.toNat * 64 + e.perm.toNat ∧
  m.mas7 = (if bit s.ctl.hid0 56 then BitVec.ofNat 32 (e.rpn.toNat / 2 ^ 20) else s.mmu.mas7) ∧
  m.mas8.toNat = e.tgs.toNat * 2 ^ 31 + e.vf.toNat * 2 ^ 30 + e.tlpid.toNat

/-- Invalidation of the selected entries clears their valid bits, but not those of TLB1 entries with IPROT (21 R346), and
changes nothing else of the MMU but MAS0[NV] and TLB0[NV], which become any values (log 20). -/
def Invalidates (i : Instr) (s : State) (selected : TlbLoc → TlbEntry → Prop) : Prop :=
  Does i s { mmu := true } [] fun t =>
    (∀ l, let e := s.mmu.entry l
      (selected l e ∧ (∀ n, l = .tlb1 n → e.iprot = false) → t.mmu.entry l = { e with v := false }) ∧
      (¬(selected l e ∧ (∀ n, l = .tlb1 n → e.iprot = false)) → t.mmu.entry l = e)) ∧
    { t.mmu with
      tlb0 := s.mmu.tlb0, tlb1 := s.mmu.tlb1, nv := s.mmu.nv, mas0 := t.mmu.mas0 &&& 0xFFFFFFFC } =
      { s.mmu with mas0 := s.mmu.mas0 &&& 0xFFFFFFFC }

/-! ### Asynchronous interrupts -/

/-- The asynchronous interrupts by falling priority (60 R625, D32), each with the condition on which it is pending and
enabled (60 R611, R612; 63 R751, R783). The external debugger holds back machine checks, critical and external ones by
EDBCR0[EDMEO], [EDCEO] and [EDEEO] (14 R272). The debug entry is an unconditional event, or a status bit that MSR[DE] lets
interrupt; the program entry is the delayed floating-point enabled exception. -/
def asyncDue (s : State) : List (IntKind × Bool) :=
  let gs := bit s.msr 35
  let ee := bit s.msr 48
  let ce := bit s.msr 46
  let me := bit s.msr 51
  let machineChecks := !bit s.dbg.edbcr0 35
  let criticals := !bit s.dbg.edbcr0 36
  let externals := !bit s.dbg.edbcr0 37
  let overflow (n : Fin 4) : Bool := bit s.pm.pmlca[n] 37 && bit s.pm.pmc[n] 32
  [(.nmi, decide (0 < s.env.nmi)),
   (.machineCheck, decide (s.int.mcsr &&& 0xE8000003 ≠ 0) && (me || gs) && machineChecks),
   (.guestDoorbellMachineCheck, s.hid.dbell[4] && me && gs && criticals),
   (.debug, s.env.ude || (decide (s.dbg.dbsr &&& 0xCFFFFFFF ≠ 0) && bit s.msr 54 && !bit s.dbg.edbcr0 32)),
   (.criticalInput, s.env.cint && (ce || gs) && criticals),
   (.watchdog, bit s.tim.tsr 33 && bit s.tim.tcr 36 && (ce || gs) && criticals),
   (.doorbellCritical, s.hid.dbell[1] && (ce || gs) && criticals),
   (.guestDoorbellCritical, s.hid.dbell[3] && ce && gs && criticals),
   (.externalInput, s.env.int && (if bit s.ctl.epcr 32 then ee && gs else ee || gs) && externals),
   (.program, bit s.fpscr 33 && (bit s.msr 52 || bit s.msr 55)),
   (.fixedInterval, bit s.tim.tsr 37 && bit s.tim.tcr 40 && (ee || gs) && externals),
   (.decrementer, bit s.tim.tsr 36 && bit s.tim.tcr 37 && (ee || gs) && externals),
   (.doorbell, s.hid.dbell[0] && (ee || gs) && externals),
   (.guestDoorbell, s.hid.dbell[2] && ee && gs && externals),
   (.perfMonitor, bit s.pm.pmgc0 33 && decide (∃ n, overflow n = true) && (ee || gs) && externals)]

/-- An asynchronous interrupt is entered: it returns to the next instruction (60 R602). -/
def enteredAsync (s : State) (k : IntKind) (guest : Bool) (esr : Option Word) : State :=
  s.takeInterrupt { kind := k, guest := guest, async := true, ret := s.pc, esr := esr, dear := none }

/-- What taking each asynchronous interrupt does besides its entry: a doorbell is no longer pending (62 R712,
by the spec's own inference: G22), an NMI is
used up and sets MCSR[NMI] (61 R655, D33), the external input is directed to the guest by EPCR[EXTGS] and gives (G)EPR the
vector of external proxy, with the acknowledge, or 0 (61 R656; log 39), an unconditional event sets DBSR[UDE] and
DBSR[IDE], or in external debug mode halts the core (63 R741, R751). -/
def TakesAsync (s : State) : Prop :=
  let doorbell (k : IntKind) (n : Fin 5) : Prop :=
    s.takeAsync k = enteredAsync { s with hid := { s.hid with dbell := s.hid.dbell.set n false } } k false none
  let guest := bit s.msr 35 && bit s.ctl.epcr 32
  let external := enteredAsync s .externalInput guest none
  let vector := s.env.proxy.getD 0
  let seen : State := { s with env := { s.env with ude := false } }
  (∀ k ∈ [.machineCheck, .criticalInput, .watchdog, .fixedInterval, .decrementer, .perfMonitor],
    s.takeAsync k = enteredAsync s k false none) ∧
  s.takeAsync .program = enteredAsync s .program false (some 0x01000000) ∧
  doorbell .doorbell 0 ∧ doorbell .doorbellCritical 1 ∧ doorbell .guestDoorbell 2 ∧ doorbell .guestDoorbellCritical 3 ∧
  doorbell .guestDoorbellMachineCheck 4 ∧
  s.takeAsync .nmi =
    enteredAsync
      { s with env := { s.env with nmi := s.env.nmi - 1 }, int := { s.int with mcsr := s.int.mcsr ||| 0x00100000 } }
      .nmi false none ∧
  s.takeAsync .externalInput =
    { external with
      int := if guest then { external.int with gepr := vector } else { external.int with epr := vector }
      log := { external.log with proxyAck := s.env.proxy.isSome } } ∧
  (s.env.ude = false → s.takeAsync .debug = enteredAsync s .debug false none) ∧
  (s.env.ude = true → s.running = true →
    (bit s.dbg.edbcr0 32 = true → s.takeAsync .debug =
      { seen with
        dbg := { s.dbg with edbsr0 := 0x40000000, prsr := s.dbg.prsr ||| 0x08000000 }
        hid := { s.hid with dbgHalted := true } }) ∧
    (bit s.dbg.edbcr0 32 = false → bit s.dbg.dbcr0 33 = true → bit s.msr 54 = true → s.takeAsync .debug =
      enteredAsync { seen with dbg := { s.dbg with dbsr := s.dbg.dbsr ||| 0xC0000000 } } .debug false none))

/-! ### Cache blocks -/

/-- The real addresses of the n-byte block that holds the first byte of an access. -/
def blockBytes (p : Placed) (n : Nat) : List (BitVec 36) :=
  (List.range n).map fun k => BitVec.ofNat 36 ((p.bytes.headD 0).toNat / n * n + k)

/-- The number of the 64-byte block that holds the first byte of an access. -/
def blockNumber (p : Placed) : BitVec 30 := BitVec.ofNat 30 ((p.bytes.headD 0).toNat / 64)

/-- The access of a load-class cache instruction. -/
def blockRead (dacWrite : Bool) (ctx : PidContext) : Access := { Access.cacheRead dacWrite with ctx := ctx }

/-- The data access of a cache-block instruction that does not become a no-op where its byte cannot be reached: what it
is and its effective address (44 R1070, R1099). -/
def blockAccess (s : State) : Instr → Option (Access × Word)
  | .dcbf rA rB | .dcbst rA rB | .dcblc _ rA rB | .dcbtstls _ rA rB =>
    some (blockRead true .running, orZero s rA + s.getGpr rB)
  | .icbi rA rB | .dcbtls _ rA rB | .icbtls _ rA rB | .icblc _ rA rB =>
    some (blockRead false .running, orZero s rA + s.getGpr rB)
  | .dcbi rA rB | .dcbz rA rB | .dcbzl rA rB => some (.store, orZero s rA + s.getGpr rB)
  | .dcbfep rA rB | .dcbstep rA rB => some (blockRead true .extLoad, orZero s rA + s.getGpr rB)
  | .icbiep rA rB => some (blockRead false .extLoad, orZero s rA + s.getGpr rB)
  | .dcbzep rA rB | .dcbzlep rA rB => some (Access.store.external, orZero s rA + s.getGpr rB)
  | _ => none

/-- The instructions that lock a line, or clear its lock. -/
def lockClass : Instr → Bool
  | .dcbtls .. | .dcbtstls .. | .icbtls .. | .dcblc .. | .icblc .. => true
  | _ => false

/-- Who may execute a lock instruction (20 R327): user state with MSR[UCLE], supervisor state unless MSRP[UCLEP] keeps it
from a guest. -/
def mayLock (s : State) : Prop :=
  if bit s.msr 49 then bit s.msr 37 = true else bit s.msr 35 = false ∨ bit s.ctl.msrp 37 = false

/-- The state may execute a cache-block instruction. -/
def blockAllowed (s : State) (i : Instr) : Prop :=
  (supervisorClass i = true → bit s.msr 49 = false) ∧ (lockClass i = true → mayLock s)

/-- A cache-block instruction reaches its byte, and no debug event responds to it. -/
structure ReachesBlock (s : State) (a : Access) (ea : Word) (p : Placed) : Prop where
  placed : s.place a ea 1 = .ok p
  quiet  : s.debugAction (s.dacEvents a.dacWrite ea) s.de = .ignore

/-- The instruction stores zeros into the n-byte block that the access names, in storage that is neither write-through
nor caching-inhibited; no other byte and no register changes. -/
def ZeroesBlock (i : Instr) (s : State) (a : Access) (ea : Word) (n : Nat) : Prop :=
  ∀ p, ReachesBlock s a ea p → p.w = false → p.i = false → s.regionOf (blockBytes p n) = none →
    Does i s {} (blockBytes p n) fun t => ∀ x ∈ blockBytes p n, t.readByte x = 0

/-- Write-through or caching-inhibited storage makes it an alignment interrupt (61 R660). -/
def RefusesWI (i : Instr) (s : State) (a : Access) (ea : Word) : Prop :=
  ∀ p, ReachesBlock s a ea p → p.w = true ∨ p.i = true →
    Enters i s .alignment false s.pc (some a.esr) (some ea)

/-- The locked lines with one line more. -/
def withLock (b : BitVec 30) (l : List (BitVec 30)) : List (BitVec 30) := if b ∈ l then l else b :: l

/-- The locked lines without one line. -/
def withoutLock (b : BitVec 30) (l : List (BitVec 30)) : List (BitVec 30) := l.filter (· ≠ b)

/-- The block leaves caches: the caches of the next state are those of the state but for its locks, by a function of the
block; storage and everything else stays. -/
def LeavesCaches (i : Instr) (s : State) (a : Access) (ea : Word) (f : BitVec 30 → Cache → Cache) : Prop :=
  ∀ p, ReachesBlock s a ea p → Does i s { cache := true } [] fun t => t.cache = f (blockNumber p) s.cache

/-- The set of a line has a way for its lock: it is locked already, or fewer than eight lines of the set are. -/
abbrev roomFor (sets : Nat) (b : BitVec 30) (l : List (BitVec 30)) : Prop :=
  b ∈ l ∨ (l.filter fun x => x.toNat % sets = b.toNat % sets).length < 8

/-- The caches of t are as given, but for the record of the blocks that lock instructions have named. If both kinds, CT = 0
and CT = 2, have named block b since the last sync, its lock in the L1 data cache is free (log 33): `other` is the kind
that the instruction is not. -/
def CachesAre (s t : State) (b : BitVec 30) (other : Bool) (c : Cache) : Prop :=
  { t.cache with recent := c.recent, lockD := c.lockD } = c ∧ (∀ x, x ≠ b → (x ∈ t.cache.lockD ↔ x ∈ c.lockD)) ∧
    ((other, b) ∉ s.cache.recent → t.cache.lockD = c.lockD)

/-- The instruction changes the caches alone. -/
def ChangesCaches (i : Instr) (s : State) (p : State → Prop) : Prop := Does i s { cache := true } [] p

end Sys2Proof.Machine
end

