-- ==== Sys2Proof/Certificates/Slice0/Obligations.lean ====
section
/-! DEFINITION. The statements for the provers. -/

open Sys2Proof Sys2Proof.Machine

/-! ### Integer arithmetic (40_integer.md) -/

/-- R402 to R406, R408 to R418: the sums: additions and subtractions of registers and immediates. -/
def Obligations.AddSubtract : Prop :=
  ∀ (s : State) (rD rA rB : Gpr) (simm : BitVec 16) (oe rc : Bool),
    let a := s.getGpr rA
    let b := s.getGpr rB
    let ca := bit s.xer 34
    Sums (.addi rD rA simm) s rD (orZero s rA) (simm.signExtend 32) false false false false ∧
    Sums (.addis rD rA simm) s rD (orZero s rA) (simm ++ (0 : BitVec 16)) false false false false ∧
    Sums (.addic rD rA simm) s rD a (simm.signExtend 32) false true false false ∧
    Sums (.addicDot rD rA simm) s rD a (simm.signExtend 32) false true false true ∧
    Sums (.subfic rD rA simm) s rD (~~~a) (simm.signExtend 32) true true false false ∧
    Sums (.add rD rA rB oe rc) s rD a b false false oe rc ∧
    Sums (.addc rD rA rB oe rc) s rD a b false true oe rc ∧
    Sums (.adde rD rA rB oe rc) s rD a b ca true oe rc ∧
    Sums (.addme rD rA oe rc) s rD a 0xFFFFFFFF ca true oe rc ∧
    Sums (.addze rD rA oe rc) s rD a 0 ca true oe rc ∧
    Sums (.subf rD rA rB oe rc) s rD (~~~a) b true false oe rc ∧
    Sums (.subfc rD rA rB oe rc) s rD (~~~a) b true true oe rc ∧
    Sums (.subfe rD rA rB oe rc) s rD (~~~a) b ca true oe rc ∧
    Sums (.subfme rD rA oe rc) s rD (~~~a) 0xFFFFFFFF ca true oe rc ∧
    Sums (.subfze rD rA oe rc) s rD (~~~a) 0 ca true oe rc ∧
    Sums (.neg rD rA oe rc) s rD (~~~a) 0 true false oe rc

/-- R407, R419 to R421: the products. -/
def Obligations.Products : Prop :=
  ∀ (s : State) (rD rA rB : Gpr) (simm : BitVec 16) (oe rc : Bool),
    Writes (.mulli rD rA simm) s rD (BitVec.ofInt 32 ((s.getGpr rA).toInt * simm.toInt)) False false false ∧
    Writes (.mullw rD rA rB oe rc) s rD (BitVec.ofInt 32 ((s.getGpr rA).toInt * (s.getGpr rB).toInt))
      (notInt32 ((s.getGpr rA).toInt * (s.getGpr rB).toInt)) oe rc ∧
    Writes (.mulhw rD rA rB rc) s rD (BitVec.ofInt 32 ((s.getGpr rA).toInt * (s.getGpr rB).toInt / 2 ^ 32)) False
      false rc ∧
    Writes (.mulhwu rD rA rB rc) s rD (BitVec.ofNat 32 ((s.getGpr rA).toNat * (s.getGpr rB).toNat / 2 ^ 32)) False
      false rc

/-- R422, R423: the quotients. Where one is undefined the instruction completes all the same; OV and SO are set with OE,
and with Rc CR0 takes the new SO. The register and the other bits of CR0 are then free (log 12). -/
def Obligations.Quotients : Prop :=
  ∀ (s : State) (rD rA rB : Gpr) (oe rc : Bool),
    let undefined (i : Instr) : Prop :=
      Does i s { gprs := [rD], xer := oeMask oe, cr := rcMask rc } [] fun t =>
        Overflows oe True s t ∧ (rc = true → bit t.cr 35 = bit t.xer 32)
    (s.getGpr rB ≠ 0 → ¬notInt32 ((s.getGpr rA).toInt.tdiv (s.getGpr rB).toInt) →
      Writes (.divw rD rA rB oe rc) s rD (BitVec.ofInt 32 ((s.getGpr rA).toInt.tdiv (s.getGpr rB).toInt)) False oe rc) ∧
    (s.getGpr rB ≠ 0 →
      Writes (.divwu rD rA rB oe rc) s rD (BitVec.ofNat 32 ((s.getGpr rA).toNat / (s.getGpr rB).toNat)) False oe rc) ∧
    (s.getGpr rB = 0 → undefined (.divw rD rA rB oe rc) ∧ undefined (.divwu rD rA rB oe rc)) ∧
    (s.getGpr rA = 0x80000000 → s.getGpr rB = 0xFFFFFFFF → undefined (.divw rD rA rB oe rc))

/-- R424 to R427: the compares; L is ignored (log 41). -/
def Obligations.IntegerCompares : Prop :=
  ∀ (s : State) (crfD : BitVec 3) (l : BitVec 1) (rA rB : Gpr) (imm : BitVec 16),
    Compares (.cmp crfD l rA rB) s crfD ((s.getGpr rA).toInt < (s.getGpr rB).toInt)
      ((s.getGpr rB).toInt < (s.getGpr rA).toInt) (s.getGpr rA = s.getGpr rB) ∧
    Compares (.cmpi crfD l rA imm) s crfD ((s.getGpr rA).toInt < imm.toInt) (imm.toInt < (s.getGpr rA).toInt)
      ((s.getGpr rA).toInt = imm.toInt) ∧
    Compares (.cmpl crfD l rA rB) s crfD ((s.getGpr rA).toNat < (s.getGpr rB).toNat)
      ((s.getGpr rB).toNat < (s.getGpr rA).toNat) (s.getGpr rA = s.getGpr rB) ∧
    Compares (.cmpli crfD l rA imm) s crfD ((s.getGpr rA).toNat < imm.toNat) (imm.toNat < (s.getGpr rA).toNat)
      ((s.getGpr rA).toNat = imm.toNat)

/-- R428 to R441: the logical operations, bit by bit. -/
def Obligations.Logic : Prop :=
  ∀ (s : State) (rS rA rB : Gpr) (uimm : BitVec 16) (rc : Bool),
    let a (n : Nat) := (s.getGpr rS).getLsbD n
    let b (n : Nat) := (s.getGpr rB).getLsbD n
    let low (n : Nat) := uimm.getLsbD n
    let high (n : Nat) := decide (16 ≤ n) && uimm.getLsbD (n - 16)
    (WritesBits (.andiDot rS rA uimm) s rA (fun n => a n && low n) true ∧
      WritesBits (.andisDot rS rA uimm) s rA (fun n => a n && high n) true ∧
      WritesBits (.ori rS rA uimm) s rA (fun n => a n || low n) false ∧
      WritesBits (.oris rS rA uimm) s rA (fun n => a n || high n) false ∧
      WritesBits (.xori rS rA uimm) s rA (fun n => a n ^^ low n) false ∧
      WritesBits (.xoris rS rA uimm) s rA (fun n => a n ^^ high n) false) ∧
    WritesBits (.and rS rA rB rc) s rA (fun n => a n && b n) rc ∧
    WritesBits (.andc rS rA rB rc) s rA (fun n => a n && !b n) rc ∧
    WritesBits (.or rS rA rB rc) s rA (fun n => a n || b n) rc ∧
    WritesBits (.orc rS rA rB rc) s rA (fun n => a n || !b n) rc ∧
    WritesBits (.xor rS rA rB rc) s rA (fun n => a n ^^ b n) rc ∧
    WritesBits (.nand rS rA rB rc) s rA (fun n => !(a n && b n)) rc ∧
    WritesBits (.nor rS rA rB rc) s rA (fun n => !(a n || b n)) rc ∧
    WritesBits (.eqv rS rA rB rc) s rA (fun n => !(a n ^^ b n)) rc

/-- R442 to R444: sign extension, and the count of leading zeros. -/
def Obligations.ExtendAndCount : Prop :=
  ∀ (s : State) (rS rA : Gpr) (rc : Bool),
    Writes (.extsb rS rA rc) s rA (BitVec.ofInt 32 ((s.getGpr rS).setWidth 8).toInt) False false rc ∧
    Writes (.extsh rS rA rc) s rA (BitVec.ofInt 32 ((s.getGpr rS).setWidth 16).toInt) False false rc ∧
    ∃ n ≤ 32, (∀ k < n, (s.getGpr rS).getLsbD (31 - k) = false) ∧
      (n < 32 → (s.getGpr rS).getLsbD (31 - n) = true) ∧
      Writes (.cntlzw rS rA rc) s rA (BitVec.ofNat 32 n) False false rc

/-- R445 to R447: rotations under a mask. Bit n of the result, counted from the right, is bit n - sh of the source,
modulo 32, where the mask holds. -/
def Obligations.RotatesUnderMask : Prop :=
  ∀ (s : State) (rS rA rB sh mb me : BitVec 5) (rc : Bool),
    let rotated (by_ n : Nat) : Bool := (s.getGpr rS).getLsbD ((n + 32 - by_) % 32)
    WritesBits (.rlwinm rS rA sh mb me rc) s rA (fun n => inMask mb me (31 - n) && rotated sh.toNat n) rc ∧
    WritesBits (.rlwnm rS rA rB mb me rc) s rA
      (fun n => inMask mb me (31 - n) && rotated ((s.getGpr rB).toNat % 32) n) rc ∧
    WritesBits (.rlwimi rS rA sh mb me rc) s rA
      (fun n => if inMask mb me (31 - n) then rotated sh.toNat n else (s.getGpr rA).getLsbD n) rc

/-- R448 to R451: shifts by six bits of a register or five of an immediate; an algebraic one divides by a power of two,
rounding down, and CA says whether a negative source lost a one. -/
def Obligations.Shifts : Prop :=
  ∀ (s : State) (rS rA rB sh : BitVec 5) (rc : Bool),
    let n := (s.getGpr rB).toNat % 64
    let v := s.getGpr rS
    Writes (.slw rS rA rB rc) s rA (BitVec.ofNat 32 (v.toNat * 2 ^ n)) False false rc ∧
    Writes (.srw rS rA rB rc) s rA (BitVec.ofNat 32 (v.toNat / 2 ^ n)) False false rc ∧
    ShiftsAlgebraic (.sraw rS rA rB rc) s rA (v.toInt / 2 ^ n) (v.toInt < 0 ∧ v.toInt % 2 ^ n ≠ 0) rc ∧
    ShiftsAlgebraic (.srawi rS rA sh rc) s rA (v.toInt / 2 ^ sh.toNat) (v.toInt < 0 ∧ v.toInt % 2 ^ sh.toNat ≠ 0) rc

/-! ### Condition register, branches, system calls (43_branch_cr_system.md) -/

/-- R1010 to R1019, R1030 to R1034: the CR logical instructions, isel, and the moves between CR, XER and the general
registers. -/
def Obligations.ConditionMoves : Prop :=
  ∀ (s : State) (rD rA rB : Gpr) (crbD crbA crbB : BitVec 5) (crfD crfS : BitVec 3) (crm : BitVec 8),
    let a := bit s.cr (32 + crbA.toNat)
    let b := bit s.cr (32 + crbB.toNat)
    (SetsCrBit (.crand crbD crbA crbB) s crbD (a && b) ∧ SetsCrBit (.crandc crbD crbA crbB) s crbD (a && !b) ∧
      SetsCrBit (.creqv crbD crbA crbB) s crbD (!(a ^^ b)) ∧ SetsCrBit (.crnand crbD crbA crbB) s crbD (!(a && b)) ∧
      SetsCrBit (.crnor crbD crbA crbB) s crbD (!(a || b)) ∧ SetsCrBit (.cror crbD crbA crbB) s crbD (a || b) ∧
      SetsCrBit (.crorc crbD crbA crbB) s crbD (a || !b) ∧ SetsCrBit (.crxor crbD crbA crbB) s crbD (a ^^ b)) ∧
    Does (.isel rD rA rB crbA) s { gprs := [rD] } [] (fun t => t.getGpr rD =
      if a then orZero s rA else s.getGpr rB) ∧
    Does (.mcrf crfD crfS) s { cr := crFieldMask crfD } [] (fun t =>
      ∀ n, n < 4 → bit t.cr (32 + 4 * crfD.toNat + n) = bit s.cr (32 + 4 * crfS.toNat + n)) ∧
    Does (.mcrxr crfD) s { cr := crFieldMask crfD, xer := 0xF0000000 } [] (fun t =>
      (∀ n, n < 4 → bit t.cr (32 + 4 * crfD.toNat + n) = bit s.xer (32 + n)) ∧
      ∀ n, n < 4 → bit t.xer (32 + n) = false) ∧
    Does (.mtcrf rA crm) s { cr := 0xFFFFFFFF } [] (crFields crm (s.getGpr rA) s.cr) ∧
    Does (.mtocrf rA crm) s { cr := 0xFFFFFFFF } [] (crFields crm (s.getGpr rA) s.cr) ∧
    Does (.mfcr rD) s { gprs := [rD] } [] (fun t => t.getGpr rD = s.cr) ∧
    Does (.mfocrf rD crm) s { gprs := [rD] } [] (fun t => t.getGpr rD = s.cr)

/-- R1000 to R1006: the branches. With BO[2] = 0, an invalid form, bcctr still completes: it goes to one of the two
addresses and leaves any CTR (log 13). -/
def Obligations.BranchResults : Prop :=
  ∀ (s : State) (li : BitVec 24) (bd : BitVec 14) (bo bi : BitVec 5) (bh : BitVec 2) (aa lk : Bool),
    let far : Word := (li ++ (0 : BitVec 2)).signExtend 32
    let near : Word := (bd ++ (0 : BitVec 2)).signExtend 32
    let ctr := if bo.getLsbD 2 then s.ctr else s.ctr - 1
    Branches (.b li aa lk) s true (if aa then far else s.pc + far) s.ctr lk ∧
    Branches (.bc bo bi bd aa lk) s (branchTaken bo bi ctr s.cr) (if aa then near else s.pc + near) ctr lk ∧
    Branches (.bclr bo bi bh lk) s (branchTaken bo bi ctr s.cr) (s.lr &&& 0xFFFFFFFC) ctr lk ∧
    (bo.getLsbD 2 = true →
      Branches (.bcctr bo bi bh lk) s (branchTaken bo bi ctr s.cr) (s.ctr &&& 0xFFFFFFFC) s.ctr lk) ∧
    (bo.getLsbD 2 = false → s.debugAction (s.enabledBit 37 dbBrt) s.de = .ignore →
      ∃ t, exec (.bcctr bo bi bh lk) s = .next t ∧ (t.pc = s.pc + 4 ∨ t.pc = s.ctr &&& 0xFFFFFFFC) ∧
        t.lr = (if lk then s.pc + 4 else s.lr) ∧ Keeps { lr := true, ctr := true } s t ∧ StorageKept [] s t)

/-- R1020 to R1023: a trap instruction whose condition does not hold only completes; one whose condition holds and is no
debug event, ends in a program interrupt with ESR[PTR]. sc and ehpriv are system calls in every mode. -/
def Obligations.TrapsAndCalls : Prop :=
  ∀ (s : State) (tO : BitVec 5) (rA rB : Gpr) (simm : BitVec 16) (lev : BitVec 7) (oc : BitVec 15),
    (¬Traps tO (s.getGpr rA) (s.getGpr rB) → Does (.tw tO rA rB) s {} [] fun _ => True) ∧
    (¬Traps tO (s.getGpr rA) (simm.signExtend 32) → Does (.twi tO rA simm) s {} [] fun _ => True) ∧
    (s.debugAction (s.enabledBit 39 dbTrap) s.de = .ignore →
      (Traps tO (s.getGpr rA) (s.getGpr rB) →
        Enters (.tw tO rA rB) s .program false s.pc (some 0x02000000) none) ∧
      (Traps tO (s.getGpr rA) (simm.signExtend 32) →
        Enters (.twi tO rA simm) s .program false s.pc (some 0x02000000) none)) ∧
    (lev.getLsbD 0 = false → Enters (.sc lev) s .systemCall (bit s.msr 35) (s.pc + 4) none none) ∧
    (lev.getLsbD 0 = true → Enters (.sc lev) s .hvSystemCall false (s.pc + 4) none none) ∧
    Enters (.ehpriv oc) s .hvPrivilege false s.pc none none

/-- R1038, R1060 to R1062: the instructions that only complete in a machine that does one thing at a time, and wait. That
sync with L = 2 or 3 acts as L = 0 and that mbar takes every MO is the model's choice (log 62), and so is what a sync
forgets of mixed lock instructions (log 33). -/
def Obligations.BarriersAndWait : Prop :=
  ∀ (s : State) (l wc : BitVec 2) (mo : BitVec 5),
    Does .isync s {} [] (fun _ => True) ∧
    Does (.sync l) s { cache := true } [] (fun t => t.cache = { s.cache with recent := t.cache.recent }) ∧
    Does (.mbar mo) s {} [] (fun _ => True) ∧
    Does (.wait wc) s { hid := true } [] (fun t => t.hid = { s.hid with waiting := true })

/-! ### Storage (41_load_store.md, 20_memory.md) -/

/-- R336, R480, R286: the bytes of an access lie where its addresses, one by one, translate to, in the running context or
that of EPLC or EPSC (R331); no two in one place. Each part of an access that crosses a page boundary has W, I, M, G and E
of its own page (R289). -/
def Obligations.AccessBytesAreTranslated : Prop :=
  ∀ (s : State) (a : Access) (ea : Word) (n : Nat) (p : Placed), n ≤ 4096 → s.place a ea n = .ok p →
    p.bytes.length = n ∧ p.bytes.Nodup ∧
      ∀ k (h : k < p.bytes.length), ∃ x,
        s.mmu.translate (accessContext s a.ctx) a.kind (ea + BitVec.ofNat 32 k) = .ok x ∧ x.ra = p.bytes[k] ∧
          x.wimge = if ea.toNat % 4096 + k < 4096 then p.wimge else p.upper

/-- R483 to R498, R511, R512: integer loads, without and with update. In an invalid form (rA = 0 or rA = rD) a load with
update completes and leaves any value in rA and rD (log 14). -/
def Obligations.IntegerLoads : Prop :=
  ∀ (s : State) (rD rA rB : Gpr) (d : BitVec 16),
    let eaD := orZero s rA + d.signExtend 32
    let eaX := orZero s rA + s.getGpr rB
    let eaDU := s.getGpr rA + d.signExtend 32
    let eaXU := s.getGpr rA + s.getGpr rB
    let zero (v : Nat) : Word := BitVec.ofNat 32 v
    let algebraic (v : Nat) : Word := BitVec.ofInt 32 (BitVec.ofNat 16 v).toInt
    (LoadsGpr (.lbz rD rA d) s .load eaD 1 rD zero ∧ LoadsGpr (.lbzx rD rA rB) s .load eaX 1 rD zero ∧
      LoadsGpr (.lhz rD rA d) s .load eaD 2 rD zero ∧ LoadsGpr (.lhzx rD rA rB) s .load eaX 2 rD zero ∧
      LoadsGpr (.lha rD rA d) s .load eaD 2 rD algebraic ∧ LoadsGpr (.lhax rD rA rB) s .load eaX 2 rD algebraic ∧
      LoadsGpr (.lwz rD rA d) s .load eaD 4 rD zero ∧ LoadsGpr (.lwzx rD rA rB) s .load eaX 4 rD zero ∧
      LoadsGpr (.lhbrx rD rA rB) s .load eaX 2 rD (fun v => BitVec.ofNat 32 (v % 256 * 256 + v / 256)) ∧
      LoadsGpr (.lwbrx rD rA rB) s .load eaX 4 rD (fun v =>
        BitVec.ofNat 32 (v % 256 * 2 ^ 24 + v / 2 ^ 8 % 256 * 2 ^ 16 + v / 2 ^ 16 % 256 * 2 ^ 8 + v / 2 ^ 24))) ∧
    LoadsGprUpdate (.lbzu rD rA d) s eaDU 1 rD rA zero ∧ LoadsGprUpdate (.lbzux rD rA rB) s eaXU 1 rD rA zero ∧
    LoadsGprUpdate (.lhzu rD rA d) s eaDU 2 rD rA zero ∧ LoadsGprUpdate (.lhzux rD rA rB) s eaXU 2 rD rA zero ∧
    LoadsGprUpdate (.lhau rD rA d) s eaDU 2 rD rA algebraic ∧
    LoadsGprUpdate (.lhaux rD rA rB) s eaXU 2 rD rA algebraic ∧
    LoadsGprUpdate (.lwzu rD rA d) s eaDU 4 rD rA zero ∧ LoadsGprUpdate (.lwzux rD rA rB) s eaXU 4 rD rA zero

/-- R499, R501, R503, R505, R507, R509, R513, R514: integer stores. -/
def Obligations.IntegerStores : Prop :=
  ∀ (s : State) (rS rA rB : Gpr) (d : BitVec 16), s.mem.wf →
    let eaD := orZero s rA + d.signExtend 32
    let eaX := orZero s rA + s.getGpr rB
    let v := (s.getGpr rS).toNat
    StoresBytes (.stb rS rA d) s .store eaD 1 v ∧ StoresBytes (.stbx rS rA rB) s .store eaX 1 v ∧
    StoresBytes (.sth rS rA d) s .store eaD 2 v ∧ StoresBytes (.sthx rS rA rB) s .store eaX 2 v ∧
    StoresBytes (.stw rS rA d) s .store eaD 4 v ∧ StoresBytes (.stwx rS rA rB) s .store eaX 4 v ∧
    StoresBytes (.sthbrx rS rA rB) s .store eaX 2 (v % 256 * 256 + v / 256 % 256) ∧
    StoresBytes (.stwbrx rS rA rB) s .store eaX 4
      (v % 256 * 2 ^ 24 + v / 2 ^ 8 % 256 * 2 ^ 16 + v / 2 ^ 16 % 256 * 2 ^ 8 + v / 2 ^ 24)

/-- R500, R502, R504, R506, R508, R510: integer stores with update. With rA = 0, an invalid form, the bytes are stored
and any value is left in r0 (log 14). -/
def Obligations.IntegerStoresWithUpdate : Prop :=
  ∀ (s : State) (rS rA rB : Gpr) (d : BitVec 16), s.mem.wf →
    let eaD := s.getGpr rA + d.signExtend 32
    let eaX := s.getGpr rA + s.getGpr rB
    let v := (s.getGpr rS).toNat
    StoresUpdate (.stbu rS rA d) s .store eaD 1 v rA ∧ StoresUpdate (.stbux rS rA rB) s .store eaX 1 v rA ∧
    StoresUpdate (.sthu rS rA d) s .store eaD 2 v rA ∧ StoresUpdate (.sthux rS rA rB) s .store eaX 2 v rA ∧
    StoresUpdate (.stwu rS rA d) s .store eaD 4 v rA ∧ StoresUpdate (.stwux rS rA rB) s .store eaX 4 v rA

/-- R515: lmw, with no debug event enabled. Word k goes to register rD + k. In the invalid form that loads rA itself,
unless that is r0, the words after it come from the value loaded there or from the base read first: which of the two is
free (U26, log 16), and either is the model's choice. -/
def Obligations.LoadMultiple : Prop :=
  ∀ (s : State) (rD rA : Gpr) (d : BitVec 16) (loaded : Word) (ps : Bool → Nat → Placed),
    DebugOff s → (rA ≠ 0 → rD.toNat ≤ rA.toNat → Holds s (ps true (rA.toNat - rD.toNat)) loaded.toNat) →
    (∀ moves k, rD.toNat + k < 32 →
      s.place { Access.load with aligned := decide (k = 0) } (lmwAddress s rD rA d moves loaded k) 4 =
        .ok (ps moves k) ∧ s.regionOf (ps moves k).bytes = none) →
    ∃ moves, LoadsWords (.lmw rD rA d) s rD (ps moves)

/-- R516: stmw, with no debug event enabled. Word k is register rS + k; each word reads back where all the bytes lie
apart (two pages can share one place in real storage). -/
def Obligations.StoreMultiple : Prop :=
  ∀ (s : State) (rS rA : Gpr) (d : BitVec 16) (ps : Nat → Placed), s.mem.wf → DebugOff s →
    (∀ k, rS.toNat + k < 32 →
      s.place { Access.store with aligned := decide (k = 0) }
        (orZero s rA + d.signExtend 32 + BitVec.ofNat 32 (4 * k)) 4 = .ok (ps k) ∧ s.regionOf (ps k).bytes = none) →
    let all := (List.range (32 - rS.toNat)).flatMap fun k => (ps k).bytes
    Does (.stmw rS rA d) s {} all fun t =>
      all.Nodup → ∀ k, rS.toNat + k < 32 → Holds t (ps k) (s.getGpr (rS + BitVec.ofNat 5 k)).toNat

/-- R517 to R524: floating-point loads, with MSR[FP] = 1. The model's choice: a load with update and rA = 0, an invalid
form, loads frD from GPR[0] + d and leaves any value in r0 (log 14). -/
def Obligations.FloatLoads : Prop :=
  ∀ (s : State) (frD : Fpr) (rA rB : Gpr) (d : BitVec 16), bit s.msr 50 = true →
    let eaD := orZero s rA + d.signExtend 32
    let eaX := orZero s rA + s.getGpr rB
    let eaDU := s.getGpr rA + d.signExtend 32
    let eaXU := s.getGpr rA + s.getGpr rB
    let double (v : Nat) : DWord := doubleOf (BitVec.ofNat 32 v)
    LoadsFpr (.lfs frD rA d) s .fpLoad eaD 4 frD double ∧ LoadsFpr (.lfsx frD rA rB) s .fpLoad eaX 4 frD double ∧
    LoadsFprUpdate (.lfsu frD rA d) s eaDU 4 frD rA double ∧
    LoadsFprUpdate (.lfsux frD rA rB) s eaXU 4 frD rA double ∧
    LoadsFpr (.lfd frD rA d) s .fpLoad eaD 8 frD (BitVec.ofNat 64) ∧
    LoadsFpr (.lfdx frD rA rB) s .fpLoad eaX 8 frD (BitVec.ofNat 64) ∧
    LoadsFprUpdate (.lfdu frD rA d) s eaDU 8 frD rA (BitVec.ofNat 64) ∧
    LoadsFprUpdate (.lfdux frD rA rB) s eaXU 8 frD rA (BitVec.ofNat 64)

/-- R525 to R533: floating-point stores, with MSR[FP] = 1. The model's choices: a single-precision store whose conversion is
undefined completes and stores any word (log 19), and a store with update and rA = 0, an invalid form, stores at
GPR[0] + d and leaves any value in r0 (log 14). -/
def Obligations.FloatStores : Prop :=
  ∀ (s : State) (frS : Fpr) (rA rB : Gpr) (d : BitVec 16), bit s.msr 50 = true → s.mem.wf →
    let eaD := orZero s rA + d.signExtend 32
    let eaX := orZero s rA + s.getGpr rB
    let eaDU := s.getGpr rA + d.signExtend 32
    let eaXU := s.getGpr rA + s.getGpr rB
    let v := (s.getFpr frS).toNat
    let w := (singleOf (s.getFpr frS)).toNat
    let someWord (i : Instr) (ea : Word) (g : List (BitVec 5)) : Prop :=
      ∀ p, Reaches s .fpStore ea 4 p → Does i s { gprs := g } p.bytes fun t => ∀ r ∈ g, r ≠ 0 → t.getGpr r = ea
    (singleDefined (s.getFpr frS) = true →
      StoresBytes (.stfs frS rA d) s .fpStore eaD 4 w ∧ StoresBytes (.stfsx frS rA rB) s .fpStore eaX 4 w ∧
      StoresUpdate (.stfsu frS rA d) s .fpStore eaDU 4 w rA ∧
      StoresUpdate (.stfsux frS rA rB) s .fpStore eaXU 4 w rA) ∧
    (singleDefined (s.getFpr frS) = false →
      someWord (.stfs frS rA d) eaD [] ∧ someWord (.stfsx frS rA rB) eaX [] ∧
      someWord (.stfsu frS rA d) eaDU [rA] ∧ someWord (.stfsux frS rA rB) eaXU [rA]) ∧
    StoresBytes (.stfd frS rA d) s .fpStore eaD 8 v ∧ StoresBytes (.stfdx frS rA rB) s .fpStore eaX 8 v ∧
    StoresUpdate (.stfdu frS rA d) s .fpStore eaDU 8 v rA ∧ StoresUpdate (.stfdux frS rA rB) s .fpStore eaXU 8 v rA ∧
    StoresBytes (.stfiwx frS rA rB) s .fpStore eaX 4 v

/-- R534 to R543: decorated loads and stores of storage use the address in rB alone; dsn stores nothing. The model's
choices: storage ignores the decoration (log 66), dsn is checked as a one-byte store (log 54), lfddx and stfddx need
word alignment (log 53). -/
def Obligations.DecoratedAccesses : Prop :=
  ∀ (s : State) (rD rA rB : Gpr) (fr : Fpr), s.mem.wf →
    let ea := s.getGpr rB
    let v := (s.getGpr rD).toNat
    LoadsGpr (.lbdx rD rA rB) s .load ea 1 rD (BitVec.ofNat 32) ∧
    LoadsGpr (.lhdx rD rA rB) s .load ea 2 rD (BitVec.ofNat 32) ∧
    LoadsGpr (.lwdx rD rA rB) s .load ea 4 rD (BitVec.ofNat 32) ∧
    StoresBytes (.stbdx rD rA rB) s .store ea 1 v ∧ StoresBytes (.sthdx rD rA rB) s .store ea 2 v ∧
    StoresBytes (.stwdx rD rA rB) s .store ea 4 v ∧
    (∀ p, Reaches s .store ea 1 p → Does (.dsn rA rB) s {} [] fun _ => True) ∧
    (bit s.msr 50 = true →
      LoadsFpr (.lfddx fr rA rB) s .fpLoad ea 8 fr (BitVec.ofNat 64) ∧
      StoresBytes (.stfddx fr rA rB) s .fpStore ea 8 (s.getFpr fr).toNat)

/-- R544 to R552: external-PID loads and stores in supervisor state, loads translated in the context of EPLC and stores in
that of EPSC. -/
def Obligations.ExternalPidAccesses : Prop :=
  ∀ (s : State) (rD rA rB : Gpr) (fr : Fpr), bit s.msr 49 = false → s.mem.wf →
    let ea := orZero s rA + s.getGpr rB
    let load := Access.load.external
    let store := Access.store.external
    let v := (s.getGpr rD).toNat
    (s.dataCtx load.ctx = externalContext s.mmu.eplc ∧ s.dataCtx Access.fpLoad.external.ctx = externalContext s.mmu.eplc ∧
      s.dataCtx store.ctx = externalContext s.mmu.epsc ∧
      s.dataCtx Access.fpStore.external.ctx = externalContext s.mmu.epsc) ∧
    LoadsGpr (.lbepx rD rA rB) s load ea 1 rD (BitVec.ofNat 32) ∧
    LoadsGpr (.lhepx rD rA rB) s load ea 2 rD (BitVec.ofNat 32) ∧
    LoadsGpr (.lwepx rD rA rB) s load ea 4 rD (BitVec.ofNat 32) ∧
    StoresBytes (.stbepx rD rA rB) s store ea 1 v ∧ StoresBytes (.sthepx rD rA rB) s store ea 2 v ∧
    StoresBytes (.stwepx rD rA rB) s store ea 4 v ∧
    (bit s.msr 50 = true →
      LoadsFpr (.lfdepx fr rA rB) s Access.fpLoad.external ea 8 fr (BitVec.ofNat 64) ∧
      StoresBytes (.stfdepx fr rA rB) s Access.fpStore.external ea 8 (s.getFpr fr).toNat)

/-- R657, R660, R667, R337: a load or store whose access is not made, and a cache-block instruction whose byte is not
reached (R1070, R1099), ends in the interrupt of the reason, with the effective address in (G)DEAR and the kind of access
in (G)ESR, and changes nothing else; a TLB miss also loads the MAS
registers, field by field (R244, R358, R359); several matching entries are an error report, or, with their detection off,
a fault. A later word of lmw or stmw ends it the same way, with the words before it loaded or stored and with no debug
event enabled. The model's choices: the address and the order of the pages (log 50), the checks of stwcx. (log 73),
ESR[FP] of lfddx and stfddx (log 53), dsn as a one-byte store (log 54), W = 1 with I = 1 (log 55), a multiple hit without
detection (log 21) and the bit MCSR[ST] of its report for cache-block instructions (log 52), an lmw that loads rA, which may go on from either base (log 16): one of the two may complete. -/
def Obligations.FailedAccesses : Prop :=
  (∀ (s : State) (i : Instr) (a : Access) (ea : Word) (n : Nat) (f : AccessFail) (fea : Word),
    memAccess s i = some (a, ea, n) → accessAllowed s a → s.place a ea n = .error (f, fea) → Fails i s s a f fea) ∧
  (∀ (s : State) (i : Instr) (a : Access) (ea : Word) (f : AccessFail) (fea : Word),
    blockAccess s i = some (a, ea) → blockAllowed s i → s.place a ea 1 = .error (f, fea) → Fails i s s a f fea) ∧
  (∀ (s : State) (rD rA : Gpr) (d : BitVec 16) (loaded : Word) (ps : Bool → Nat → Placed) (n : Bool → Nat)
      (f : Bool → AccessFail) (fea : Bool → Word), DebugOff s →
    (rA ≠ 0 → rD.toNat ≤ rA.toNat → rA.toNat < rD.toNat + n true →
      Holds s (ps true (rA.toNat - rD.toNat)) loaded.toNat) →
    (∀ moves, 0 < n moves ∧ rD.toNat + n moves ≤ 32 ∧
      (∀ k < n moves,
        s.place { Access.load with aligned := decide (k = 0) } (lmwAddress s rD rA d moves loaded k) 4 =
          .ok (ps moves k) ∧ s.regionOf (ps moves k).bytes = none) ∧
      (rD.toNat + n moves < 32 →
        s.place .load (lmwAddress s rD rA d moves loaded (n moves)) 4 = .error (f moves, fea moves))) →
    ∃ moves,
      if rD.toNat + n moves = 32 then LoadsWords (.lmw rD rA d) s rD (ps moves)
      else
        ∃ u : State, u.pc = s.pc ∧ StorageKept [] s u ∧
          Keeps { gprs := (List.range (n moves)).map fun k => rD + BitVec.ofNat 5 k } s u ∧
          (∀ k < n moves, Holds s (ps moves k) (u.getGpr (rD + BitVec.ofNat 5 k)).toNat) ∧
          Fails (.lmw rD rA d) s u .load (f moves) (fea moves)) ∧
  ∀ (s : State) (rS rA : Gpr) (d : BitVec 16) (ps : Nat → Placed) (n : Nat) (f : AccessFail) (fea : Word),
    let ea (k : Nat) : Word := orZero s rA + d.signExtend 32 + BitVec.ofNat 32 (4 * k)
    let all := (List.range n).flatMap fun k => (ps k).bytes
    s.mem.wf → 0 < n → rS.toNat + n < 32 → DebugOff s →
    (∀ k < n, s.place { Access.store with aligned := decide (k = 0) } (ea k) 4 = .ok (ps k) ∧
      s.regionOf (ps k).bytes = none) →
    s.place .store (ea n) 4 = .error (f, fea) →
    ∃ u : State, u.pc = s.pc ∧ StorageKept all s u ∧ Keeps {} s u ∧
      (all.Nodup → ∀ k < n, Holds u (ps k) (s.getGpr (rS + BitVec.ofNat 5 k)).toNat) ∧
      Fails (.stmw rS rA d) s u .store f fea

/-- R1066, R1067: lwarx reserves the granule of its word; stwcx. stores, and sets CR0[EQ], exactly if the reservation is
held for the granule of its own word; in either case none is left. -/
def Obligations.ReservedAccesses : Prop :=
  ∀ (s : State) (r rA rB : Gpr) (p : Placed), s.mem.wf →
    let ea := orZero s rA + s.getGpr rB
    let granule : BitVec 30 := (p.bytes.headD 0).extractLsb' 6 30
    let held : Prop := ∃ c, s.hid.reserve = some { granule := granule, coherent := c }
    (Reaches s .lwarx ea 4 p → Does (.lwarx r rA rB) s { gprs := [r], hid := true } [] fun t =>
      Holds s p (t.getGpr r).toNat ∧
        t.hid = { s.hid with reserve := some { granule := granule, coherent := p.m } }) ∧
    (Reaches s .stwcx ea 4 p → held → Does (.stwcxDot r rA rB) s { cr := 0xF0000000, hid := true } p.bytes fun t =>
      Holds t p (s.getGpr r).toNat ∧ CrFieldIs 0 False False True (bit s.xer 32 = true) t ∧
        t.hid = { s.hid with reserve := none }) ∧
    (Reaches s .stwcx ea 4 p → ¬held → Does (.stwcxDot r rA rB) s { cr := 0xF0000000, hid := true } [] fun t =>
      CrFieldIs 0 False False False (bit s.xer 32 = true) t ∧ t.hid = { s.hid with reserve := none })

/-! ### Floating point (42_float.md) -/

/-- R920, R934, R940 to R943: the moves, fsel and mffs, with MSR[FP] = 1. The high word that mffs writes is free
(log 17). -/
def Obligations.FloatMoves : Prop :=
  ∀ (s : State) (frD frA frB frC : Fpr) (rc : Bool), bit s.msr 50 = true →
    let a := s.getFpr frA
    let b := s.getFpr frB
    let nan := a.extractLsb' 52 11 = 2047 ∧ a.setWidth 52 ≠ 0
    let zero := a.setWidth 63 = 0 ∨ (bit s.fpscr 61 = true ∧ a.extractLsb' 52 11 = 0)
    MovesFpr (.fmr frD frB rc) s frD rc (· = b) ∧
    MovesFpr (.fneg frD frB rc) s frD rc (fun d => d.msb = !b.msb ∧ d.setWidth 63 = b.setWidth 63) ∧
    MovesFpr (.fabs frD frB rc) s frD rc (fun d => d.msb = false ∧ d.setWidth 63 = b.setWidth 63) ∧
    MovesFpr (.fnabs frD frB rc) s frD rc (fun d => d.msb = true ∧ d.setWidth 63 = b.setWidth 63) ∧
    (¬nan ∧ (a.msb = false ∨ zero) → MovesFpr (.fsel frD frA frC frB rc) s frD rc (· = s.getFpr frC)) ∧
    (nan ∨ (a.msb = true ∧ ¬zero) → MovesFpr (.fsel frD frA frC frB rc) s frD rc (· = b)) ∧
    MovesFpr (.mffs frD rc) s frD rc (fun d => d.setWidth 32 = s.fpscr)

/-- R903, R905, R910 to R931: what every arithmetic, rounding and conversion instruction may change, that it completes,
and when it ends in the interrupt of an enabled exception, with MSR[FP] = 1. That the interrupt saves the instruction's
own address and comes whenever FEX is 1 is the model's choice (log 72). -/
def Obligations.FloatComputes : Prop :=
  ∀ (s : State) (d a b c : Fpr) (rc : Bool), bit s.msr 50 = true →
    Computes (.fadd d a b rc) s d rc ∧ Computes (.fadds d a b rc) s d rc ∧
    Computes (.fsub d a b rc) s d rc ∧ Computes (.fsubs d a b rc) s d rc ∧
    Computes (.fmul d a c rc) s d rc ∧ Computes (.fmuls d a c rc) s d rc ∧
    Computes (.fdiv d a b rc) s d rc ∧ Computes (.fdivs d a b rc) s d rc ∧
    Computes (.fres d b rc) s d rc ∧ Computes (.frsqrte d b rc) s d rc ∧
    Computes (.fmadd d a c b rc) s d rc ∧ Computes (.fmadds d a c b rc) s d rc ∧
    Computes (.fmsub d a c b rc) s d rc ∧ Computes (.fmsubs d a c b rc) s d rc ∧
    Computes (.fnmadd d a c b rc) s d rc ∧ Computes (.fnmadds d a c b rc) s d rc ∧
    Computes (.fnmsub d a c b rc) s d rc ∧ Computes (.fnmsubs d a c b rc) s d rc ∧
    Computes (.frsp d b rc) s d rc ∧ Computes (.fctiw d b rc) s d rc ∧ Computes (.fctiwz d b rc) s d rc

/-- R908: with FPSCR[VE] = 0, a double-precision instruction with a NaN operand delivers the first one in the order frA,
frB, frC, made quiet; a signalling one sets VXSNAN. -/
def Obligations.NanOperands : Prop :=
  ∀ (s : State) (d a b c : Fpr) (rc : Bool), bit s.msr 50 = true → bit s.fpscr 56 = false →
    let x := s.getFpr a
    let y := s.getFpr b
    let z := s.getFpr c
    let nan (i : Instr) (l : List DWord) : Prop :=
      l.any isNan = true → Delivers i s d (firstNan l) (if l.any isSnan then 0x01000000 else 0) 0b10001
    nan (.fadd d a b rc) [x, y] ∧ nan (.fsub d a b rc) [x, y] ∧ nan (.fmul d a c rc) [x, z] ∧
    nan (.fdiv d a b rc) [x, y] ∧ nan (.fmadd d a c b rc) [x, y, z] ∧ nan (.fmsub d a c b rc) [x, y, z] ∧
    nan (.fnmadd d a c b rc) [x, y, z] ∧ nan (.fnmsub d a c b rc) [x, y, z]

/-- R903, R910, R914, R916, R944: the invalid operations on infinities and zeros, division by zero, a denormal dividend
included, and the special operands of the estimates, with VE and ZE 0. -/
def Obligations.InvalidOperations : Prop :=
  ∀ (s : State) (d a b : Fpr) (rc sign : Bool), bit s.msr 50 = true → bit s.fpscr 56 = false →
    bit s.fpscr 59 = false →
    let x := s.getFpr a
    let y := s.getFpr b
    let inf (v : DWord) := v.setWidth 63 = 0x7FF0000000000000
    let zero (v : DWord) := v.setWidth 63 = 0
    let nan : DWord := 0x7FF8000000000000
    (inf x → inf y → x.msb ≠ y.msb → Delivers (.fadd d a b rc) s d nan 0x00800000 0b10001) ∧
    (inf x → inf y → x.msb = y.msb → Delivers (.fsub d a b rc) s d nan 0x00800000 0b10001) ∧
    (inf x → zero y → Delivers (.fmul d a b rc) s d nan 0x00100000 0b10001) ∧
    (zero x → inf y → Delivers (.fmul d a b rc) s d nan 0x00100000 0b10001) ∧
    (inf x → inf y → Delivers (.fdiv d a b rc) s d nan 0x00400000 0b10001) ∧
    (zero x → zero y → Delivers (.fdiv d a b rc) s d nan 0x00200000 0b10001) ∧
    (x.setWidth 63 ≠ 0 → isFinite x → x.extractLsb' 52 11 ≠ 0 ∨ bit s.fpscr 61 = false → zero y →
      sign = (x.msb ^^ y.msb) →
      Delivers (.fdiv d a b rc) s d (BitVec.ofBool sign ++ (0x7FF0000000000000 : BitVec 63)) 0x04000000
        (if sign then 0b01001 else 0b00101)) ∧
    (zero y → ∀ i ∈ [Instr.fres d b rc, .frsqrte d b rc],
      Delivers i s d (BitVec.ofBool y.msb ++ (0x7FF0000000000000 : BitVec 63)) 0x04000000
        (if y.msb then 0b01001 else 0b00101)) ∧
    (inf y → Delivers (.fres d b rc) s d (BitVec.ofBool y.msb ++ (0 : BitVec 63)) 0
      (if y.msb then 0b10010 else 0b00010)) ∧
    (inf y → y.msb = false → Delivers (.frsqrte d b rc) s d 0 0 0b00010) ∧
    (inf y ∨ isFinite y → y.setWidth 63 ≠ 0 → y.extractLsb' 52 11 ≠ 0 ∨ bit s.fpscr 61 = false → y.msb = true →
      Delivers (.frsqrte d b rc) s d nan 0x00000200 0b10001)

/-- R902, R910 to R929, R944: rounding to a multiple of 2^t, of a magnitude m * 2^e that is none: the four modes choose
between the multiples below and above, and a tie goes to the even one. The finite sums, products, quotients,
multiply-adds and frsp are the exact value rounded so, with IEEE mode, MSR[FP] = 1, MSR[FE0] and MSR[FE1] 0, in the
normal range of the format; an exact zero has the sign that R902 gives. The estimates lie within the bounds of R944. -/
def Obligations.RoundingChoosesNeighbour : Prop :=
  (∀ (rn : BitVec 2) (sign : Bool) (m k : Nat) (e : Int),
    let r := roundAt rn sign m e (e + k)
    r.t = e + k ∧ (r.inexact = true ↔ ¬2 ^ k ∣ m) ∧ (r.inexact = false → r.q * 2 ^ k = m) ∧
    r.q * 2 ^ k < m + 2 ^ k ∧ m < r.q * 2 ^ k + 2 ^ k ∧ (r.up = true ↔ m < r.q * 2 ^ k) ∧
    (rn = 0 → 2 * (r.q * 2 ^ k) ≤ 2 * m + 2 ^ k ∧ 2 * m ≤ 2 * (r.q * 2 ^ k) + 2 ^ k ∧
      (2 * m + 2 ^ k = 2 * (r.q * 2 ^ k) ∨ 2 * m = 2 * (r.q * 2 ^ k) + 2 ^ k → 2 ∣ r.q)) ∧
    (rn = 1 → r.q * 2 ^ k ≤ m) ∧
    (rn = 2 → if sign then r.q * 2 ^ k ≤ m else m ≤ r.q * 2 ^ k) ∧
    (rn = 3 → if sign then m ≤ r.q * 2 ^ k else r.q * 2 ^ k ≤ m)) ∧
  ∀ (s : State) (d a b c : Fpr) (rc : Bool), bit s.msr 50 = true → FeOff s → bit s.fpscr 61 = false →
    let x := s.getFpr a
    let y := s.getFpr b
    let z := s.getFpr c
    let down : Bool := decide (s.fpscr.setWidth 2 = (3 : BitVec 2))
    let zero (p q : Bool) : Bool := if p = q then p else down
    let rounds (i : Instr) (fmt : FloatFormat) (neg : Bool) (v : ℚ) : Prop :=
      InRange fmt v → DeliversRounded i s d fmt neg v
    let binary (fmt : FloatFormat) (add sub div : Instr) : Prop :=
      (rounds add fmt false (valueOf x + valueOf y) ∧
        (valueOf x + valueOf y = 0 → DeliversZero add s d (zero x.msb y.msb))) ∧
      (rounds sub fmt false (valueOf x - valueOf y) ∧
        (valueOf x - valueOf y = 0 → DeliversZero sub s d (zero x.msb !y.msb))) ∧
      (valueOf y ≠ 0 → rounds div fmt false (valueOf x / valueOf y) ∧
        (valueOf x = 0 → DeliversZero div s d (x.msb ^^ y.msb)))
    let product (fmt : FloatFormat) (mul : Instr) : Prop :=
      rounds mul fmt false (valueOf x * valueOf z) ∧
        (valueOf x * valueOf z = 0 → DeliversZero mul s d (x.msb ^^ z.msb))
    let fused (fmt : FloatFormat) (i : Instr) (sub neg : Bool) : Prop :=
      let v := valueOf x * valueOf z + if sub then -valueOf y else valueOf y
      rounds i fmt neg v ∧ (v = 0 → DeliversZero i s d (zero (x.msb ^^ z.msb) (y.msb ^^ sub) ^^ neg))
    let singles (l : List DWord) : Prop := ∀ w ∈ l, singleRepresentable w = true
    (isFinite x → isFinite y →
      binary doubleFormat (.fadd d a b rc) (.fsub d a b rc) (.fdiv d a b rc) ∧
      (singles [x, y] → binary singleFormat (.fadds d a b rc) (.fsubs d a b rc) (.fdivs d a b rc))) ∧
    (isFinite x → isFinite z →
      product doubleFormat (.fmul d a c rc) ∧ (singles [x, z] → product singleFormat (.fmuls d a c rc))) ∧
    (isFinite x → isFinite y → isFinite z →
      (fused doubleFormat (.fmadd d a c b rc) false false ∧ fused doubleFormat (.fmsub d a c b rc) true false ∧
        fused doubleFormat (.fnmadd d a c b rc) false true ∧ fused doubleFormat (.fnmsub d a c b rc) true true) ∧
      (singles [x, y, z] →
        fused singleFormat (.fmadds d a c b rc) false false ∧ fused singleFormat (.fmsubs d a c b rc) true false ∧
        fused singleFormat (.fnmadds d a c b rc) false true ∧ fused singleFormat (.fnmsubs d a c b rc) true true)) ∧
    (isFinite y →
      rounds (.frsp d b rc) singleFormat false (valueOf y) ∧
      (valueOf y = 0 → DeliversZero (.frsp d b rc) s d y.msb) ∧
      (singles [y] → 2 ^ (-125 : ℤ) ≤ |(valueOf y)⁻¹| → |(valueOf y)⁻¹| ≤ 2 ^ (127 : ℤ) →
        ∃ t, exec (.fres d b rc) s = .next t ∧ t.pc = s.pc + 4 ∧ isFinite (t.getFpr d) ∧
          singleRepresentable (t.getFpr d) = true ∧ |valueOf (t.getFpr d) * valueOf y - 1| ≤ 1 / 256 ∧
          t.fpscr.extractLsb' 12 5 = if y.msb then 0b01000 else 0b00100) ∧
      (0 < valueOf y →
        ∃ t, exec (.frsqrte d b rc) s = .next t ∧ t.pc = s.pc + 4 ∧ isFinite (t.getFpr d) ∧
          0 < valueOf (t.getFpr d) ∧ (31 / 32) ^ 2 ≤ valueOf (t.getFpr d) ^ 2 * valueOf y ∧
          valueOf (t.getFpr d) ^ 2 * valueOf y ≤ (33 / 32) ^ 2 ∧ t.fpscr.extractLsb' 12 5 = 0b00100))

/-- R932, R933: the comparisons outside non-IEEE mode, with MSR[FP] = 1 and MSR[FE0], MSR[FE1] 0: the CR field and FPCC
say less, greater, equal or unordered; zeros of either sign are equal. -/
def Obligations.FloatCompares : Prop :=
  ∀ (s : State) (crfD : BitVec 3) (a b : Fpr), bit s.msr 50 = true → FeOff s → bit s.fpscr 61 = false →
    let x := s.getFpr a
    let y := s.getFpr b
    let unordered := isNan x = true ∨ isNan y = true
    let lt := ¬unordered ∧ numericOrder x < numericOrder y
    let gt := ¬unordered ∧ numericOrder y < numericOrder x
    let eq := ¬unordered ∧ numericOrder x = numericOrder y
    let compares (i : Instr) (exc : Word) : Prop :=
      Does i s { cr := crFieldMask crfD, fpscr := 0xFFF8F700 } [] fun t =>
        CrFieldIs crfD lt gt eq unordered t ∧
        ((bit t.fpscr 48 = true ↔ lt) ∧ (bit t.fpscr 49 = true ↔ gt) ∧ (bit t.fpscr 50 = true ↔ eq) ∧
          (bit t.fpscr 51 = true ↔ unordered)) ∧
        t.fpscr &&& 0x01080000 = s.fpscr &&& 0x01080000 ||| exc
    let snan := isSnan x || isSnan y
    compares (.fcmpu crfD a b) (if snan then 0x01000000 else 0) ∧
    compares (.fcmpo crfD a b)
      (if snan then (if bit s.fpscr 56 then 0x01000000 else 0x01080000)
       else if isNan x || isNan y then 0x00080000 else 0)

/-- R930, R931: fctiw rounds to an integer under RN; fctiwz of a number m * 2^e cuts the fraction off; a NaN and a value
beyond the word are invalid, with VE = 0. The high word is free (log 17). -/
def Obligations.ConvertToWord : Prop :=
  ∀ (s : State) (frD frB : Fpr) (rc : Bool), bit s.msr 50 = true → FeOff s → bit s.fpscr 56 = false →
    bit s.fpscr 61 = false →
    let low (w : Word) (inexact invalid : Bool) : Prop :=
      ∃ t, exec (.fctiwz frD frB rc) s = .next t ∧ t.pc = s.pc + 4 ∧ (t.getFpr frD).setWidth 32 = w ∧
        bit t.fpscr 45 = false ∧ bit t.fpscr 46 = inexact ∧ (invalid = true → bit t.fpscr 55 = true)
    (∀ sign m (e : Nat), unpack (s.getFpr frB) = .num sign m (-(e : Int)) →
      let v : Int := if sign then -(m / 2 ^ e : Nat) else (m / 2 ^ e : Nat)
      (¬notInt32 v → low (BitVec.ofInt 32 v) (decide (m % 2 ^ e ≠ 0)) false) ∧
      (2 ^ 31 ≤ v → low 0x7FFFFFFF false true) ∧ (v < -2 ^ 31 → low 0x80000000 false true)) ∧
    (∀ sign m (e : Nat), unpack (s.getFpr frB) = .num sign m (e : Int) → m ≠ 0 →
      let v : Int := if sign then -(m * 2 ^ e : Nat) else (m * 2 ^ e : Nat)
      (2 ^ 31 ≤ v → low 0x7FFFFFFF false true) ∧ (v < -2 ^ 31 → low 0x80000000 false true)) ∧
    (unpack (s.getFpr frB) = .nan → low 0x80000000 false true) ∧
    (∀ sign, unpack (s.getFpr frB) = .inf sign → low (if sign then 0x80000000 else 0x7FFFFFFF) false true) ∧
    let y := s.getFpr frB
    let word (w : Word) (grown inexact : Prop) (invalid : Bool) : Prop :=
      ∃ t, exec (.fctiw frD frB rc) s = .next t ∧ t.pc = s.pc + 4 ∧ (t.getFpr frD).setWidth 32 = w ∧
        (bit t.fpscr 45 = true ↔ grown) ∧ (bit t.fpscr 46 = true ↔ inexact) ∧ (inexact → bit t.fpscr 38 = true) ∧
        (invalid = true → bit t.fpscr 55 = true)
    (isFinite y → ∀ n : ℤ, RoundsTo (s.fpscr.setWidth 2) 1 (valueOf y) n →
      (¬notInt32 n → word (BitVec.ofInt 32 n) (|valueOf y| < |(n : ℚ)|) (n ≠ valueOf y) false) ∧
      (2 ^ 31 ≤ n → word 0x7FFFFFFF False False true) ∧ (n < -2 ^ 31 → word 0x80000000 False False true)) ∧
    (y.extractLsb' 52 11 = 2047 →
      word (if y.setWidth 52 = 0 ∧ y.msb = false then 0x7FFFFFFF else 0x80000000) False False true)

/-- R935 to R939: the moves to and from FPSCR, with MSR[FP] = 1 and MSR[FE0], MSR[FE1] 0. FEX and VX are never written
but follow from the other bits. -/
def Obligations.FpscrMoves : Prop :=
  ∀ (s : State) (crfD crfS : BitVec 3) (imm : BitVec 4) (fm : BitVec 8) (crb : BitVec 5) (frB : Fpr) (rc : Bool),
    bit s.msr 50 = true → FeOff s → fpscrConsistent s.fpscr →
    let sets (i : Instr) (cr : Word) (f : Nat → Bool) (p : State → Prop) : Prop :=
      Does i s { cr := cr, fpscr := 0xFFFFFFFF } [] fun t =>
        (∀ n, n < 32 → n ≠ 1 → n ≠ 2 → n ≠ 20 → bit t.fpscr (32 + n) = f n) ∧ fpscrConsistent t.fpscr ∧ p t
    let old (n : Nat) := bit s.fpscr (32 + n)
    let exception (n : Nat) := bit fpExceptions (32 + n)
    sets (.mcrfs crfD crfS) (crFieldMask crfD)
      (fun n => if n / 4 = crfS.toNat ∧ (n = 0 ∨ exception n = true) then false else old n)
      (fun t => ∀ n, n < 4 → bit t.cr (32 + 4 * crfD.toNat + n) = bit s.fpscr (32 + 4 * crfS.toNat + n)) ∧
    sets (.mtfsfi crfD imm rc) (rcMask1 rc)
      (fun n => if n / 4 = crfD.toNat then imm.getLsbD (3 - n % 4) else old n) (CopiesToCr1 rc) ∧
    sets (.mtfsf fm frB rc) (rcMask1 rc)
      (fun n => if fm.getLsbD (7 - n / 4) then (s.getFpr frB).getLsbD (31 - n) else old n) (CopiesToCr1 rc) ∧
    sets (.mtfsb0 crb rc) (rcMask1 rc) (fun n => if n = crb.toNat then false else old n) (CopiesToCr1 rc) ∧
    sets (.mtfsb1 crb rc) (rcMask1 rc)
      (fun n => if n = crb.toNat ∨ (n = 0 ∧ exception crb.toNat = true ∧ old crb.toNat = false) then true else old n)
      (CopiesToCr1 rc)

/-- R906, R907: the conversions of single-precision loads and stores, field by field, and that a word loaded and stored
again is the same word. A load rebiases the exponent of a normalised number, normalises a denormal one, whose leading one
is bit k of its fraction, and keeps a zero, an infinity or a NaN. A store drops bits 2:4 and 35:63, or shifts a number
below the normal range into place. -/
def Obligations.SingleStoreUndoesLoad : Prop :=
  ∀ (w : Word) (d : DWord),
    let exp := (w.extractLsb' 23 8).toNat
    let frac := (w.setWidth 23).toNat
    let loads (e f : Nat) : Prop :=
      (doubleOf w).msb = w.msb ∧ ((doubleOf w).extractLsb' 52 11).toNat = e ∧ ((doubleOf w).setWidth 52).toNat = f
    let dexp := (d.extractLsb' 52 11).toNat
    let dfrac := (d.setWidth 52).toNat
    (0 < exp → exp < 255 → loads (exp + 896) (frac * 2 ^ 29)) ∧
    (∀ k, exp = 0 → 2 ^ k ≤ frac → frac < 2 ^ (k + 1) → loads (k + 874) ((frac - 2 ^ k) * 2 ^ (52 - k))) ∧
    (exp = 0 → frac = 0 → loads 0 0) ∧ (exp = 255 → loads 2047 (frac * 2 ^ 29)) ∧
    (896 < dexp ∨ d.setWidth 63 = 0 →
      (singleOf d).extractLsb' 30 2 = d.extractLsb' 62 2 ∧ (singleOf d).setWidth 30 = d.extractLsb' 29 30) ∧
    (874 ≤ dexp → dexp ≤ 896 → (singleOf d).msb = d.msb ∧ ((singleOf d).extractLsb' 23 8).toNat = 0 ∧
      ((singleOf d).setWidth 23).toNat = (2 ^ 52 + dfrac) / 2 ^ (897 - dexp) / 2 ^ 29) ∧
    (singleDefined d = true ↔ 874 ≤ dexp ∨ d.setWidth 63 = 0) ∧
    singleDefined (doubleOf w) = true ∧ singleOf (doubleOf w) = w ∧ singleRepresentable (doubleOf w) = true

/-- R661: with MSR[FP] = 0 every floating-point instruction (R26, R946) ends in the floating-point unavailable interrupt:
SRR0 is its own address, SRR1 the MSR, MSR and the vector those of a standard interrupt to the hypervisor, and nothing
else changes. For an external-PID load or store in user state the privileged exception comes first. -/
def Obligations.FloatUnavailable : Prop :=
  ∀ (s : State) (i : Instr), usesFp i = true → bit s.msr 50 = false →
    if bit s.msr 49 = true ∧ supervisorClass i = true then Enters i s .program false s.pc (some 0x04000000) none
    else
      Enters i s .fpUnavailable false s.pc none none ∧
        ∀ t, exec i s = .next t →
          t.int = { s.int with srr0 := s.pc, srr1 := s.msr } ∧ t.msr = s.msr &&& 0x00021202 ∧
          t.pc = (s.int.ivpr &&& 0xFFFF0000) ||| (s.int.ivor[7] &&& 0xFFF0) ∧
          t.hid = { s.hid with waiting := false } ∧
          { t with int := s.int, msr := s.msr, pc := s.pc, hid := s.hid, log := s.log, draws := s.draws } = s

/-! ### Special registers (43 R1035 to R1037; 10 R49, R50, R60) -/

/-- R1035, R1037, R50: what mfspr reads, number by number, in the states that may read it, and mftb of the same number
(log 67, the model's choice). DDAM reads 0, and so does NSPD where NSPC names no Nexus register (log 42). That guest
supervisor state reads GIVORn and GIVPR is the model's choice (log 58). -/
def Obligations.SprReads : Prop :=
  ∀ (s : State) (rD : Gpr),
    let gs := bit s.msr 35
    let reads (l : List (BitVec 10 × Word)) : Prop := ∀ x ∈ l, ReadsSpr s rD x.1 (· = x.2)
    reads
      [(1, s.xer), (8, s.lr), (9, s.ctr), (256, s.sprgs.usprg0),
       (259, if gs then s.sprgs.gsprg[3] else s.sprgs.sprg[3]), (260, s.sprgs.sprg[4]), (261, s.sprgs.sprg[5]),
       (262, s.sprgs.sprg[6]), (263, s.sprgs.sprg[7]), (268, s.tim.tb.setWidth 32), (269, s.tim.tb.extractLsb' 32 32),
       (515, s.cache.l1cfg0), (516, s.cache.l1cfg1), (517, s.dbg.npidr), (519, s.cache.l2cfg0),
       (526, s.tim.atb.setWidth 32), (527, s.tim.atb.extractLsb' 32 32), (576, 0), (975, s.dbg.devent)] ∧
    (InSupervisor s →
      reads
        [(26, if gs then s.int.gsrr0 else s.int.srr0), (27, if gs then s.int.gsrr1 else s.int.srr1), (48, s.mmu.pid),
         (61, if gs then s.int.gdear else s.int.dear), (62, if gs then s.int.gesr else s.int.esr),
         (272, if gs then s.sprgs.gsprg[0] else s.sprgs.sprg[0]),
         (273, if gs then s.sprgs.gsprg[1] else s.sprgs.sprg[1]),
         (274, if gs then s.sprgs.gsprg[2] else s.sprgs.sprg[2]),
         (275, if gs then s.sprgs.gsprg[3] else s.sprgs.sprg[3]), (276, s.sprgs.sprg[4]), (277, s.sprgs.sprg[5]),
         (278, s.sprgs.sprg[6]), (279, s.sprgs.sprg[7]), (286, if gs then s.ctl.gpir else s.ctl.pir),
         (287, s.ctl.pvr), (368, s.sprgs.gsprg[0]), (369, s.sprgs.gsprg[1]), (370, s.sprgs.gsprg[2]),
         (371, s.sprgs.gsprg[3]), (378, s.int.gsrr0), (379, s.int.gsrr1), (380, s.int.gepr), (381, s.int.gdear),
         (382, s.ctl.gpir)] ∧
      reads
        [(383, s.int.gesr), (605, s.sprgs.sprg[9]), (624, s.mmu.mas0), (625, s.mmu.mas1), (626, s.mmu.mas2),
         (627, s.mmu.mas3), (628, s.mmu.mas4), (630, s.mmu.mas6), (702, if gs then s.int.gepr else s.int.epr),
         (944, s.mmu.mas7), (947, s.mmu.eplc), (948, s.mmu.epsc), (1023, s.ctl.svr), (440, s.int.givor[0]),
         (441, s.int.givor[1]), (442, s.int.givor[2]), (443, s.int.givor[3]), (444, s.int.givor[4]),
         (445, s.int.givor[5]), (447, s.int.givpr)]) ∧
    (InHypervisor s →
      reads
        [(22, s.tim.dec), (54, s.tim.decar), (58, s.int.csrr0), (59, s.int.csrr1), (63, s.int.ivpr),
         (284, s.tim.tb.setWidth 32), (285, s.tim.tb.extractLsb' 32 32), (304, s.dbg.dbsr), (307, s.ctl.epcr),
         (308, s.dbcr0), (309, s.dbg.dbcr1), (310, s.dbg.dbcr2), (311, s.ctl.msrp), (312, s.dbg.iac1),
         (313, s.dbg.iac2), (316, s.dbg.dac1), (317, s.dbg.dac2), (336, s.tim.tsr), (338, s.mmu.lpidr),
         (339, s.mmu.mas5), (340, s.tim.tcr), (341, s.mmu.mas8), (400, s.int.ivor[0]), (401, s.int.ivor[1])] ∧
      reads
        [(402, s.int.ivor[2]), (403, s.int.ivor[3]), (404, s.int.ivor[4]), (405, s.int.ivor[5]), (406, s.int.ivor[6]),
         (407, s.int.ivor[7]), (408, s.int.ivor[8]), (409, s.int.ivor[9]), (410, s.int.ivor[10]),
         (411, s.int.ivor[11]), (412, s.int.ivor[12]), (413, s.int.ivor[13]), (414, s.int.ivor[14]),
         (415, s.int.ivor[15]), (531, s.int.ivor[16]), (532, s.int.ivor[17]), (533, s.int.ivor[18]),
         (432, s.int.ivor[19]), (433, s.int.ivor[20]), (434, s.int.ivor[21]), (435, s.int.ivor[22]),
         (563, s.dbg.dbcr4), (569, s.int.mcar.extractLsb' 32 32), (570, s.int.mcsrr0)] ∧
      reads
        [(571, s.int.mcsrr1), (572, s.int.mcsr), (573, s.int.mcar.setWidth 32), (574, s.int.dsrr0),
         (575, s.int.dsrr1), (604, s.sprgs.sprg[8]), (606, s.cache.l1csr2), (688, s.mmu.tlb0cfg),
         (689, s.mmu.tlb1cfg), (696, s.ctl.cdcsr0), (720, s.cache.l2errinten), (721, s.cache.l2errattr),
         (722, s.cache.l2erraddr), (723, s.cache.l2erreaddr), (724, s.cache.l2errctl), (725, s.cache.l2errdis),
         (984, s.dbg.nspc), (985, s.cache.l2errinjhi), (986, s.cache.l2errinjlo), (987, s.cache.l2errinjctl),
         (988, s.cache.l2captdatahi), (989, s.cache.l2captdatalo), (990, s.cache.l2captecc), (991, s.cache.l2errdet)] ∧
      reads
        [(1008, s.ctl.hid0), (1010, s.cache.l1csr0), (1011, s.cache.l1csr1), (1012, s.mmu.mmucsr0),
         (1013, s.ctl.bucsr), (1015, s.mmu.mmucfg), (1017, s.cache.l2csr0), (1018, s.cache.l2csr1)]) ∧
    (InHypervisor s → ReadsSpr s rD 983 fun v =>
      (s.dbg.nspc = 0x408 → v = s.dbg.dc1) ∧ (s.dbg.nspc = 0x40C → v = s.dbg.dc2) ∧
      (s.dbg.nspc = 0x414 → v = s.dbg.dc4) ∧ (s.dbg.nspc = 0x42C → v = s.dbg.wt1) ∧
      (s.dbg.nspc = 0x458 → v = s.dbg.wmsk) ∧ (s.dbg.nspc = 0x45C → v = s.dbg.ovcr) ∧
      (s.dbg.nspc ∉ ([0x408, 0x40C, 0x414, 0x42C, 0x458, 0x45C] : List Word) → v = 0))

/-- R1036, R50: what mtspr leaves, number by number, in the states that may write it: the next state, whole, for every
number of the map but those of TBL, TBU, DEVENT, DBCR0 and MMUCSR0 (284, 285, 975, 308, 1012), which SprWritesComplete
has. In external debug mode the debug registers keep their values (14 R250). The model's choices: a status bit that is
sticky takes the value written (log 65), flash operations complete inside the mtspr (log 30), a write of NSPD whose
index names no Nexus register changes nothing (U11, log 42), the invalid L2REP = 01 is stored as any other value by 1017
(log 95), reserved stash identifiers and CEIT by 606, 1010 and 1018 (log 77), and the error injection and capture
registers, 985 to 990 among them, are plain storage (log 31). -/
def Obligations.SprWrites : Prop :=
  ∀ (s : State) (rS : Gpr),
    let v := s.getGpr rS
    let gs := bit s.msr 35
    let int (x : IntRegs) : State := { s with int := x }
    let mmu (x : Mmu) : State := { s with mmu := x }
    let tim (x : Timers) : State := { s with tim := x }
    let ctl (x : Control) : State := { s with ctl := x }
    let cache (x : Cache) : State := { s with cache := x }
    let dbg (x : Debug) : State := { s with dbg := x }
    let sprg (k : Fin 10) : State := { s with sprgs := { s.sprgs with sprg := s.sprgs.sprg.set k v } }
    let gsprg (k : Fin 4) : State := { s with sprgs := { s.sprgs with gsprg := s.sprgs.gsprg.set k v } }
    let ivor (k : Fin 23) : State := int { s.int with ivor := s.int.ivor.set k (v &&& 0xFFF0) }
    let givor (k : Fin 6) : State := int { s.int with givor := s.int.givor.set k (v &&& 0xFFF0) }
    let external (old : Word) : Word :=
      if gs then (old &&& 0x203F0000) ||| (v &&& 0xC00000FF) else v &&& 0xE03F00FF
    let writes (l : List (BitVec 10 × State)) : Prop := ∀ x ∈ l, WritesSpr s rS x.1 x.2
    writes
      [(1, { s with xer := v &&& 0xE000007F }), (8, { s with lr := v }), (9, { s with ctr := v }),
       (256, { s with sprgs := { s.sprgs with usprg0 := v } }), (517, dbg { s.dbg with npidr := v }),
       (576, dbg { s.dbg with ddam := v })] ∧
    (InSupervisor s →
      writes
        [(26, int (if gs then { s.int with gsrr0 := v } else { s.int with srr0 := v })),
         (27, int (if gs then { s.int with gsrr1 := v } else { s.int with srr1 := v })),
         (61, int (if gs then { s.int with gdear := v } else { s.int with dear := v })),
         (62, int (if gs then { s.int with gesr := v &&& 0x0FB30040 } else { s.int with esr := v &&& 0x0FB30040 })),
         (272, if gs then gsprg 0 else sprg 0), (273, if gs then gsprg 1 else sprg 1),
         (274, if gs then gsprg 2 else sprg 2), (275, if gs then gsprg 3 else sprg 3), (276, sprg 4), (277, sprg 5),
         (278, sprg 6), (279, sprg 7), (605, sprg 9), (368, gsprg 0), (369, gsprg 1), (370, gsprg 2), (371, gsprg 3),
         (378, int { s.int with gsrr0 := v }), (379, int { s.int with gsrr1 := v }),
         (380, int { s.int with gepr := v }), (381, int { s.int with gdear := v }),
         (383, int { s.int with gesr := v &&& 0x0FB30040 }), (48, mmu { s.mmu with pid := v &&& 0xFF }),
         (624, mmu { s.mmu with mas0 := v &&& 0x103F0003 })] ∧
      writes
        [(625, mmu { s.mmu with mas1 := v &&& 0xC0FF1F00 }), (626, mmu { s.mmu with mas2 := v &&& 0xFFFFF07F }),
         (627, mmu { s.mmu with mas3 := v &&& 0xFFFFF3FF }), (628, mmu { s.mmu with mas4 := v &&& 0x10000F7F }),
         (630, mmu { s.mmu with mas6 := v &&& 0x00FF0001 }), (944, mmu { s.mmu with mas7 := v &&& 0xF }),
         (947, mmu { s.mmu with eplc := external s.mmu.eplc }), (948, mmu { s.mmu with epsc := external s.mmu.epsc })]) ∧
    (InHypervisor s →
      writes
        [(22, tim { s.tim with dec := v }), (54, tim { s.tim with decar := v }),
         (336, tim { s.tim with tsr := s.tim.tsr &&& ~~~(v &&& 0xCFFFFFFF) }),
         (340, tim { s.tim with tcr := (v &&& 0xFFDFE000) ||| (s.tim.tcr &&& 0x30000000) }),
         (58, int { s.int with csrr0 := v }), (59, int { s.int with csrr1 := v }),
         (570, int { s.int with mcsrr0 := v }), (571, int { s.int with mcsrr1 := v }),
         (574, int { s.int with dsrr0 := v }), (575, int { s.int with dsrr1 := v }),
         (572, int { s.int with mcsr := s.int.mcsr &&& ~~~v }), (63, int { s.int with ivpr := v &&& 0xFFFF0000 }),
         (447, int { s.int with givpr := v &&& 0xFFFF0000 }), (400, ivor 0), (401, ivor 1), (402, ivor 2),
         (403, ivor 3), (404, ivor 4), (405, ivor 5), (406, ivor 6), (407, ivor 7), (408, ivor 8), (409, ivor 9),
         (410, ivor 10)] ∧
      writes
        [(411, ivor 11), (412, ivor 12), (413, ivor 13), (414, ivor 14), (415, ivor 15), (531, ivor 16),
         (532, ivor 17), (533, ivor 18), (432, ivor 19), (433, ivor 20), (434, ivor 21), (435, ivor 22),
         (440, givor 0), (441, givor 1), (442, givor 2), (443, givor 3), (444, givor 4), (445, givor 5),
         (307, ctl { s.ctl with epcr := v &&& 0xFCC00000 }), (311, ctl { s.ctl with msrp := v &&& 0x04000204 }),
         (286, ctl { s.ctl with pir := v }), (382, ctl { s.ctl with gpir := v }),
         (1008, ctl { s.ctl with hid0 := v &&& 0xC00000D1 }), (1013, ctl { s.ctl with bucsr := v &&& 1 })] ∧
      writes
        [(696, s), (604, sprg 8), (338, mmu { s.mmu with lpidr := v &&& 0x3F }),
         (339, mmu { s.mmu with mas5 := v &&& 0x8000003F }), (341, mmu { s.mmu with mas8 := v &&& 0xC000003F }),
         (720, cache { s.cache with l2errinten := v &&& 0x9E }), (725, cache { s.cache with l2errdis := v &&& 0x9E }),
         (991, cache { s.cache with l2errdet := s.cache.l2errdet &&& ~~~v }),
         (721, cache { s.cache with l2errattr := v &&& 0x701F3001 }), (722, cache { s.cache with l2erraddr := v }),
         (723, cache { s.cache with l2erreaddr := v &&& 0xF }),
         (724, cache { s.cache with l2errctl := v &&& 0x00FF00FF }), (985, cache { s.cache with l2errinjhi := v }),
         (986, cache { s.cache with l2errinjlo := v }), (987, cache { s.cache with l2errinjctl := v &&& 0x000103FF }),
         (988, cache { s.cache with l2captdatahi := v }), (989, cache { s.cache with l2captdatalo := v }),
         (990, cache { s.cache with l2captecc := v }), (1018, cache { s.cache with l2csr1 := v &&& 0xBF0000FF })] ∧
      writes
        [(1010, cache { s.cache with
            l1csr0 := (v &&& 0x00010E69) ||| (if bit v 47 then v &&& 0x8000 else 0)
            lockD := if bit v 55 ∨ bit v 62 then [] else s.cache.lockD }),
         (1011, cache { s.cache with
            l1csr1 := (v &&& 0x00010E01) ||| (if bit v 47 then v &&& 0x8000 else 0)
            lockI := if bit v 55 ∨ bit v 62 then [] else s.cache.lockI }),
         (606, cache { s.cache with
            l1csr2 := v &&& 0x400000FF
            lockD := if bit v 33 = bit s.cache.l1csr2 33 then s.cache.lockD else [] }),
         (1017, cache { s.cache with
            l2csr0 := (v &&& 0xDC1130A0) ||| (if bit s.cache.l2csr0 32 then 0 else v &&& 0x800)
            lockL2 := if bit v 53 then [] else s.cache.lockL2 })]) ∧
    (InHypervisor s → bit s.dbg.edbcr0 32 = false → writes
      [(304, dbg { s.dbg with dbsr := s.dbg.dbsr &&& ~~~v }), (306, dbg { s.dbg with dbsr := v &&& 0xFFCF8060 }),
       (309, dbg { s.dbg with dbcr1 := v &&& 0xFFC00000 }), (310, dbg { s.dbg with dbcr2 := v &&& 0xFFF00000 }),
       (563, dbg { s.dbg with dbcr4 := v &&& 0xFF00 }), (312, dbg { s.dbg with iac1 := v }),
       (313, dbg { s.dbg with iac2 := v }), (316, dbg { s.dbg with dac1 := v }), (317, dbg { s.dbg with dac2 := v }),
       (984, dbg { s.dbg with nspc := v &&& 0xFFF }),
       (983,
         if s.dbg.nspc = 0x408 then dbg { s.dbg with dc1 := v &&& 0x01007F2F }
         else if s.dbg.nspc = 0x40C then dbg { s.dbg with dc2 := v }
         else if s.dbg.nspc = 0x414 then dbg { s.dbg with dc4 := v }
         else if s.dbg.nspc = 0x42C then dbg { s.dbg with wt1 := v &&& 0xFFFF0000 }
         else if s.dbg.nspc = 0x458 then dbg { s.dbg with wmsk := v &&& 0x3FFF }
         else if s.dbg.nspc = 0x45C then dbg { s.dbg with ovcr := v &&& 0x302F3001 }
         else s)]) ∧
    (InHypervisor s → bit s.dbg.edbcr0 32 = true →
      ∀ n ∈ [304, 306, 308, 309, 310, 312, 313, 316, 317, 563, 983, 984], WritesSpr s rS n s)

/-- R1036: a write that is allowed completes, and changes no general or floating-point register, no CR, FPSCR or MSR bit,
no byte of storage, no reservation and no performance monitor register. The numbers that SprWrites leaves out, each with
all that it changes: TBL, TBU, DEVENT, DBCR0, MMUCSR0; and the status and flash bits of L1CSR0 and L1CSR1. A write of TBL
or TBU changes TSR exactly as a tick would: TSR[FIS], and a stage of the watchdog (the spec's own inference: R704, G6),
where the bit of the time base that TCR selects goes from 0 to 1, and it is a time-base event where that of PMGC0[TBSEL]
does (R700). The model's choices: such a write is a transition (D37, log 70), a sticky status bit takes the value written (log 65), flash operations complete inside the mtspr (log 30), and
MAS0[NV] and TLB0[NV] are free after an invalidation (log 20). -/
def Obligations.SprWritesComplete : Prop :=
  ∀ (s : State) (rS : Gpr) (n : BitVec 10) (r : Spr), s.sprAccess n true = .ok r →
    let v := s.getGpr rS
    let tb : DWord := if n = 284 then s.tim.tb.extractLsb' 32 32 ++ v else v ++ s.tim.tb.setWidth 32
    let tsr := s.tim.tsr
    let tcr := s.tim.tcr.toNat
    let rises (k : Nat) : Bool :=
      decide (s.tim.tb.toNat / 2 ^ (63 - k) % 2 = 0 ∧ tb.toNat / 2 ^ (63 - k) % 2 = 1)
    let watched : Word :=
      if !rises (tcr / 2 ^ 17 % 16 * 4 + tcr / 2 ^ 30) then tsr
      else if !bit tsr 32 then tsr ||| 0x80000000
      else if !bit tsr 33 then tsr ||| 0x40000000
      else (tsr &&& 0xCFFFFFFF) ||| (s.tim.tcr &&& 0x30000000)
    let fixed : Word := if rises (tcr / 2 ^ 13 % 16 * 4 + tcr / 2 ^ 24 % 4) then 0x04000000 else 0
    let selected : Nat := [63, 55, 51, 47].getD (s.pm.pmgc0.toNat / 2 ^ 11 % 4) 63
    ∃ t, exec (.mtspr rS n) s = .next t ∧ t.pc = s.pc + 4 ∧ StorageKept [] s t ∧ t.gpr = s.gpr ∧ t.fpr = s.fpr ∧
      t.cr = s.cr ∧ t.fpscr = s.fpscr ∧ t.msr = s.msr ∧ t.hid = s.hid ∧ t.pm = s.pm ∧ t.env = s.env ∧
      (n = 284 ∨ n = 285 →
        { t with pc := s.pc, log := s.log } = { s with tim := { s.tim with tb := tb, tsr := watched ||| fixed } } ∧
        t.log.tbEvents = s.log.tbEvents + if bit s.pm.pmgc0 55 && rises selected then 1 else 0) ∧
      (n = 975 → { t with pc := s.pc, log := s.log } = { s with dbg := { s.dbg with devent := v &&& 0xFF0000FF } }) ∧
      (n = 308 → bit s.dbg.edbcr0 32 = false →
        { t with pc := s.pc, log := s.log } = { s with dbg := { s.dbg with dbcr0 := v &&& 0x4FCF8061 } }) ∧
      (n = 1010 → (t.cache.lockD = if bit v 55 ∨ bit v 62 then [] else s.cache.lockD) ∧
        t.cache.l1csr0 &&& 0x00010E69 = v &&& 0x00010E69 ∧ bit t.cache.l1csr0 48 = (bit v 48 && bit v 47)) ∧
      (n = 1011 → (t.cache.lockI = if bit v 55 ∨ bit v 62 then [] else s.cache.lockI) ∧
        t.cache.l1csr1 &&& 0x00010E01 = v &&& 0x00010E01 ∧ bit t.cache.l1csr1 48 = (bit v 48 && bit v 47)) ∧
      (n = 1012 →
        (∀ l, let e := s.mmu.entry l
          t.mmu.entry l =
            { e with v := e.v && !(match l with | .tlb0 .. => bit v 61 | .tlb1 _ => bit v 62 && !e.iprot) }) ∧
        { t with
          pc := s.pc
          draws := s.draws
          log := s.log
          mmu := { t.mmu with
            tlb0 := s.mmu.tlb0, tlb1 := s.mmu.tlb1, nv := s.mmu.nv, mas0 := t.mmu.mas0 &&& 0xFFFFFFFC } } =
          { s with mmu := { s.mmu with mas0 := s.mmu.mas0 &&& 0xFFFFFFFC } })

/-- R49: an access that names no register, or goes the wrong way, is an illegal instruction in every state; one that user
state may not make is a privileged instruction; one that only the hypervisor may make is a hypervisor privilege
interrupt. The model's choices: a write in user state of PVR, SVR or SPR 259 to 263 is illegal, as R49 has it, where R118
and R140 call it privileged (log 43), mftb of any number is mfspr of it (log 67), and guest supervisor state may read
GIVORn and GIVPR (log 58). -/
def Obligations.SprAccessRules : Prop :=
  ∀ (s : State) (r : Gpr) (n : BitVec 10),
    let k := n.toNat
    let pr := bit s.msr 49 = true
    let gs := bit s.msr 35 = true
    let known := k ∈ sprUserNumbers ∨ k ∈ sprGuestNumbers ∨ k ∈ sprHypervisorNumbers
    let reading := known ∧ k ∉ sprWriteOnly
    let writing := known ∧ k ∉ sprReadOnly
    let program (i : Instr) (esr : Word) : Prop := Enters i s .program false s.pc (some esr) none
    let hypervisor (i : Instr) : Prop := Enters i s .hvPrivilege false s.pc none none
    (¬reading → program (.mfspr r n) 0x08000000 ∧ program (.mftb r n) 0x08000000) ∧
    (¬writing → program (.mtspr r n) 0x08000000) ∧
    (reading → k ∉ sprUserNumbers → pr → program (.mfspr r n) 0x04000000 ∧ program (.mftb r n) 0x04000000) ∧
    (writing → k ∉ sprUserNumbers → pr → program (.mtspr r n) 0x04000000) ∧
    (reading → k ∈ sprHypervisorNumbers → k ∉ sprGuestReads → ¬pr → gs →
      hypervisor (.mfspr r n) ∧ hypervisor (.mftb r n)) ∧
    (writing → k ∈ sprHypervisorNumbers ∨ k ∈ sprGuestReads → ¬pr → gs → hypervisor (.mtspr r n))

/-- R1160, R1161: mfpmr and mtpmr by number, PMLCbn reading with its trigger state. A user alias is the supervisor number
less 16. That PMLCan has FCGS1 and FCGS0 is the model's choice (log 3). -/
def Obligations.PerformanceMoves : Prop :=
  ∀ (s : State) (r : Gpr) (n : Fin 4) (pmrn : BitVec 10),
    let pr := bit s.msr 49 = true
    let shut := bit s.ctl.msrp 61 = true ∧ bit s.msr 35 = true
    let v := s.getGpr r
    let reads (k : Nat) (w : Word) : Prop :=
      Does (.mfpmr r (BitVec.ofNat 10 k)) s { gprs := [r] } [] fun t => t.getGpr r = w
    let writes (k : Nat) (pm : PerfMon) : Prop :=
      exec (.mtpmr r (BitVec.ofNat 10 k)) s = .next { s with pm := pm }.advance
    let value (k : Nat) : Word :=
      if k = 400 then s.pm.pmgc0
      else if k = 16 + n then s.pm.pmc[n]
      else if k = 144 + n then s.pm.pmlca[n]
      else s.pm.pmlcb[n] ||| (if s.pm.trigger n then 0x00800000 else 0)
    let numbers : List Nat := [400, 16 + n, 144 + n, 272 + n]
    (¬shut → ¬pr → ∀ k ∈ numbers, reads k (value k)) ∧
    (¬shut → ∀ k ∈ numbers, reads (k - 16) (value k)) ∧
    (shut → pr → ∀ k ∈ numbers, reads (k - 16) 0) ∧
    (¬shut → ¬pr → writes 400 { s.pm with pmgc0 := v &&& 0xE0001900 } ∧
      writes (16 + n) { s.pm with pmc := s.pm.pmc.set n v } ∧
      writes (144 + n) { s.pm with pmlca := s.pm.pmlca.set n (v &&& 0xFCFF0003) } ∧
      writes (272 + n) { s.pm with pmlcb := s.pm.pmlcb.set n (v &&& 0xFF00E73F) }) ∧
    (∀ k ∈ numbers,
      (pr → Enters (.mfpmr r (BitVec.ofNat 10 k)) s .program false s.pc (some 0x04000000) none ∧
        Enters (.mtpmr r (BitVec.ofNat 10 k)) s .program false s.pc (some 0x04000000) none) ∧
      (shut → ¬pr → Enters (.mfpmr r (BitVec.ofNat 10 k)) s .hvPrivilege false s.pc none none ∧
        Enters (.mfpmr r (BitVec.ofNat 10 (k - 16))) s .hvPrivilege false s.pc none none ∧
        Enters (.mtpmr r (BitVec.ofNat 10 k)) s .hvPrivilege false s.pc none none) ∧
      Enters (.mtpmr r (BitVec.ofNat 10 (k - 16))) s .program false s.pc (some 0x08000000) none) ∧
    (pmrn.toNat ≠ 400 → pmrn.toNat ≠ 384 →
      pmrn.toNat / 4 ∉ [4, 36, 68, 0, 32, 64] →
        Enters (.mfpmr r pmrn) s .program false s.pc (some 0x08000000) none ∧
          Enters (.mtpmr r pmrn) s .program false s.pc (some 0x08000000) none)

/-! ### Supervisor instructions (45_supervisor.md) -/

/-- R1110: the instructions of the supervisor class in user state, and those of the hypervisor class in user and in guest
supervisor state, only end in the interrupt. (tlbilx is of the hypervisor class with EPCR[DGTMI].) -/
def Obligations.PrivilegeGates : Prop :=
  ∀ (s : State) (i : Instr),
    (bit s.msr 49 = true → supervisorClass i = true ∨ hypervisorClass i = true →
      Enters i s .program false s.pc (some 0x04000000) none) ∧
    (bit s.msr 49 = false → bit s.msr 35 = true →
      hypervisorClass i = true ∨ (∃ t rA rB, i = .tlbilx t rA rB ∧ bit s.ctl.epcr 40 = true) →
        Enters i s .hvPrivilege false s.pc none none)

/-- R1111 to R1117, R1120 to R1123: the instructions that read and write MSR, in a state that may execute them. In guest
supervisor state GS, ME and the bits that MSRP protects stay (ME: log 44). A return is no debug event. -/
def Obligations.MsrMoves : Prop :=
  ∀ (s : State) (r : Gpr) (e : Bool), InSupervisor s →
    let gs := bit s.msr 35
    let keep : Word :=
      if gs then 0x10001000 ||| (if bit s.ctl.msrp 37 then 0x04000000 else 0) |||
        (if bit s.ctl.msrp 54 then 0x200 else 0) ||| (if bit s.ctl.msrp 61 then 4 else 0)
      else 0
    let msr (v : Word) : Word := (s.msr &&& keep) ||| (v &&& 0x1402FB36 &&& ~~~keep)
    let returns (i : Instr) (srr0 srr1 : Word) : Prop :=
      ∃ l, exec i s = .next { s with pc := srr0 &&& 0xFFFFFFFC, msr := msr srr1, log := l }
    let ee (v : Bool) : Word := (s.msr &&& 0xFFFF7FFF) ||| (if v then 0x8000 else 0)
    (s.debugAction (s.enabledBit 48 dbRet) s.de = .ignore →
      returns .rfi (if gs then s.int.gsrr0 else s.int.srr0) (if gs then s.int.gsrr1 else s.int.srr1) ∧
      returns .rfgi s.int.gsrr0 s.int.gsrr1) ∧
    (gs = false → (s.debugAction (s.enabledBit 58 dbCret) s.de = .ignore →
        returns .rfci s.int.csrr0 s.int.csrr1) ∧
      returns .rfdi s.int.dsrr0 s.int.dsrr1 ∧ returns .rfmci s.int.mcsrr0 s.int.mcsrr1) ∧
    exec (.mfmsr r) s = .next (s.setGpr r s.msr).advance ∧
    exec (.mtmsr r) s = .next { s with msr := msr (s.getGpr r) }.advance ∧
    exec (.wrtee r) s = .next { s with msr := ee (bit (s.getGpr r) 48) }.advance ∧
    exec (.wrteei e) s = .next { s with msr := ee e }.advance

/-- R1139 to R1141, R1150: msgsnd leaves the core; msgclr clears the doorbell of its type; dnh halts if EDBCR0[DNH_EN] and is
illegal otherwise. The model's choice: the core receives its own message too, so msgsnd sets its doorbell of that type if
its filter accepts it (D29, log 38), and that filter compares all eight bits of LPIDTAG (log 93). -/
def Obligations.MessagesAndHalt : Prop :=
  ∀ (s : State) (rB : Gpr) (dui : BitVec 5) (duis : BitVec 10),
    let m : Nat := (s.getGpr rB).toNat
    let type : Nat := m / 2 ^ 27
    let accepted : Prop := type < 5 ∧ (m / 2 ^ 14 % 256 = 0 ∨ m / 2 ^ 14 % 256 = s.mmu.lpidr.toNat % 256) ∧
      (m / 2 ^ 26 % 2 = 1 ∨ m % 2 ^ 14 = (if type ≤ 1 then s.ctl.pir else s.ctl.gpir).toNat % 2 ^ 14)
    (InHypervisor s →
      (∃ t, exec (.msgsnd rB) s = .next t ∧ t.log.msgOut = some (s.getGpr rB) ∧
        { t with hid := s.hid, log := s.log } = { s with pc := s.pc + 4 } ∧
        { t.hid with dbell := s.hid.dbell } = s.hid ∧
        ∀ k : Fin 5, t.hid.dbell[k] = true ↔ s.hid.dbell[k] = true ∨ (accepted ∧ type = k)) ∧
      (∃ t, exec (.msgclr rB) s = .next t ∧
        { t with hid := s.hid, log := s.log } = { s with pc := s.pc + 4 } ∧
        { t.hid with dbell := s.hid.dbell } = s.hid ∧
        ∀ k : Fin 5, t.hid.dbell[k] = true ↔ s.hid.dbell[k] = true ∧ type ≠ k)) ∧
    (bit s.dbg.edbcr0 33 = true → ∃ t, exec (.dnh dui duis) s = .next t ∧ t.hid = { s.hid with dbgHalted := true } ∧
      t.dbg.prsr.toNat % 32 = dui.toNat ∧ bit t.dbg.prsr 35 = true ∧
      { t with hid := s.hid, dbg := { t.dbg with prsr := s.dbg.prsr } } = s) ∧
    (bit s.dbg.edbcr0 33 = false → Enters (.dnh dui duis) s .program false s.pc (some 0x08000000) none)

/-! ### Memory management (21_mmu.md) -/

/-- R330, R331, R335 to R340: a fetch is translated in the running context with MSR[IS], a data access with MSR[DS], an
external-PID access in that of EPLC or EPSC. An address is translated by the one entry that matches it; none is a miss,
several are a multiple hit; then come VF for data, the permission bit, and the real address from the entry's page and the
offset. The order of these is the spec's own reading (R330). -/
def Obligations.Translation : Prop :=
  (∀ s : State, s.fetchCtx = runningContext s (bit s.msr 58) ∧ ∀ p, s.dataCtx p = accessContext s p) ∧
  ∀ (m : Mmu) (c : Ctx) (k : AccessKind) (ea : Word),
    ((∀ l, ¬entryMatches m c ea l) → m.translate c k ea = .error .miss) ∧
    (∀ l l', l ≠ l' → entryMatches m c ea l → entryMatches m c ea l' → m.translate c k ea = .error .multiple) ∧
    ∀ l, entryMatches m c ea l → (∀ l', entryMatches m c ea l' → l' = l) →
      let e := m.entry l
      let size := pageBytes l e
      m.translate c k ea =
        if k ≠ .execute ∧ e.vf = true then .error .virtualization
        else if permitted e k c.pr then
          .ok { ra := BitVec.ofNat 36 (e.rpn.toNat * 4096 / size * size + ea.toNat % size), wimge := e.wimge }
        else .error .denied

/-- R348, R349, R352: tlbwe makes the entry that MAS0 and MAS2 select what the MAS registers describe, field by field, and
the next-victim number of its TLB0 set MAS0[NV]; it changes no other entry and no MAS register. tlbre shows the selected
entry in the MAS registers, from every hypervisor state; after a tlbwe it reads the same fields back. That a page size
which TLB1 does not have is written as 4 Kbytes is the model's choice (log 74). -/
def Obligations.TlbReadsBackWrite : Prop :=
  ∀ s : State, InHypervisor s →
    let m := s.mmu
    let l := chosenEntry m
    let one := bit m.mas0 35 = true
    let size := m.mas1.toNat / 256 % 16
    let set := m.mas2.toNat / 4096 % 128
    let writes (t : State) : Prop :=
      t.mmu.entry l = describedEntry m ∧ (∀ k, k ≠ l → t.mmu.entry k = m.entry k) ∧
      (∀ k : Fin 128, t.mmu.nv[k] = if ¬one ∧ k.val = set then BitVec.ofNat 2 m.mas0.toNat else m.nv[k]) ∧
      { t.mmu with tlb0 := m.tlb0, nv := m.nv, tlb1 := m.tlb1 } = m
    Does .tlbwe s { mmu := true } [] writes ∧
    Does .tlbre s { mmu := true } [] (fun t =>
      ShowsEntry s l t.mmu ∧ t.mmu.mas0.toNat = m.mas0.toNat / 4 * 4 + (victimOf m l).toNat ∧
      { t.mmu with mas0 := m.mas0, mas1 := m.mas1, mas2 := m.mas2, mas3 := m.mas3, mas7 := m.mas7, mas8 := m.mas8 } =
        m) ∧
    ∃ t u, exec .tlbwe s = .next t ∧ exec .tlbre t = .next u ∧ u.pc = t.pc + 4 ∧
      (one → u.mmu.mas0 = m.mas0 &&& 0xFFFFFFFC ∧ u.mmu.mas1 =
        (m.mas1 &&& 0xC0FF1000) ||| (if 1 ≤ size ∧ size ≤ 11 then m.mas1 &&& 0xF00 else 0x100)) ∧
      (¬one → u.mmu.mas0 = m.mas0 ∧ u.mmu.mas1 = (m.mas1 &&& 0x80FF1000) ||| 0x100) ∧
      u.mmu.mas2 = m.mas2 &&& 0xFFFFF07F ∧ u.mmu.mas3 = m.mas3 &&& 0xFFFFF3FF ∧
      u.mmu.mas7 = (if bit s.ctl.hid0 56 then m.mas7 &&& 0xF else m.mas7) ∧ u.mmu.mas8 = m.mas8 &&& 0xC000003F

/-- R350: tlbsx searches in the context of MAS5 and MAS6. One match loads its place and its entry into the MAS registers,
none the template with V = 0 and the proposed victim; rA other than 0 is illegal. Several matches are an error report,
which sets MCSR[ST] (log 52, the model's choice), or with their detection off a fault (log 21). -/
def Obligations.TlbSearches : Prop :=
  ∀ (s : State) (rA rB : Gpr), InHypervisor s →
    let ea := s.getGpr rB
    let m := s.mmu
    let c : Ctx := { gs := bit m.mas5 32, lpid := BitVec.ofNat 6 m.mas5.toNat, as := bit m.mas6 63,
                     pid := BitVec.ofNat 8 (m.mas6.toNat / 2 ^ 16), pr := false }
    let nv := (m.nv[ea.toNat / 4096 % 128]'(Nat.mod_lt _ (by decide))).toNat
    (rA ≠ 0 → Enters (.tlbsx rA rB) s .program false s.pc (some 0x08000000) none) ∧
    (rA = 0 → (∀ l, ¬entryMatches m c ea l) → Does (.tlbsx rA rB) s { mmu := true } [] fun t =>
      t.mmu.mas0.toNat = (if bit m.mas4 35 then 2 ^ 28 else nv * 2 ^ 16 + (nv + 1) % 4) ∧
      t.mmu.mas1 = (m.mas6 &&& 0x00FF0000) ||| (if bit m.mas6 63 then 0x1000 else 0) ||| (m.mas4 &&& 0xF00) ∧
      t.mmu.mas2 = (ea &&& 0xFFFFF000) ||| (m.mas4 &&& 0x7F) ∧ t.mmu.mas3 = 0 ∧
      t.mmu.mas7 = (if bit s.ctl.hid0 56 then 0 else m.mas7) ∧
      { t.mmu with mas0 := m.mas0, mas1 := m.mas1, mas2 := m.mas2, mas3 := m.mas3, mas7 := m.mas7 } = m) ∧
    (rA = 0 → ∀ l, entryMatches m c ea l → (∀ l', entryMatches m c ea l' → l' = l) →
      Does (.tlbsx rA rB) s { mmu := true } [] fun t =>
        ShowsEntry s l t.mmu ∧
        t.mmu.mas0.toNat = (match l with
          | .tlb0 _ way => way.toNat * 2 ^ 16
          | .tlb1 n => 2 ^ 28 + n.toNat * 2 ^ 16) + (victimOf m l).toNat ∧
        { t.mmu with mas0 := m.mas0, mas1 := m.mas1, mas2 := m.mas2, mas3 := m.mas3, mas7 := m.mas7, mas8 := m.mas8 } =
          m) ∧
    (rA = 0 → ∀ l l', l ≠ l' → entryMatches m c ea l → entryMatches m c ea l' →
      if bit s.ctl.hid0 33 then ReportsHits (.tlbsx rA rB) s s 0x4000 ea
      else exec (.tlbsx rA rB) s = .fault .overlappingTlbEntries)

/-- R351, R353, R354: which entries tlbilx and tlbivax make invalid; tlbsync changes nothing. The model's choices: exactly
the selected entries and no other (log 34), rA other than 0 adds GPR[rA] (log 61), tlbilx with T = 2, which the spec
leaves reserved, selects none (log 45), MAS0[NV] and TLB0[NV] are free afterwards (log 20). -/
def Obligations.TlbInvalidations : Prop :=
  ∀ (s : State) (rA rB : Gpr), InSupervisor s →
    let ea := orZero s rA + s.getGpr rB
    let lpid (e : TlbEntry) := e.tlpid.toNat = s.mmu.mas5.toNat % 64
    let pid (e : TlbEntry) := e.tid.toNat = s.mmu.mas6.toNat / 2 ^ 16 % 256
    let inOne (l : TlbLoc) : Bool := match l with | .tlb0 .. => false | .tlb1 _ => true
    (bit s.msr 35 = false ∨ bit s.ctl.epcr 40 = false →
      Invalidates (.tlbilx 0 rA rB) s (fun _ e => lpid e) ∧
      Invalidates (.tlbilx 1 rA rB) s (fun _ e => lpid e ∧ pid e) ∧
      Invalidates (.tlbilx 2 rA rB) s (fun _ _ => False) ∧
      Invalidates (.tlbilx 3 rA rB) s (fun l e => lpid e ∧ pid e ∧ pageHolds l e ea)) ∧
    (bit s.msr 35 = false →
      Invalidates (.tlbivax rA rB) s (fun l e => inOne l = bit ea 60 ∧
        (bit ea 61 = true ∨ (lpid e ∧ e.tgs = bit s.mmu.mas5 32 ∧ pageHolds l e ea))) ∧
      Does .tlbsync s {} [] fun _ => True)

/-! ### Cache blocks (44_sync_cache.md) -/

/-- R1071, R1072, R1078, R1079, R1096, R1097: dcbz and its kin store zeros into the block of 64 bytes (32 with
L1CSR0[DCBZ32], but not dcbzl). Where dcbz ends in an interrupt, and while the data cache is disabled, dcba only
completes. -/
def Obligations.BlocksZeroed : Prop :=
  ∀ (s : State) (rA rB : Gpr), s.mem.wf →
    let ea := orZero s rA + s.getGpr rB
    let n := if bit s.cache.l1csr0 60 then 32 else 64
    let zeroes (i : Instr) (a : Access) (n : Nat) : Prop := ZeroesBlock i s a ea n ∧ RefusesWI i s a ea
    zeroes (.dcbz rA rB) .store n ∧ zeroes (.dcbzl rA rB) .store 64 ∧
    (InSupervisor s → zeroes (.dcbzep rA rB) Access.store.external n ∧
      zeroes (.dcbzlep rA rB) Access.store.external 64) ∧
    (bit s.cache.l1csr0 63 = true → ZeroesBlock (.dcba rA rB) s .store ea n ∧
      ZeroesBlock (.dcbal rA rB) s .store ea 64) ∧
    ((∀ x, s.place .store ea 1 ≠ .error (.xlate .multiple, x)) →
      (∀ p, s.place .store ea 1 = .ok p → p.w = true ∨ p.i = true ∨ bit s.cache.l1csr0 63 = false) →
        Does (.dcba rA rB) s {} [] (fun _ => True) ∧ Does (.dcbal rA rB) s {} [] fun _ => True)

/-- R1073 to R1075, R1080, R1092, R1093, R1098: the flushing and invalidating instructions. Storage holds the newest
bytes already; what they change is the locks of the lines that leave: dcbf, dcbst and dcbi lose those in the L1 data and
the L2 cache, icbi that in the L1 instruction cache. The model's choices: storage is transparent to the caches (log 23),
and a lock is lost in the L2 cache (log 88) and in a disabled L1 cache (log 89) too. -/
def Obligations.BlocksFlushed : Prop :=
  ∀ (s : State) (rA rB : Gpr),
    let ea := orZero s rA + s.getGpr rB
    let data (b : BitVec 30) (c : Cache) : Cache :=
      { c with lockD := withoutLock b c.lockD, lockL2 := withoutLock b c.lockL2 }
    let instr (b : BitVec 30) (c : Cache) : Cache := { c with lockI := withoutLock b c.lockI }
    LeavesCaches (.dcbf rA rB) s (blockRead true .running) ea data ∧
    LeavesCaches (.dcbst rA rB) s (blockRead true .running) ea data ∧
    LeavesCaches (.icbi rA rB) s (blockRead false .running) ea instr ∧
    (InSupervisor s →
      LeavesCaches (.dcbi rA rB) s .store ea data ∧
      LeavesCaches (.dcbfep rA rB) s (blockRead true .extLoad) ea data ∧
      LeavesCaches (.dcbstep rA rB) s (blockRead true .extLoad) ea data ∧
      LeavesCaches (.icbiep rA rB) s (blockRead false .extLoad) ea instr)

/-- R1084 to R1089: the lock instructions, where the state may execute them: every form completes, with these caches and
nothing else changed. CT = 0 names an L1 cache, CT = 2 the L2 cache, and another CT does nothing (log 63). They lock a
block that its set has room for (one locked already is no overlock: log 60), report a full set, or with L2CSR0[L2LOA] let a
line of it give way, report a cache that cannot lock, a line that is to be loaded from an absent address among these
(log 90), and unlock. (If both kinds have named a block since the last sync, its lock in the L1 data cache is free:
log 33.) Where the state may not execute them, which is tested before the address is translated (log 64): a data storage
interrupt with DLK or ILK in user state, a hypervisor privilege interrupt in guest supervisor state. -/
def Obligations.BlocksLocked : Prop :=
  ∀ (s : State) (rA rB : Gpr) (ct : BitVec 4) (write : Bool),
    let ea := orZero s rA + s.getGpr rB
    let c := s.cache
    let allowed : Prop := if bit s.msr 49 then bit s.msr 37 = true else bit s.msr 35 = false ∨ bit s.ctl.msrp 37 = false
    let lockData (ct : BitVec 4) : Instr := if write then .dcbtstls ct rA rB else .dcbtls ct rA rB
    let locks (i : Instr) (p : Placed) (cannot room giveWay : Bool) (are : State → Cache → Prop)
        (unable full locked : Cache) : Prop :=
      let absent : Bool := decide (s.regionOf (blockBytes p 64) = some .absent)
      (cannot || (absent && (room || giveWay)) → ChangesCaches i s fun t => t.cache = unable) ∧
      (!cannot && !absent && room → ChangesCaches i s fun t => are t locked) ∧
      (!cannot && !room && !giveWay → ChangesCaches i s fun t => are t full)
    let locks2 (i : Instr) (p : Placed) (kept : Nat) (unable : Cache) : Prop :=
      let b := blockNumber p
      let giveWay := bit c.l2csr0 56
      let room : Bool := decide (roomFor 256 b c.lockL2)
      let cannot := !bit c.l2csr0 32 || p.i || bit c.l2csr0 kept
      locks i p cannot room giveWay (CachesAre s · b false) unable { c with l2csr0 := c.l2csr0 ||| 0x20 }
        { c with lockL2 := withLock b c.lockL2 } ∧
      (!cannot && !room && giveWay → s.regionOf (blockBytes p 64) ≠ some .absent → ChangesCaches i s fun t =>
        ∃ y ∈ c.lockL2, y.toNat % 256 = b.toNat % 256 ∧
          CachesAre s t b false
            { c with l2csr0 := c.l2csr0 ||| 0x20, lockL2 := withLock b (withoutLock y c.lockL2) })
    let unableData : Cache := { c with l1csr0 := c.l1csr0 ||| 0x400 }
    let unableInstr : Cache := { c with l1csr1 := c.l1csr1 ||| 0x400 }
    let unlocks2 (i : Instr) (p : Placed) : Prop :=
      ChangesCaches i s fun t =>
        if bit c.l2csr0 32 then
          CachesAre s t (blockNumber p) false { c with lockL2 := withoutLock (blockNumber p) c.lockL2 }
        else t.cache = c
    let nothing (f : BitVec 4 → Instr) : Prop :=
      ct ≠ 0 → ct ≠ 2 → ChangesCaches (f ct) s fun t => t.cache = c
    (allowed → ∀ p, ReachesBlock s (blockRead write .running) ea p →
      let b := blockNumber p
      locks (lockData 0) p (!bit c.l1csr0 63 || p.i) (decide (roomFor 64 b c.lockD)) false (CachesAre s · b true) unableData
        { c with l1csr0 := c.l1csr0 ||| 0x200 } { c with lockD := withLock b c.lockD } ∧
      locks2 (lockData 2) p 43 unableData ∧ nothing lockData) ∧
    (allowed → ∀ p, ReachesBlock s (blockRead false .running) ea p →
      let b := blockNumber p
      locks (.icbtls 0 rA rB) p (!bit c.l1csr1 63 || p.i) (decide (roomFor 64 b c.lockI)) false (·.cache = ·) unableInstr
        { c with l1csr1 := c.l1csr1 ||| 0x200 } { c with lockI := withLock b c.lockI } ∧
      locks2 (.icbtls 2 rA rB) p 47 unableInstr ∧ nothing (.icbtls · rA rB) ∧
      ChangesCaches (.icblc 0 rA rB) s (fun t =>
        t.cache = { c with lockI := if bit c.l1csr1 63 then withoutLock b c.lockI else c.lockI }) ∧
      unlocks2 (.icblc 2 rA rB) p ∧ nothing (.icblc · rA rB)) ∧
    (allowed → ∀ p, ReachesBlock s (blockRead true .running) ea p →
      let b := blockNumber p
      ChangesCaches (.dcblc 0 rA rB) s (fun t =>
        if bit c.l1csr0 63 then CachesAre s t b true { c with lockD := withoutLock b c.lockD } else t.cache = c) ∧
      unlocks2 (.dcblc 2 rA rB) p ∧ nothing (.dcblc · rA rB)) ∧
    (¬allowed →
      let refused (i : Instr) (esr : Word) : Prop :=
        if bit s.msr 49 then
          Enters i s .dataStorage (bit s.msr 35 && bit s.ctl.epcr 35) s.pc (some esr) (some ea)
        else Enters i s .hvPrivilege false s.pc none none
      refused (.dcbtls ct rA rB) 0x00200000 ∧ refused (.dcbtstls ct rA rB) 0x00200000 ∧
      refused (.dcblc ct rA rB) 0x00200000 ∧ refused (.icbtls ct rA rB) 0x00100000 ∧
      refused (.icblc ct rA rB) 0x00100000)

/-- R1076, R1077, R1081, R1094, R1095: the touches complete and change no register and no byte of storage, wherever their
address is: without an entry, without permission, in a device. With CT = 2 the lock of the touched block alone may change,
if a lock instruction with CT = 0 has named it since the last sync (log 33); with another CT the caches stay. A multiple
hit and a touch that is a debug event are left aside. -/
def Obligations.TouchesOnlyComplete : Prop :=
  ∀ (s : State) (rA rB : Gpr) (ct : BitVec 4),
    let ea := orZero s rA + s.getGpr rB
    let touches (i : Instr) (ctx : PidContext) : Prop :=
      s.debugAction (s.dacEvents false ea) s.de = .ignore →
      (∀ x, s.place { Access.load with ctx := ctx } ea 1 ≠ .error (.xlate .multiple, x)) →
        Does i s { cache := true } [] fun t =>
          ((ct ≠ 2 ∨ ∀ p, s.place { Access.load with ctx := ctx } ea 1 ≠ .ok p) → t.cache = s.cache) ∧
          ∀ p, s.place { Access.load with ctx := ctx } ea 1 = .ok p → CachesAre s t (blockNumber p) false s.cache
    touches (.dcbt ct rA rB) .running ∧ touches (.dcbtst ct rA rB) .running ∧ touches (.icbt ct rA rB) .running ∧
    (InSupervisor s → touches (.dcbtep ct rA rB) .extLoad ∧ touches (.dcbtstep ct rA rB) .extLoad)

/-! ### The machine (60_exceptions.md, 62_timers_power_mp.md, 70_reset_and_hazards.md) -/

/-- R601, R604 to R606, R610: what taking an interrupt saves, what it makes of MSR, where it goes, and that it changes
nothing else. -/
def Obligations.InterruptEntry : Prop :=
  ∀ (s : State) (i : Interrupt),
    let t := s.takeInterrupt i
    let standard : List (IntKind × Fin 23) :=
      [(.dataStorage, 2), (.instrStorage, 3), (.externalInput, 4), (.alignment, 5), (.program, 6), (.fpUnavailable, 7),
       (.systemCall, 8), (.decrementer, 10), (.fixedInterval, 11), (.dataTlbError, 13), (.instrTlbError, 14),
       (.perfMonitor, 16), (.doorbell, 17), (.hvSystemCall, 21), (.hvPrivilege, 22)]
    let critical : List (IntKind × Fin 23) :=
      [(.criticalInput, 0), (.watchdog, 12), (.doorbellCritical, 18), (.guestDoorbellCritical, 20),
       (.guestDoorbellMachineCheck, 20)]
    let machineCheck : List (IntKind × Fin 23) := [(.machineCheck, 1), (.errorReport, 1), (.nmi, 1)]
    let guest : List (IntKind × Fin 6) :=
      [(.dataStorage, 0), (.instrStorage, 1), (.externalInput, 2), (.systemCall, 3), (.dataTlbError, 4),
       (.instrTlbError, 5)]
    let saved : IntRegs := { t.int with esr := s.int.esr, dear := s.int.dear, gesr := s.int.gesr, gdear := s.int.gdear }
    let enters (k : IntKind) (ivor : Fin 23) (pair : IntRegs) (keep : Word) : Prop :=
      i.kind = k → i.guest = false →
        saved = pair ∧ t.msr = s.msr &&& keep ∧ t.pc = (s.int.ivpr &&& 0xFFFF0000) ||| (s.int.ivor[ivor] &&& 0xFFF0)
    let keepGuest : Word :=
      0x10021202 ||| (if bit s.ctl.msrp 37 then 0x04000000 else 0) ||| (if bit s.ctl.msrp 61 then 4 else 0)
    (∀ x ∈ standard, enters x.1 x.2 { s.int with srr0 := i.ret, srr1 := s.msr } 0x00021202) ∧
    enters .guestDoorbell 19 { s.int with gsrr0 := i.ret, gsrr1 := s.msr } 0x00021202 ∧
    (∀ x ∈ critical, enters x.1 x.2 { s.int with csrr0 := i.ret, csrr1 := s.msr } 0x00001202) ∧
    enters .debug 15 { s.int with dsrr0 := i.ret, dsrr1 := s.msr } 0x00001002 ∧
    (∀ x ∈ machineCheck, enters x.1 x.2 { s.int with mcsrr0 := i.ret, mcsrr1 := s.msr } 0) ∧
    (∀ x ∈ guest, i.kind = x.1 → i.guest = true →
      saved = { s.int with gsrr0 := i.ret, gsrr1 := s.msr } ∧ t.msr = s.msr &&& keepGuest ∧
      t.pc = (s.int.givpr &&& 0xFFFF0000) ||| (s.int.givor[x.2] &&& 0xFFF0)) ∧
    (t.int.esr = if i.guest then s.int.esr else i.esr.getD s.int.esr) ∧
    (t.int.dear = if i.guest then s.int.dear else i.dear.getD s.int.dear) ∧
    (t.int.gesr = if i.guest then i.esr.getD s.int.gesr else s.int.gesr) ∧
    (t.int.gdear = if i.guest then i.dear.getD s.int.gdear else s.int.gdear) ∧
    t.hid = { s.hid with reserve := if i.async then none else s.hid.reserve, waiting := false } ∧
    { t with int := s.int, msr := s.msr, pc := s.pc, hid := s.hid, log := s.log } = s

/-- R613, R627: a step. Where no input changes, the start of a step moves on the alternate time base alone; a tick of the
time base in it sets TSR[FIS], ENW, WIS, WRS and DIS as R700, R703 and R704 have it (the watchdog's three stages are the
spec's own inference: R704 marks them 'from general knowledge, not in source', G6). Then an asynchronous interrupt is
taken, of those that are pending and enabled (R611, R612) the one of highest priority (R625), with what its entry does
besides (R655, R656, R712; that (G)EPR becomes 0 without external proxy follows R656 and R610 against 92 EXT_PROXY: log
39); without one, the word at the real address of the next instruction address is fetched, in the byte order of its page,
decoded and executed; a core that waits or does not run does nothing. A fetch that finds no entry, no permission or several entries
ends in the instruction TLB error (R668, R244), the instruction storage interrupt (R658) or the error report (R653, or a
fault without detection: log 21), and a word that is no instruction in the program interrupt of an illegal one. What
follows is the debug events, none with debugging off, the performance monitor, which changes its own registers alone
and counts by the state that the instruction began in (R780), and what is left of the fetch group: a caching-inhibited
fetch of a device is one read of its line for the instructions of one group that follow each other (R845, R292). The
model's choices: a pending asynchronous interrupt is taken at the first boundary (log 26), a fetch sees the bytes as
stored (log 24), and which instructions form one group (log 94). -/
def Obligations.StepRunsInstruction : Prop :=
  ∀ s : State,
    let b := s.beginStep.noteUde
    let r := b.noteIac
    let directed (n : Nat) : Bool := bit r.msr 35 && bit r.ctl.epcr n
    let fetched := r.mmu.translate (runningContext r (bit r.msr 58)) .execute r.pc
    let missed : State := { r with mmu := missedMmu r (directed 34) (runningContext r (bit r.msr 58)) r.pc }
    let interrupt (k : IntKind) (guest : Bool) (esr : Option Word) : Interrupt :=
      { kind := k, guest := guest, async := false, ret := r.pc, esr := esr, dear := none }
    let ends (t : State) : Prop := step s = .next (b.closeStep none (r.afterInstr none t))
    let tsr := s.tim.tsr
    let tcr := s.tim.tcr.toNat
    let rises (n : Nat) : Bool :=
      decide (s.tim.tb.toNat / 2 ^ (63 - n) % 2 = 0 ∧ (s.tim.tb.toNat + 1) / 2 ^ (63 - n) % 2 = 1)
    let watched : Word :=
      if !rises (tcr / 2 ^ 17 % 16 * 4 + tcr / 2 ^ 30) then tsr
      else if !bit tsr 32 then tsr ||| 0x80000000
      else if !bit tsr 33 then tsr ||| 0x40000000
      else (tsr &&& 0xCFFFFFFF) ||| (s.tim.tcr &&& 0x30000000)
    let timed : Word :=
      (if rises (tcr / 2 ^ 13 % 16 * 4 + tcr / 2 ^ 24 % 4) then 0x04000000 else 0) |||
        (if s.tim.dec = 1 then 0x08000000 else 0)
    (s.env.script = [] → s.env.tben = false → s.env.mcp = false → s.env.ude = false →
      { b with tim := { b.tim with atb := s.tim.atb }, log := s.log } = s) ∧
    (s.tbRuns = true → { s.timerTick with log := s.log } =
      { s with tim := { s.tim with tb := s.tim.tb + 1, dec := s.tim.decStep.dec, tsr := watched ||| timed } }) ∧
    s.coreWrs.toNat = tsr.toNat / 2 ^ 28 % 4 ∧
    (∀ u : State, u.asyncPending = ((asyncDue u).find? Prod.snd).map Prod.fst ∧ TakesAsync u) ∧
    (∀ k, b.running = true → b.asyncPending = some k →
      step s = .next (b.closeStep none ((b.takeAsync k).afterEvents (b.takeAsync k).de))) ∧
    (b.running = false ∨ (b.asyncPending = none ∧ b.hid.waiting = true) → step s = .next (b.closeStep none b)) ∧
    (∀ x, fetched = .ok x → r.pc.toNat % 4 = 0 → ∃ p, r.fetchPlace = .ok p ∧
      p.bytes = [x.ra, x.ra + 1, x.ra + 2, x.ra + 3] ∧ p.wimge = x.wimge ∧ p.e = x.wimge.getLsbD 0) ∧
    (∀ p v, r.fetchPlace = .ok p → r.regionOf p.bytes = none → Holds r p v → r.fetch = .ok (BitVec.ofNat 32 v, r)) ∧
    (∀ p w u, r.fetchPlace = .ok p → r.fetch = .ok (w, u) → u.log.devices = r.log.devices ++
      if r.regionOf p.bytes = none ∨ r.hid.fetched = some p.ra then []
      else
        let line := if p.i then blockBytes p 64 else p.bytes
        let seen := line.filter fun a => r.regionAt a = some .device
        if seen = [] then [] else [{ op := .read, addrs := seen, data := [], decoration := none }]) ∧
    (b.running = true → b.asyncPending = none → b.hid.waiting = false → r.debugAction r.iacEvents r.de = .ignore →
      (∀ i t, DebugOff t → r.afterInstr i t = t) ∧
      (fetched = .error .miss → ends (missed.takeInterrupt (interrupt .instrTlbError (directed 34) none))) ∧
      (fetched = .error .denied → ends (r.takeInterrupt (interrupt .instrStorage (directed 36) (some 0)))) ∧
      (fetched = .error .multiple →
        if bit r.ctl.hid0 33 then ends (hitReported r 0x00010000 r.pc) else step s = .fault .overlappingTlbEntries) ∧
      ∀ w u, r.fetch = .ok (w, u) →
        { u with log := r.log, draws := r.draws } = r ∧
        (∀ e, decode w = .error e → ends (u.takeInterrupt (interrupt .program false (some 0x08000000)))) ∧
        ∀ i, decode w = .ok i →
          (∀ t, exec i u = .next t → step s = .next (b.closeStep (some i) (r.afterInstr (some i) t))) ∧
          (∀ f, exec i u = .fault f → step s = .fault f) ∧ (∀ f, exec i u = .refused f → step s = .refused f)) ∧
    (∀ i t, { b.closeStep i t with pm := t.pm, hid := t.hid } = t ∧
      (b.closeStep i t).hid = { t.hid with fetched := b.groupLeft i t }) ∧
    (∀ t, b.groupLeft none t = none) ∧
    ∀ i t p, b.fetchPlace = .ok p → b.groupLeft (some i) t =
      if p.i ∧ b.regionOf p.bytes = some .device ∧ p.ra.toNat % 16 < 12 ∧ t.running ∧ t.log.interrupts = [] ∧
          i ∉ [.isync, .rfi, .rfgi, .rfci, .rfdi, .rfmci] ∧ t.pc = b.pc + 4 then some (p.ra + 4)
      else none

/-- R700, R702, R703, R705: the decrementer counts down to 0, sets TSR[DIS] there whatever TCR[DIE] is, and stops, or starts again from
DECAR with TCR[ARE]; DIE gates the interrupt, which needs MSR[EE] or MSR[GS]; it steps with the time base; writing it
raises nothing. The fixed-interval timer sets TSR[FIS] exactly when the bit of the time base that TCR[FPEXT] and TCR[FP]
select goes from 0 to 1, whatever TCR[FIE] is; a tick never clears it; FIE gates the interrupt. The watchdog interrupt
needs TSR[WIS], TCR[WIE] and MSR[CE] or MSR[GS] (R664 to R666). -/
def Obligations.DecrementerSteps : Prop :=
  ∀ (t : Timers) (s : State) (rS : Gpr),
    let after (k : Nat) : Timers := Timers.decStep^[k] t
    let tcr := s.tim.tcr.toNat
    let weight : Nat := 2 ^ (63 - (tcr / 2 ^ 13 % 16 * 4 + tcr / 2 ^ 24 % 4))
    (∀ k, t.dec = 0 → after k = t) ∧
    (∀ k, k < t.dec.toNat → after k = { t with dec := t.dec - BitVec.ofNat 32 k }) ∧
    (t.dec ≠ 0 → after t.dec.toNat =
      { t with dec := if bit t.tcr 41 then t.decar else 0, tsr := t.tsr ||| 0x08000000 }) ∧
    (t.decPending = true ↔ bit t.tsr 36 = true ∧ bit t.tcr 37 = true) ∧
    (s.asyncPending = some .decrementer →
      s.tim.decPending = true ∧ (bit s.msr 48 = true ∨ bit s.msr 35 = true)) ∧
    (s.tbRuns = false → s.timerTick = s) ∧
    (s.tbRuns = true → s.timerTick.tim.tb = s.tim.tb + 1 ∧ s.timerTick.tim.dec = s.tim.decStep.dec ∧
      (bit s.timerTick.tim.tsr 36 = true ↔ bit s.tim.tsr 36 = true ∨ s.tim.dec = 1) ∧
      (bit s.timerTick.tim.tsr 37 = true ↔ bit s.tim.tsr 37 = true ∨
        (s.tim.tb.toNat / weight % 2 = 0 ∧ (s.tim.tb.toNat + 1) / weight % 2 = 1))) ∧
    (t.fitPending = true ↔ bit t.tsr 37 = true ∧ bit t.tcr 40 = true) ∧
    (s.asyncPending = some .fixedInterval →
      s.tim.fitPending = true ∧ (bit s.msr 48 = true ∨ bit s.msr 35 = true)) ∧
    (t.wdtPending = true ↔ bit t.tsr 33 = true ∧ bit t.tcr 36 = true) ∧
    (s.asyncPending = some .watchdog →
      s.tim.wdtPending = true ∧ (bit s.msr 46 = true ∨ bit s.msr 35 = true)) ∧
    (InHypervisor s → exec (.mtspr rS 22) s = .next { s with tim := { s.tim with dec := s.getGpr rS } }.advance)

/-- R30, R45: MSR and FPSCR are 0 after reset: hypervisor state, every maskable interrupt disabled, floating point
unavailable, address spaces 0. -/
def Obligations.ResetState : Prop :=
  let s := State.reset
  s.msr = 0 ∧ s.fpscr = 0 ∧ s.gs = false ∧ s.pr = false ∧ s.ee = false ∧ s.ce = false ∧ s.me = false ∧ s.de = false ∧
    s.fpOn = false ∧ s.is = false ∧ s.ds = false

/-- The state after reset has the invariant that every step keeps. (Its storage is the model's choice: log 1.) -/
def Obligations.ResetInvariant : Prop := State.reset.Inv

/-- Words written out from the encodings, one for each family, decode to the instruction they stand for. -/
def Obligations.DecodesWords : Prop :=
  decode 0x38600005 = .ok (.addi 3 0 5) ∧ decode 0x7C64292E = .ok (.stwx 3 4 5) ∧
  decode 0x80640000 = .ok (.lwz 3 4 0) ∧ decode 0x7C7053A6 = .ok (.mtspr 3 336) ∧
  decode 0x7C0004AC = .ok (.sync 0) ∧ decode 0x7C00194C = .ok (.dcbtls 0 0 3) ∧
  decode 0x7C71029C = .ok (.mfpmr 3 17) ∧ decode 0x4C000064 = .ok .rfi ∧
  decode 0x7C0007A4 = .ok .tlbwe ∧ decode 0xFC22182A = .ok (.fadd 1 2 3 false)

/-- Decoding undoes encoding, for every instruction and every value of its operands: no bit of an encoding is dropped. -/
def Obligations.DecodeUndoesEncode : Prop := ∀ i : Instr, decode (encode i) = .ok i

/-- Every step keeps the invariant, from every state that has it. -/
def Obligations.StepKeepsInvariant : Prop := ∀ s t : State, s.Inv → step s = .next t → t.Inv

/-- What user state cannot change: an instruction that ends in no interrupt leaves MSR, the save/restore, syndrome and
vector registers, the control, timer and memory management registers, the TLBs, the SPRGs, the compare and control
registers of debugging and the performance monitor as they are. -/
def Obligations.UserStateContained : Prop :=
  ∀ (i : Instr) (s t : State), bit s.msr 49 = true → exec i s = .next t → t.log.interrupts = s.log.interrupts →
    t.msr = s.msr ∧ { t.int with mcsr := s.int.mcsr, mcar := s.int.mcar } = s.int ∧ t.ctl = s.ctl ∧ t.tim = s.tim ∧
    t.mmu = s.mmu ∧ { t.sprgs with usprg0 := s.sprgs.usprg0 } = s.sprgs ∧ t.pm = s.pm ∧
    { t.dbg with npidr := s.dbg.npidr, ddam := s.dbg.ddam, devent := s.dbg.devent, dbsr := s.dbg.dbsr,
                 edbsr0 := s.dbg.edbsr0, prsr := s.dbg.prsr } = s.dbg ∧
    t.env = s.env ∧ t.physMap = s.physMap ∧ t.hid.dbell = s.hid.dbell

/-- What a guest cannot change, in user or in supervisor state: an instruction that ends in no interrupt leaves MSR[GS], the
hypervisor's save/restore, syndrome and vector registers, the control and timer registers, LPIDR, MAS5, MAS8, and the
hypervisor's fields of EPLC and EPSC; it can make TLB entries invalid but makes none, and no protected entry of TLB1
changes. -/
def Obligations.GuestContained : Prop :=
  ∀ (i : Instr) (s t : State), bit s.msr 35 = true → exec i s = .next t → t.log.interrupts = s.log.interrupts →
    bit t.msr 35 = true ∧ t.ctl = s.ctl ∧ t.tim = s.tim ∧
    { t.int with gsrr0 := s.int.gsrr0, gsrr1 := s.int.gsrr1, gesr := s.int.gesr, gdear := s.int.gdear,
                 gepr := s.int.gepr, mcsr := s.int.mcsr, mcar := s.int.mcar } = s.int ∧
    t.mmu.lpidr = s.mmu.lpidr ∧ t.mmu.mas5 = s.mmu.mas5 ∧ t.mmu.mas8 = s.mmu.mas8 ∧
    t.mmu.eplc &&& 0x203F0000 = s.mmu.eplc &&& 0x203F0000 ∧ t.mmu.epsc &&& 0x203F0000 = s.mmu.epsc &&& 0x203F0000 ∧
    (∀ l, let e := s.mmu.entry l
      (t.mmu.entry l = e ∨ t.mmu.entry l = { e with v := false }) ∧
      (∀ n, l = .tlb1 n → e.iprot = true → t.mmu.entry l = e))
end

