-- ==== Sys2Proof/Laws/State.lean ====
section
/-! SUPPORT. What each update of the state leaves in each field, so that no proof unfolds a record update; and the laws
of the register files. -/

namespace Sys2Proof.Machine

variable (s : State)

/-! setGpr -/

@[simp] theorem State.setGpr_gpr (r : BitVec 5) (v : Word) : (s.setGpr r v).gpr = s.gpr.set r.toNat v r.isLt := rfl
@[simp] theorem State.setGpr_fpr (r : BitVec 5) (v : Word) : (s.setGpr r v).fpr = s.fpr := rfl
@[simp] theorem State.setGpr_cr (r : BitVec 5) (v : Word) : (s.setGpr r v).cr = s.cr := rfl
@[simp] theorem State.setGpr_xer (r : BitVec 5) (v : Word) : (s.setGpr r v).xer = s.xer := rfl
@[simp] theorem State.setGpr_lr (r : BitVec 5) (v : Word) : (s.setGpr r v).lr = s.lr := rfl
@[simp] theorem State.setGpr_ctr (r : BitVec 5) (v : Word) : (s.setGpr r v).ctr = s.ctr := rfl
@[simp] theorem State.setGpr_fpscr (r : BitVec 5) (v : Word) : (s.setGpr r v).fpscr = s.fpscr := rfl
@[simp] theorem State.setGpr_msr (r : BitVec 5) (v : Word) : (s.setGpr r v).msr = s.msr := rfl
@[simp] theorem State.setGpr_pc (r : BitVec 5) (v : Word) : (s.setGpr r v).pc = s.pc := rfl
@[simp] theorem State.setGpr_ctl (r : BitVec 5) (v : Word) : (s.setGpr r v).ctl = s.ctl := rfl
@[simp] theorem State.setGpr_int (r : BitVec 5) (v : Word) : (s.setGpr r v).int = s.int := rfl
@[simp] theorem State.setGpr_sprgs (r : BitVec 5) (v : Word) : (s.setGpr r v).sprgs = s.sprgs := rfl
@[simp] theorem State.setGpr_tim (r : BitVec 5) (v : Word) : (s.setGpr r v).tim = s.tim := rfl
@[simp] theorem State.setGpr_cache (r : BitVec 5) (v : Word) : (s.setGpr r v).cache = s.cache := rfl
@[simp] theorem State.setGpr_mmu (r : BitVec 5) (v : Word) : (s.setGpr r v).mmu = s.mmu := rfl
@[simp] theorem State.setGpr_dbg (r : BitVec 5) (v : Word) : (s.setGpr r v).dbg = s.dbg := rfl
@[simp] theorem State.setGpr_pm (r : BitVec 5) (v : Word) : (s.setGpr r v).pm = s.pm := rfl
@[simp] theorem State.setGpr_hid (r : BitVec 5) (v : Word) : (s.setGpr r v).hid = s.hid := rfl
@[simp] theorem State.setGpr_env (r : BitVec 5) (v : Word) : (s.setGpr r v).env = s.env := rfl
@[simp] theorem State.setGpr_mem (r : BitVec 5) (v : Word) : (s.setGpr r v).mem = s.mem := rfl
@[simp] theorem State.setGpr_physMap (r : BitVec 5) (v : Word) : (s.setGpr r v).physMap = s.physMap := rfl
@[simp] theorem State.setGpr_draws (r : BitVec 5) (v : Word) : (s.setGpr r v).draws = s.draws := rfl
@[simp] theorem State.setGpr_log (r : BitVec 5) (v : Word) : (s.setGpr r v).log = s.log := rfl

/-! setFpr -/

@[simp] theorem State.setFpr_gpr (r : BitVec 5) (v : DWord) : (s.setFpr r v).gpr = s.gpr := rfl
@[simp] theorem State.setFpr_fpr (r : BitVec 5) (v : DWord) : (s.setFpr r v).fpr = s.fpr.set r.toNat v r.isLt := rfl
@[simp] theorem State.setFpr_cr (r : BitVec 5) (v : DWord) : (s.setFpr r v).cr = s.cr := rfl
@[simp] theorem State.setFpr_xer (r : BitVec 5) (v : DWord) : (s.setFpr r v).xer = s.xer := rfl
@[simp] theorem State.setFpr_lr (r : BitVec 5) (v : DWord) : (s.setFpr r v).lr = s.lr := rfl
@[simp] theorem State.setFpr_ctr (r : BitVec 5) (v : DWord) : (s.setFpr r v).ctr = s.ctr := rfl
@[simp] theorem State.setFpr_fpscr (r : BitVec 5) (v : DWord) : (s.setFpr r v).fpscr = s.fpscr := rfl
@[simp] theorem State.setFpr_msr (r : BitVec 5) (v : DWord) : (s.setFpr r v).msr = s.msr := rfl
@[simp] theorem State.setFpr_pc (r : BitVec 5) (v : DWord) : (s.setFpr r v).pc = s.pc := rfl
@[simp] theorem State.setFpr_ctl (r : BitVec 5) (v : DWord) : (s.setFpr r v).ctl = s.ctl := rfl
@[simp] theorem State.setFpr_int (r : BitVec 5) (v : DWord) : (s.setFpr r v).int = s.int := rfl
@[simp] theorem State.setFpr_sprgs (r : BitVec 5) (v : DWord) : (s.setFpr r v).sprgs = s.sprgs := rfl
@[simp] theorem State.setFpr_tim (r : BitVec 5) (v : DWord) : (s.setFpr r v).tim = s.tim := rfl
@[simp] theorem State.setFpr_cache (r : BitVec 5) (v : DWord) : (s.setFpr r v).cache = s.cache := rfl
@[simp] theorem State.setFpr_mmu (r : BitVec 5) (v : DWord) : (s.setFpr r v).mmu = s.mmu := rfl
@[simp] theorem State.setFpr_dbg (r : BitVec 5) (v : DWord) : (s.setFpr r v).dbg = s.dbg := rfl
@[simp] theorem State.setFpr_pm (r : BitVec 5) (v : DWord) : (s.setFpr r v).pm = s.pm := rfl
@[simp] theorem State.setFpr_hid (r : BitVec 5) (v : DWord) : (s.setFpr r v).hid = s.hid := rfl
@[simp] theorem State.setFpr_env (r : BitVec 5) (v : DWord) : (s.setFpr r v).env = s.env := rfl
@[simp] theorem State.setFpr_mem (r : BitVec 5) (v : DWord) : (s.setFpr r v).mem = s.mem := rfl
@[simp] theorem State.setFpr_physMap (r : BitVec 5) (v : DWord) : (s.setFpr r v).physMap = s.physMap := rfl
@[simp] theorem State.setFpr_draws (r : BitVec 5) (v : DWord) : (s.setFpr r v).draws = s.draws := rfl
@[simp] theorem State.setFpr_log (r : BitVec 5) (v : DWord) : (s.setFpr r v).log = s.log := rfl

/-! setCr -/

@[simp] theorem State.setCr_gpr (v : Word) : (s.setCr v).gpr = s.gpr := rfl
@[simp] theorem State.setCr_fpr (v : Word) : (s.setCr v).fpr = s.fpr := rfl
@[simp] theorem State.setCr_cr (v : Word) : (s.setCr v).cr = v := rfl
@[simp] theorem State.setCr_xer (v : Word) : (s.setCr v).xer = s.xer := rfl
@[simp] theorem State.setCr_lr (v : Word) : (s.setCr v).lr = s.lr := rfl
@[simp] theorem State.setCr_ctr (v : Word) : (s.setCr v).ctr = s.ctr := rfl
@[simp] theorem State.setCr_fpscr (v : Word) : (s.setCr v).fpscr = s.fpscr := rfl
@[simp] theorem State.setCr_msr (v : Word) : (s.setCr v).msr = s.msr := rfl
@[simp] theorem State.setCr_pc (v : Word) : (s.setCr v).pc = s.pc := rfl
@[simp] theorem State.setCr_ctl (v : Word) : (s.setCr v).ctl = s.ctl := rfl
@[simp] theorem State.setCr_int (v : Word) : (s.setCr v).int = s.int := rfl
@[simp] theorem State.setCr_sprgs (v : Word) : (s.setCr v).sprgs = s.sprgs := rfl
@[simp] theorem State.setCr_tim (v : Word) : (s.setCr v).tim = s.tim := rfl
@[simp] theorem State.setCr_cache (v : Word) : (s.setCr v).cache = s.cache := rfl
@[simp] theorem State.setCr_mmu (v : Word) : (s.setCr v).mmu = s.mmu := rfl
@[simp] theorem State.setCr_dbg (v : Word) : (s.setCr v).dbg = s.dbg := rfl
@[simp] theorem State.setCr_pm (v : Word) : (s.setCr v).pm = s.pm := rfl
@[simp] theorem State.setCr_hid (v : Word) : (s.setCr v).hid = s.hid := rfl
@[simp] theorem State.setCr_env (v : Word) : (s.setCr v).env = s.env := rfl
@[simp] theorem State.setCr_mem (v : Word) : (s.setCr v).mem = s.mem := rfl
@[simp] theorem State.setCr_physMap (v : Word) : (s.setCr v).physMap = s.physMap := rfl
@[simp] theorem State.setCr_draws (v : Word) : (s.setCr v).draws = s.draws := rfl
@[simp] theorem State.setCr_log (v : Word) : (s.setCr v).log = s.log := rfl

/-! setXer -/

@[simp] theorem State.setXer_gpr (v : Word) : (s.setXer v).gpr = s.gpr := rfl
@[simp] theorem State.setXer_fpr (v : Word) : (s.setXer v).fpr = s.fpr := rfl
@[simp] theorem State.setXer_cr (v : Word) : (s.setXer v).cr = s.cr := rfl
@[simp] theorem State.setXer_xer (v : Word) : (s.setXer v).xer = v := rfl
@[simp] theorem State.setXer_lr (v : Word) : (s.setXer v).lr = s.lr := rfl
@[simp] theorem State.setXer_ctr (v : Word) : (s.setXer v).ctr = s.ctr := rfl
@[simp] theorem State.setXer_fpscr (v : Word) : (s.setXer v).fpscr = s.fpscr := rfl
@[simp] theorem State.setXer_msr (v : Word) : (s.setXer v).msr = s.msr := rfl
@[simp] theorem State.setXer_pc (v : Word) : (s.setXer v).pc = s.pc := rfl
@[simp] theorem State.setXer_ctl (v : Word) : (s.setXer v).ctl = s.ctl := rfl
@[simp] theorem State.setXer_int (v : Word) : (s.setXer v).int = s.int := rfl
@[simp] theorem State.setXer_sprgs (v : Word) : (s.setXer v).sprgs = s.sprgs := rfl
@[simp] theorem State.setXer_tim (v : Word) : (s.setXer v).tim = s.tim := rfl
@[simp] theorem State.setXer_cache (v : Word) : (s.setXer v).cache = s.cache := rfl
@[simp] theorem State.setXer_mmu (v : Word) : (s.setXer v).mmu = s.mmu := rfl
@[simp] theorem State.setXer_dbg (v : Word) : (s.setXer v).dbg = s.dbg := rfl
@[simp] theorem State.setXer_pm (v : Word) : (s.setXer v).pm = s.pm := rfl
@[simp] theorem State.setXer_hid (v : Word) : (s.setXer v).hid = s.hid := rfl
@[simp] theorem State.setXer_env (v : Word) : (s.setXer v).env = s.env := rfl
@[simp] theorem State.setXer_mem (v : Word) : (s.setXer v).mem = s.mem := rfl
@[simp] theorem State.setXer_physMap (v : Word) : (s.setXer v).physMap = s.physMap := rfl
@[simp] theorem State.setXer_draws (v : Word) : (s.setXer v).draws = s.draws := rfl
@[simp] theorem State.setXer_log (v : Word) : (s.setXer v).log = s.log := rfl

/-! setLr -/

@[simp] theorem State.setLr_gpr (v : Word) : (s.setLr v).gpr = s.gpr := rfl
@[simp] theorem State.setLr_fpr (v : Word) : (s.setLr v).fpr = s.fpr := rfl
@[simp] theorem State.setLr_cr (v : Word) : (s.setLr v).cr = s.cr := rfl
@[simp] theorem State.setLr_xer (v : Word) : (s.setLr v).xer = s.xer := rfl
@[simp] theorem State.setLr_lr (v : Word) : (s.setLr v).lr = v := rfl
@[simp] theorem State.setLr_ctr (v : Word) : (s.setLr v).ctr = s.ctr := rfl
@[simp] theorem State.setLr_fpscr (v : Word) : (s.setLr v).fpscr = s.fpscr := rfl
@[simp] theorem State.setLr_msr (v : Word) : (s.setLr v).msr = s.msr := rfl
@[simp] theorem State.setLr_pc (v : Word) : (s.setLr v).pc = s.pc := rfl
@[simp] theorem State.setLr_ctl (v : Word) : (s.setLr v).ctl = s.ctl := rfl
@[simp] theorem State.setLr_int (v : Word) : (s.setLr v).int = s.int := rfl
@[simp] theorem State.setLr_sprgs (v : Word) : (s.setLr v).sprgs = s.sprgs := rfl
@[simp] theorem State.setLr_tim (v : Word) : (s.setLr v).tim = s.tim := rfl
@[simp] theorem State.setLr_cache (v : Word) : (s.setLr v).cache = s.cache := rfl
@[simp] theorem State.setLr_mmu (v : Word) : (s.setLr v).mmu = s.mmu := rfl
@[simp] theorem State.setLr_dbg (v : Word) : (s.setLr v).dbg = s.dbg := rfl
@[simp] theorem State.setLr_pm (v : Word) : (s.setLr v).pm = s.pm := rfl
@[simp] theorem State.setLr_hid (v : Word) : (s.setLr v).hid = s.hid := rfl
@[simp] theorem State.setLr_env (v : Word) : (s.setLr v).env = s.env := rfl
@[simp] theorem State.setLr_mem (v : Word) : (s.setLr v).mem = s.mem := rfl
@[simp] theorem State.setLr_physMap (v : Word) : (s.setLr v).physMap = s.physMap := rfl
@[simp] theorem State.setLr_draws (v : Word) : (s.setLr v).draws = s.draws := rfl
@[simp] theorem State.setLr_log (v : Word) : (s.setLr v).log = s.log := rfl

/-! setCtr -/

@[simp] theorem State.setCtr_gpr (v : Word) : (s.setCtr v).gpr = s.gpr := rfl
@[simp] theorem State.setCtr_fpr (v : Word) : (s.setCtr v).fpr = s.fpr := rfl
@[simp] theorem State.setCtr_cr (v : Word) : (s.setCtr v).cr = s.cr := rfl
@[simp] theorem State.setCtr_xer (v : Word) : (s.setCtr v).xer = s.xer := rfl
@[simp] theorem State.setCtr_lr (v : Word) : (s.setCtr v).lr = s.lr := rfl
@[simp] theorem State.setCtr_ctr (v : Word) : (s.setCtr v).ctr = v := rfl
@[simp] theorem State.setCtr_fpscr (v : Word) : (s.setCtr v).fpscr = s.fpscr := rfl
@[simp] theorem State.setCtr_msr (v : Word) : (s.setCtr v).msr = s.msr := rfl
@[simp] theorem State.setCtr_pc (v : Word) : (s.setCtr v).pc = s.pc := rfl
@[simp] theorem State.setCtr_ctl (v : Word) : (s.setCtr v).ctl = s.ctl := rfl
@[simp] theorem State.setCtr_int (v : Word) : (s.setCtr v).int = s.int := rfl
@[simp] theorem State.setCtr_sprgs (v : Word) : (s.setCtr v).sprgs = s.sprgs := rfl
@[simp] theorem State.setCtr_tim (v : Word) : (s.setCtr v).tim = s.tim := rfl
@[simp] theorem State.setCtr_cache (v : Word) : (s.setCtr v).cache = s.cache := rfl
@[simp] theorem State.setCtr_mmu (v : Word) : (s.setCtr v).mmu = s.mmu := rfl
@[simp] theorem State.setCtr_dbg (v : Word) : (s.setCtr v).dbg = s.dbg := rfl
@[simp] theorem State.setCtr_pm (v : Word) : (s.setCtr v).pm = s.pm := rfl
@[simp] theorem State.setCtr_hid (v : Word) : (s.setCtr v).hid = s.hid := rfl
@[simp] theorem State.setCtr_env (v : Word) : (s.setCtr v).env = s.env := rfl
@[simp] theorem State.setCtr_mem (v : Word) : (s.setCtr v).mem = s.mem := rfl
@[simp] theorem State.setCtr_physMap (v : Word) : (s.setCtr v).physMap = s.physMap := rfl
@[simp] theorem State.setCtr_draws (v : Word) : (s.setCtr v).draws = s.draws := rfl
@[simp] theorem State.setCtr_log (v : Word) : (s.setCtr v).log = s.log := rfl

/-! setFpscr -/

@[simp] theorem State.setFpscr_gpr (v : Word) : (s.setFpscr v).gpr = s.gpr := rfl
@[simp] theorem State.setFpscr_fpr (v : Word) : (s.setFpscr v).fpr = s.fpr := rfl
@[simp] theorem State.setFpscr_cr (v : Word) : (s.setFpscr v).cr = s.cr := rfl
@[simp] theorem State.setFpscr_xer (v : Word) : (s.setFpscr v).xer = s.xer := rfl
@[simp] theorem State.setFpscr_lr (v : Word) : (s.setFpscr v).lr = s.lr := rfl
@[simp] theorem State.setFpscr_ctr (v : Word) : (s.setFpscr v).ctr = s.ctr := rfl
@[simp] theorem State.setFpscr_fpscr (v : Word) : (s.setFpscr v).fpscr = v := rfl
@[simp] theorem State.setFpscr_msr (v : Word) : (s.setFpscr v).msr = s.msr := rfl
@[simp] theorem State.setFpscr_pc (v : Word) : (s.setFpscr v).pc = s.pc := rfl
@[simp] theorem State.setFpscr_ctl (v : Word) : (s.setFpscr v).ctl = s.ctl := rfl
@[simp] theorem State.setFpscr_int (v : Word) : (s.setFpscr v).int = s.int := rfl
@[simp] theorem State.setFpscr_sprgs (v : Word) : (s.setFpscr v).sprgs = s.sprgs := rfl
@[simp] theorem State.setFpscr_tim (v : Word) : (s.setFpscr v).tim = s.tim := rfl
@[simp] theorem State.setFpscr_cache (v : Word) : (s.setFpscr v).cache = s.cache := rfl
@[simp] theorem State.setFpscr_mmu (v : Word) : (s.setFpscr v).mmu = s.mmu := rfl
@[simp] theorem State.setFpscr_dbg (v : Word) : (s.setFpscr v).dbg = s.dbg := rfl
@[simp] theorem State.setFpscr_pm (v : Word) : (s.setFpscr v).pm = s.pm := rfl
@[simp] theorem State.setFpscr_hid (v : Word) : (s.setFpscr v).hid = s.hid := rfl
@[simp] theorem State.setFpscr_env (v : Word) : (s.setFpscr v).env = s.env := rfl
@[simp] theorem State.setFpscr_mem (v : Word) : (s.setFpscr v).mem = s.mem := rfl
@[simp] theorem State.setFpscr_physMap (v : Word) : (s.setFpscr v).physMap = s.physMap := rfl
@[simp] theorem State.setFpscr_draws (v : Word) : (s.setFpscr v).draws = s.draws := rfl
@[simp] theorem State.setFpscr_log (v : Word) : (s.setFpscr v).log = s.log := rfl

/-! setDbsr -/

@[simp] theorem State.setDbsr_gpr (v : Word) : (s.setDbsr v).gpr = s.gpr := rfl
@[simp] theorem State.setDbsr_fpr (v : Word) : (s.setDbsr v).fpr = s.fpr := rfl
@[simp] theorem State.setDbsr_cr (v : Word) : (s.setDbsr v).cr = s.cr := rfl
@[simp] theorem State.setDbsr_xer (v : Word) : (s.setDbsr v).xer = s.xer := rfl
@[simp] theorem State.setDbsr_lr (v : Word) : (s.setDbsr v).lr = s.lr := rfl
@[simp] theorem State.setDbsr_ctr (v : Word) : (s.setDbsr v).ctr = s.ctr := rfl
@[simp] theorem State.setDbsr_fpscr (v : Word) : (s.setDbsr v).fpscr = s.fpscr := rfl
@[simp] theorem State.setDbsr_msr (v : Word) : (s.setDbsr v).msr = s.msr := rfl
@[simp] theorem State.setDbsr_pc (v : Word) : (s.setDbsr v).pc = s.pc := rfl
@[simp] theorem State.setDbsr_ctl (v : Word) : (s.setDbsr v).ctl = s.ctl := rfl
@[simp] theorem State.setDbsr_int (v : Word) : (s.setDbsr v).int = s.int := rfl
@[simp] theorem State.setDbsr_sprgs (v : Word) : (s.setDbsr v).sprgs = s.sprgs := rfl
@[simp] theorem State.setDbsr_tim (v : Word) : (s.setDbsr v).tim = s.tim := rfl
@[simp] theorem State.setDbsr_cache (v : Word) : (s.setDbsr v).cache = s.cache := rfl
@[simp] theorem State.setDbsr_mmu (v : Word) : (s.setDbsr v).mmu = s.mmu := rfl
@[simp] theorem State.setDbsr_dbg (v : Word) : (s.setDbsr v).dbg = { s.dbg with dbsr := v } := rfl
@[simp] theorem State.setDbsr_pm (v : Word) : (s.setDbsr v).pm = s.pm := rfl
@[simp] theorem State.setDbsr_hid (v : Word) : (s.setDbsr v).hid = s.hid := rfl
@[simp] theorem State.setDbsr_env (v : Word) : (s.setDbsr v).env = s.env := rfl
@[simp] theorem State.setDbsr_mem (v : Word) : (s.setDbsr v).mem = s.mem := rfl
@[simp] theorem State.setDbsr_physMap (v : Word) : (s.setDbsr v).physMap = s.physMap := rfl
@[simp] theorem State.setDbsr_draws (v : Word) : (s.setDbsr v).draws = s.draws := rfl
@[simp] theorem State.setDbsr_log (v : Word) : (s.setDbsr v).log = s.log := rfl

/-! setReserve -/

@[simp] theorem State.setReserve_gpr (r : Option Reservation) : (s.setReserve r).gpr = s.gpr := rfl
@[simp] theorem State.setReserve_fpr (r : Option Reservation) : (s.setReserve r).fpr = s.fpr := rfl
@[simp] theorem State.setReserve_cr (r : Option Reservation) : (s.setReserve r).cr = s.cr := rfl
@[simp] theorem State.setReserve_xer (r : Option Reservation) : (s.setReserve r).xer = s.xer := rfl
@[simp] theorem State.setReserve_lr (r : Option Reservation) : (s.setReserve r).lr = s.lr := rfl
@[simp] theorem State.setReserve_ctr (r : Option Reservation) : (s.setReserve r).ctr = s.ctr := rfl
@[simp] theorem State.setReserve_fpscr (r : Option Reservation) : (s.setReserve r).fpscr = s.fpscr := rfl
@[simp] theorem State.setReserve_msr (r : Option Reservation) : (s.setReserve r).msr = s.msr := rfl
@[simp] theorem State.setReserve_pc (r : Option Reservation) : (s.setReserve r).pc = s.pc := rfl
@[simp] theorem State.setReserve_ctl (r : Option Reservation) : (s.setReserve r).ctl = s.ctl := rfl
@[simp] theorem State.setReserve_int (r : Option Reservation) : (s.setReserve r).int = s.int := rfl
@[simp] theorem State.setReserve_sprgs (r : Option Reservation) : (s.setReserve r).sprgs = s.sprgs := rfl
@[simp] theorem State.setReserve_tim (r : Option Reservation) : (s.setReserve r).tim = s.tim := rfl
@[simp] theorem State.setReserve_cache (r : Option Reservation) : (s.setReserve r).cache = s.cache := rfl
@[simp] theorem State.setReserve_mmu (r : Option Reservation) : (s.setReserve r).mmu = s.mmu := rfl
@[simp] theorem State.setReserve_dbg (r : Option Reservation) : (s.setReserve r).dbg = s.dbg := rfl
@[simp] theorem State.setReserve_pm (r : Option Reservation) : (s.setReserve r).pm = s.pm := rfl
@[simp] theorem State.setReserve_hid (r : Option Reservation) : (s.setReserve r).hid = { s.hid with reserve := r } := rfl
@[simp] theorem State.setReserve_env (r : Option Reservation) : (s.setReserve r).env = s.env := rfl
@[simp] theorem State.setReserve_mem (r : Option Reservation) : (s.setReserve r).mem = s.mem := rfl
@[simp] theorem State.setReserve_physMap (r : Option Reservation) : (s.setReserve r).physMap = s.physMap := rfl
@[simp] theorem State.setReserve_draws (r : Option Reservation) : (s.setReserve r).draws = s.draws := rfl
@[simp] theorem State.setReserve_log (r : Option Reservation) : (s.setReserve r).log = s.log := rfl

/-! setFetched -/

@[simp] theorem State.setFetched_gpr (a : Option (BitVec 36)) : (s.setFetched a).gpr = s.gpr := rfl
@[simp] theorem State.setFetched_fpr (a : Option (BitVec 36)) : (s.setFetched a).fpr = s.fpr := rfl
@[simp] theorem State.setFetched_cr (a : Option (BitVec 36)) : (s.setFetched a).cr = s.cr := rfl
@[simp] theorem State.setFetched_xer (a : Option (BitVec 36)) : (s.setFetched a).xer = s.xer := rfl
@[simp] theorem State.setFetched_lr (a : Option (BitVec 36)) : (s.setFetched a).lr = s.lr := rfl
@[simp] theorem State.setFetched_ctr (a : Option (BitVec 36)) : (s.setFetched a).ctr = s.ctr := rfl
@[simp] theorem State.setFetched_fpscr (a : Option (BitVec 36)) : (s.setFetched a).fpscr = s.fpscr := rfl
@[simp] theorem State.setFetched_msr (a : Option (BitVec 36)) : (s.setFetched a).msr = s.msr := rfl
@[simp] theorem State.setFetched_pc (a : Option (BitVec 36)) : (s.setFetched a).pc = s.pc := rfl
@[simp] theorem State.setFetched_ctl (a : Option (BitVec 36)) : (s.setFetched a).ctl = s.ctl := rfl
@[simp] theorem State.setFetched_int (a : Option (BitVec 36)) : (s.setFetched a).int = s.int := rfl
@[simp] theorem State.setFetched_sprgs (a : Option (BitVec 36)) : (s.setFetched a).sprgs = s.sprgs := rfl
@[simp] theorem State.setFetched_tim (a : Option (BitVec 36)) : (s.setFetched a).tim = s.tim := rfl
@[simp] theorem State.setFetched_cache (a : Option (BitVec 36)) : (s.setFetched a).cache = s.cache := rfl
@[simp] theorem State.setFetched_mmu (a : Option (BitVec 36)) : (s.setFetched a).mmu = s.mmu := rfl
@[simp] theorem State.setFetched_dbg (a : Option (BitVec 36)) : (s.setFetched a).dbg = s.dbg := rfl
@[simp] theorem State.setFetched_pm (a : Option (BitVec 36)) : (s.setFetched a).pm = s.pm := rfl
@[simp] theorem State.setFetched_hid (a : Option (BitVec 36)) : (s.setFetched a).hid = { s.hid with fetched := a } := rfl
@[simp] theorem State.setFetched_env (a : Option (BitVec 36)) : (s.setFetched a).env = s.env := rfl
@[simp] theorem State.setFetched_mem (a : Option (BitVec 36)) : (s.setFetched a).mem = s.mem := rfl
@[simp] theorem State.setFetched_physMap (a : Option (BitVec 36)) : (s.setFetched a).physMap = s.physMap := rfl
@[simp] theorem State.setFetched_draws (a : Option (BitVec 36)) : (s.setFetched a).draws = s.draws := rfl
@[simp] theorem State.setFetched_log (a : Option (BitVec 36)) : (s.setFetched a).log = s.log := rfl

/-! setLog -/

@[simp] theorem State.setLog_gpr (l : StepLog) : (s.setLog l).gpr = s.gpr := rfl
@[simp] theorem State.setLog_fpr (l : StepLog) : (s.setLog l).fpr = s.fpr := rfl
@[simp] theorem State.setLog_cr (l : StepLog) : (s.setLog l).cr = s.cr := rfl
@[simp] theorem State.setLog_xer (l : StepLog) : (s.setLog l).xer = s.xer := rfl
@[simp] theorem State.setLog_lr (l : StepLog) : (s.setLog l).lr = s.lr := rfl
@[simp] theorem State.setLog_ctr (l : StepLog) : (s.setLog l).ctr = s.ctr := rfl
@[simp] theorem State.setLog_fpscr (l : StepLog) : (s.setLog l).fpscr = s.fpscr := rfl
@[simp] theorem State.setLog_msr (l : StepLog) : (s.setLog l).msr = s.msr := rfl
@[simp] theorem State.setLog_pc (l : StepLog) : (s.setLog l).pc = s.pc := rfl
@[simp] theorem State.setLog_ctl (l : StepLog) : (s.setLog l).ctl = s.ctl := rfl
@[simp] theorem State.setLog_int (l : StepLog) : (s.setLog l).int = s.int := rfl
@[simp] theorem State.setLog_sprgs (l : StepLog) : (s.setLog l).sprgs = s.sprgs := rfl
@[simp] theorem State.setLog_tim (l : StepLog) : (s.setLog l).tim = s.tim := rfl
@[simp] theorem State.setLog_cache (l : StepLog) : (s.setLog l).cache = s.cache := rfl
@[simp] theorem State.setLog_mmu (l : StepLog) : (s.setLog l).mmu = s.mmu := rfl
@[simp] theorem State.setLog_dbg (l : StepLog) : (s.setLog l).dbg = s.dbg := rfl
@[simp] theorem State.setLog_pm (l : StepLog) : (s.setLog l).pm = s.pm := rfl
@[simp] theorem State.setLog_hid (l : StepLog) : (s.setLog l).hid = s.hid := rfl
@[simp] theorem State.setLog_env (l : StepLog) : (s.setLog l).env = s.env := rfl
@[simp] theorem State.setLog_mem (l : StepLog) : (s.setLog l).mem = s.mem := rfl
@[simp] theorem State.setLog_physMap (l : StepLog) : (s.setLog l).physMap = s.physMap := rfl
@[simp] theorem State.setLog_draws (l : StepLog) : (s.setLog l).draws = s.draws := rfl
@[simp] theorem State.setLog_log (l : StepLog) : (s.setLog l).log = l := rfl

/-! withInt -/

@[simp] theorem State.withInt_gpr (f : IntRegs → IntRegs) : (s.withInt f).gpr = s.gpr := rfl
@[simp] theorem State.withInt_fpr (f : IntRegs → IntRegs) : (s.withInt f).fpr = s.fpr := rfl
@[simp] theorem State.withInt_cr (f : IntRegs → IntRegs) : (s.withInt f).cr = s.cr := rfl
@[simp] theorem State.withInt_xer (f : IntRegs → IntRegs) : (s.withInt f).xer = s.xer := rfl
@[simp] theorem State.withInt_lr (f : IntRegs → IntRegs) : (s.withInt f).lr = s.lr := rfl
@[simp] theorem State.withInt_ctr (f : IntRegs → IntRegs) : (s.withInt f).ctr = s.ctr := rfl
@[simp] theorem State.withInt_fpscr (f : IntRegs → IntRegs) : (s.withInt f).fpscr = s.fpscr := rfl
@[simp] theorem State.withInt_msr (f : IntRegs → IntRegs) : (s.withInt f).msr = s.msr := rfl
@[simp] theorem State.withInt_pc (f : IntRegs → IntRegs) : (s.withInt f).pc = s.pc := rfl
@[simp] theorem State.withInt_ctl (f : IntRegs → IntRegs) : (s.withInt f).ctl = s.ctl := rfl
@[simp] theorem State.withInt_int (f : IntRegs → IntRegs) : (s.withInt f).int = f s.int := rfl
@[simp] theorem State.withInt_sprgs (f : IntRegs → IntRegs) : (s.withInt f).sprgs = s.sprgs := rfl
@[simp] theorem State.withInt_tim (f : IntRegs → IntRegs) : (s.withInt f).tim = s.tim := rfl
@[simp] theorem State.withInt_cache (f : IntRegs → IntRegs) : (s.withInt f).cache = s.cache := rfl
@[simp] theorem State.withInt_mmu (f : IntRegs → IntRegs) : (s.withInt f).mmu = s.mmu := rfl
@[simp] theorem State.withInt_dbg (f : IntRegs → IntRegs) : (s.withInt f).dbg = s.dbg := rfl
@[simp] theorem State.withInt_pm (f : IntRegs → IntRegs) : (s.withInt f).pm = s.pm := rfl
@[simp] theorem State.withInt_hid (f : IntRegs → IntRegs) : (s.withInt f).hid = s.hid := rfl
@[simp] theorem State.withInt_env (f : IntRegs → IntRegs) : (s.withInt f).env = s.env := rfl
@[simp] theorem State.withInt_mem (f : IntRegs → IntRegs) : (s.withInt f).mem = s.mem := rfl
@[simp] theorem State.withInt_physMap (f : IntRegs → IntRegs) : (s.withInt f).physMap = s.physMap := rfl
@[simp] theorem State.withInt_draws (f : IntRegs → IntRegs) : (s.withInt f).draws = s.draws := rfl
@[simp] theorem State.withInt_log (f : IntRegs → IntRegs) : (s.withInt f).log = s.log := rfl

/-! withCtl -/

@[simp] theorem State.withCtl_gpr (f : Control → Control) : (s.withCtl f).gpr = s.gpr := rfl
@[simp] theorem State.withCtl_fpr (f : Control → Control) : (s.withCtl f).fpr = s.fpr := rfl
@[simp] theorem State.withCtl_cr (f : Control → Control) : (s.withCtl f).cr = s.cr := rfl
@[simp] theorem State.withCtl_xer (f : Control → Control) : (s.withCtl f).xer = s.xer := rfl
@[simp] theorem State.withCtl_lr (f : Control → Control) : (s.withCtl f).lr = s.lr := rfl
@[simp] theorem State.withCtl_ctr (f : Control → Control) : (s.withCtl f).ctr = s.ctr := rfl
@[simp] theorem State.withCtl_fpscr (f : Control → Control) : (s.withCtl f).fpscr = s.fpscr := rfl
@[simp] theorem State.withCtl_msr (f : Control → Control) : (s.withCtl f).msr = s.msr := rfl
@[simp] theorem State.withCtl_pc (f : Control → Control) : (s.withCtl f).pc = s.pc := rfl
@[simp] theorem State.withCtl_ctl (f : Control → Control) : (s.withCtl f).ctl = f s.ctl := rfl
@[simp] theorem State.withCtl_int (f : Control → Control) : (s.withCtl f).int = s.int := rfl
@[simp] theorem State.withCtl_sprgs (f : Control → Control) : (s.withCtl f).sprgs = s.sprgs := rfl
@[simp] theorem State.withCtl_tim (f : Control → Control) : (s.withCtl f).tim = s.tim := rfl
@[simp] theorem State.withCtl_cache (f : Control → Control) : (s.withCtl f).cache = s.cache := rfl
@[simp] theorem State.withCtl_mmu (f : Control → Control) : (s.withCtl f).mmu = s.mmu := rfl
@[simp] theorem State.withCtl_dbg (f : Control → Control) : (s.withCtl f).dbg = s.dbg := rfl
@[simp] theorem State.withCtl_pm (f : Control → Control) : (s.withCtl f).pm = s.pm := rfl
@[simp] theorem State.withCtl_hid (f : Control → Control) : (s.withCtl f).hid = s.hid := rfl
@[simp] theorem State.withCtl_env (f : Control → Control) : (s.withCtl f).env = s.env := rfl
@[simp] theorem State.withCtl_mem (f : Control → Control) : (s.withCtl f).mem = s.mem := rfl
@[simp] theorem State.withCtl_physMap (f : Control → Control) : (s.withCtl f).physMap = s.physMap := rfl
@[simp] theorem State.withCtl_draws (f : Control → Control) : (s.withCtl f).draws = s.draws := rfl
@[simp] theorem State.withCtl_log (f : Control → Control) : (s.withCtl f).log = s.log := rfl

/-! withCache -/

@[simp] theorem State.withCache_gpr (f : Cache → Cache) : (s.withCache f).gpr = s.gpr := rfl
@[simp] theorem State.withCache_fpr (f : Cache → Cache) : (s.withCache f).fpr = s.fpr := rfl
@[simp] theorem State.withCache_cr (f : Cache → Cache) : (s.withCache f).cr = s.cr := rfl
@[simp] theorem State.withCache_xer (f : Cache → Cache) : (s.withCache f).xer = s.xer := rfl
@[simp] theorem State.withCache_lr (f : Cache → Cache) : (s.withCache f).lr = s.lr := rfl
@[simp] theorem State.withCache_ctr (f : Cache → Cache) : (s.withCache f).ctr = s.ctr := rfl
@[simp] theorem State.withCache_fpscr (f : Cache → Cache) : (s.withCache f).fpscr = s.fpscr := rfl
@[simp] theorem State.withCache_msr (f : Cache → Cache) : (s.withCache f).msr = s.msr := rfl
@[simp] theorem State.withCache_pc (f : Cache → Cache) : (s.withCache f).pc = s.pc := rfl
@[simp] theorem State.withCache_ctl (f : Cache → Cache) : (s.withCache f).ctl = s.ctl := rfl
@[simp] theorem State.withCache_int (f : Cache → Cache) : (s.withCache f).int = s.int := rfl
@[simp] theorem State.withCache_sprgs (f : Cache → Cache) : (s.withCache f).sprgs = s.sprgs := rfl
@[simp] theorem State.withCache_tim (f : Cache → Cache) : (s.withCache f).tim = s.tim := rfl
@[simp] theorem State.withCache_cache (f : Cache → Cache) : (s.withCache f).cache = f s.cache := rfl
@[simp] theorem State.withCache_mmu (f : Cache → Cache) : (s.withCache f).mmu = s.mmu := rfl
@[simp] theorem State.withCache_dbg (f : Cache → Cache) : (s.withCache f).dbg = s.dbg := rfl
@[simp] theorem State.withCache_pm (f : Cache → Cache) : (s.withCache f).pm = s.pm := rfl
@[simp] theorem State.withCache_hid (f : Cache → Cache) : (s.withCache f).hid = s.hid := rfl
@[simp] theorem State.withCache_env (f : Cache → Cache) : (s.withCache f).env = s.env := rfl
@[simp] theorem State.withCache_mem (f : Cache → Cache) : (s.withCache f).mem = s.mem := rfl
@[simp] theorem State.withCache_physMap (f : Cache → Cache) : (s.withCache f).physMap = s.physMap := rfl
@[simp] theorem State.withCache_draws (f : Cache → Cache) : (s.withCache f).draws = s.draws := rfl
@[simp] theorem State.withCache_log (f : Cache → Cache) : (s.withCache f).log = s.log := rfl

/-! withMmu -/

@[simp] theorem State.withMmu_gpr (f : Mmu → Mmu) : (s.withMmu f).gpr = s.gpr := rfl
@[simp] theorem State.withMmu_fpr (f : Mmu → Mmu) : (s.withMmu f).fpr = s.fpr := rfl
@[simp] theorem State.withMmu_cr (f : Mmu → Mmu) : (s.withMmu f).cr = s.cr := rfl
@[simp] theorem State.withMmu_xer (f : Mmu → Mmu) : (s.withMmu f).xer = s.xer := rfl
@[simp] theorem State.withMmu_lr (f : Mmu → Mmu) : (s.withMmu f).lr = s.lr := rfl
@[simp] theorem State.withMmu_ctr (f : Mmu → Mmu) : (s.withMmu f).ctr = s.ctr := rfl
@[simp] theorem State.withMmu_fpscr (f : Mmu → Mmu) : (s.withMmu f).fpscr = s.fpscr := rfl
@[simp] theorem State.withMmu_msr (f : Mmu → Mmu) : (s.withMmu f).msr = s.msr := rfl
@[simp] theorem State.withMmu_pc (f : Mmu → Mmu) : (s.withMmu f).pc = s.pc := rfl
@[simp] theorem State.withMmu_ctl (f : Mmu → Mmu) : (s.withMmu f).ctl = s.ctl := rfl
@[simp] theorem State.withMmu_int (f : Mmu → Mmu) : (s.withMmu f).int = s.int := rfl
@[simp] theorem State.withMmu_sprgs (f : Mmu → Mmu) : (s.withMmu f).sprgs = s.sprgs := rfl
@[simp] theorem State.withMmu_tim (f : Mmu → Mmu) : (s.withMmu f).tim = s.tim := rfl
@[simp] theorem State.withMmu_cache (f : Mmu → Mmu) : (s.withMmu f).cache = s.cache := rfl
@[simp] theorem State.withMmu_mmu (f : Mmu → Mmu) : (s.withMmu f).mmu = f s.mmu := rfl
@[simp] theorem State.withMmu_dbg (f : Mmu → Mmu) : (s.withMmu f).dbg = s.dbg := rfl
@[simp] theorem State.withMmu_pm (f : Mmu → Mmu) : (s.withMmu f).pm = s.pm := rfl
@[simp] theorem State.withMmu_hid (f : Mmu → Mmu) : (s.withMmu f).hid = s.hid := rfl
@[simp] theorem State.withMmu_env (f : Mmu → Mmu) : (s.withMmu f).env = s.env := rfl
@[simp] theorem State.withMmu_mem (f : Mmu → Mmu) : (s.withMmu f).mem = s.mem := rfl
@[simp] theorem State.withMmu_physMap (f : Mmu → Mmu) : (s.withMmu f).physMap = s.physMap := rfl
@[simp] theorem State.withMmu_draws (f : Mmu → Mmu) : (s.withMmu f).draws = s.draws := rfl
@[simp] theorem State.withMmu_log (f : Mmu → Mmu) : (s.withMmu f).log = s.log := rfl

/-! withDbg -/

@[simp] theorem State.withDbg_gpr (f : Debug → Debug) : (s.withDbg f).gpr = s.gpr := rfl
@[simp] theorem State.withDbg_fpr (f : Debug → Debug) : (s.withDbg f).fpr = s.fpr := rfl
@[simp] theorem State.withDbg_cr (f : Debug → Debug) : (s.withDbg f).cr = s.cr := rfl
@[simp] theorem State.withDbg_xer (f : Debug → Debug) : (s.withDbg f).xer = s.xer := rfl
@[simp] theorem State.withDbg_lr (f : Debug → Debug) : (s.withDbg f).lr = s.lr := rfl
@[simp] theorem State.withDbg_ctr (f : Debug → Debug) : (s.withDbg f).ctr = s.ctr := rfl
@[simp] theorem State.withDbg_fpscr (f : Debug → Debug) : (s.withDbg f).fpscr = s.fpscr := rfl
@[simp] theorem State.withDbg_msr (f : Debug → Debug) : (s.withDbg f).msr = s.msr := rfl
@[simp] theorem State.withDbg_pc (f : Debug → Debug) : (s.withDbg f).pc = s.pc := rfl
@[simp] theorem State.withDbg_ctl (f : Debug → Debug) : (s.withDbg f).ctl = s.ctl := rfl
@[simp] theorem State.withDbg_int (f : Debug → Debug) : (s.withDbg f).int = s.int := rfl
@[simp] theorem State.withDbg_sprgs (f : Debug → Debug) : (s.withDbg f).sprgs = s.sprgs := rfl
@[simp] theorem State.withDbg_tim (f : Debug → Debug) : (s.withDbg f).tim = s.tim := rfl
@[simp] theorem State.withDbg_cache (f : Debug → Debug) : (s.withDbg f).cache = s.cache := rfl
@[simp] theorem State.withDbg_mmu (f : Debug → Debug) : (s.withDbg f).mmu = s.mmu := rfl
@[simp] theorem State.withDbg_dbg (f : Debug → Debug) : (s.withDbg f).dbg = f s.dbg := rfl
@[simp] theorem State.withDbg_pm (f : Debug → Debug) : (s.withDbg f).pm = s.pm := rfl
@[simp] theorem State.withDbg_hid (f : Debug → Debug) : (s.withDbg f).hid = s.hid := rfl
@[simp] theorem State.withDbg_env (f : Debug → Debug) : (s.withDbg f).env = s.env := rfl
@[simp] theorem State.withDbg_mem (f : Debug → Debug) : (s.withDbg f).mem = s.mem := rfl
@[simp] theorem State.withDbg_physMap (f : Debug → Debug) : (s.withDbg f).physMap = s.physMap := rfl
@[simp] theorem State.withDbg_draws (f : Debug → Debug) : (s.withDbg f).draws = s.draws := rfl
@[simp] theorem State.withDbg_log (f : Debug → Debug) : (s.withDbg f).log = s.log := rfl

/-! withTim -/

@[simp] theorem State.withTim_gpr (f : Timers → Timers) : (s.withTim f).gpr = s.gpr := rfl
@[simp] theorem State.withTim_fpr (f : Timers → Timers) : (s.withTim f).fpr = s.fpr := rfl
@[simp] theorem State.withTim_cr (f : Timers → Timers) : (s.withTim f).cr = s.cr := rfl
@[simp] theorem State.withTim_xer (f : Timers → Timers) : (s.withTim f).xer = s.xer := rfl
@[simp] theorem State.withTim_lr (f : Timers → Timers) : (s.withTim f).lr = s.lr := rfl
@[simp] theorem State.withTim_ctr (f : Timers → Timers) : (s.withTim f).ctr = s.ctr := rfl
@[simp] theorem State.withTim_fpscr (f : Timers → Timers) : (s.withTim f).fpscr = s.fpscr := rfl
@[simp] theorem State.withTim_msr (f : Timers → Timers) : (s.withTim f).msr = s.msr := rfl
@[simp] theorem State.withTim_pc (f : Timers → Timers) : (s.withTim f).pc = s.pc := rfl
@[simp] theorem State.withTim_ctl (f : Timers → Timers) : (s.withTim f).ctl = s.ctl := rfl
@[simp] theorem State.withTim_int (f : Timers → Timers) : (s.withTim f).int = s.int := rfl
@[simp] theorem State.withTim_sprgs (f : Timers → Timers) : (s.withTim f).sprgs = s.sprgs := rfl
@[simp] theorem State.withTim_tim (f : Timers → Timers) : (s.withTim f).tim = f s.tim := rfl
@[simp] theorem State.withTim_cache (f : Timers → Timers) : (s.withTim f).cache = s.cache := rfl
@[simp] theorem State.withTim_mmu (f : Timers → Timers) : (s.withTim f).mmu = s.mmu := rfl
@[simp] theorem State.withTim_dbg (f : Timers → Timers) : (s.withTim f).dbg = s.dbg := rfl
@[simp] theorem State.withTim_pm (f : Timers → Timers) : (s.withTim f).pm = s.pm := rfl
@[simp] theorem State.withTim_hid (f : Timers → Timers) : (s.withTim f).hid = s.hid := rfl
@[simp] theorem State.withTim_env (f : Timers → Timers) : (s.withTim f).env = s.env := rfl
@[simp] theorem State.withTim_mem (f : Timers → Timers) : (s.withTim f).mem = s.mem := rfl
@[simp] theorem State.withTim_physMap (f : Timers → Timers) : (s.withTim f).physMap = s.physMap := rfl
@[simp] theorem State.withTim_draws (f : Timers → Timers) : (s.withTim f).draws = s.draws := rfl
@[simp] theorem State.withTim_log (f : Timers → Timers) : (s.withTim f).log = s.log := rfl

/-! goto -/

@[simp] theorem State.goto_gpr (a : Word) : (s.goto a).gpr = s.gpr := rfl
@[simp] theorem State.goto_fpr (a : Word) : (s.goto a).fpr = s.fpr := rfl
@[simp] theorem State.goto_cr (a : Word) : (s.goto a).cr = s.cr := rfl
@[simp] theorem State.goto_xer (a : Word) : (s.goto a).xer = s.xer := rfl
@[simp] theorem State.goto_lr (a : Word) : (s.goto a).lr = s.lr := rfl
@[simp] theorem State.goto_ctr (a : Word) : (s.goto a).ctr = s.ctr := rfl
@[simp] theorem State.goto_fpscr (a : Word) : (s.goto a).fpscr = s.fpscr := rfl
@[simp] theorem State.goto_msr (a : Word) : (s.goto a).msr = s.msr := rfl
@[simp] theorem State.goto_pc (a : Word) : (s.goto a).pc = a := rfl
@[simp] theorem State.goto_ctl (a : Word) : (s.goto a).ctl = s.ctl := rfl
@[simp] theorem State.goto_int (a : Word) : (s.goto a).int = s.int := rfl
@[simp] theorem State.goto_sprgs (a : Word) : (s.goto a).sprgs = s.sprgs := rfl
@[simp] theorem State.goto_tim (a : Word) : (s.goto a).tim = s.tim := rfl
@[simp] theorem State.goto_cache (a : Word) : (s.goto a).cache = s.cache := rfl
@[simp] theorem State.goto_mmu (a : Word) : (s.goto a).mmu = s.mmu := rfl
@[simp] theorem State.goto_dbg (a : Word) : (s.goto a).dbg = s.dbg := rfl
@[simp] theorem State.goto_pm (a : Word) : (s.goto a).pm = s.pm := rfl
@[simp] theorem State.goto_hid (a : Word) : (s.goto a).hid = s.hid := rfl
@[simp] theorem State.goto_env (a : Word) : (s.goto a).env = s.env := rfl
@[simp] theorem State.goto_mem (a : Word) : (s.goto a).mem = s.mem := rfl
@[simp] theorem State.goto_physMap (a : Word) : (s.goto a).physMap = s.physMap := rfl
@[simp] theorem State.goto_draws (a : Word) : (s.goto a).draws = s.draws := rfl
@[simp] theorem State.goto_log (a : Word) : (s.goto a).log = { s.log with completed := true } := rfl

/-! advance -/

@[simp] theorem State.advance_gpr : (s.advance).gpr = s.gpr := rfl
@[simp] theorem State.advance_fpr : (s.advance).fpr = s.fpr := rfl
@[simp] theorem State.advance_cr : (s.advance).cr = s.cr := rfl
@[simp] theorem State.advance_xer : (s.advance).xer = s.xer := rfl
@[simp] theorem State.advance_lr : (s.advance).lr = s.lr := rfl
@[simp] theorem State.advance_ctr : (s.advance).ctr = s.ctr := rfl
@[simp] theorem State.advance_fpscr : (s.advance).fpscr = s.fpscr := rfl
@[simp] theorem State.advance_msr : (s.advance).msr = s.msr := rfl
@[simp] theorem State.advance_pc : (s.advance).pc = s.pc + 4 := rfl
@[simp] theorem State.advance_ctl : (s.advance).ctl = s.ctl := rfl
@[simp] theorem State.advance_int : (s.advance).int = s.int := rfl
@[simp] theorem State.advance_sprgs : (s.advance).sprgs = s.sprgs := rfl
@[simp] theorem State.advance_tim : (s.advance).tim = s.tim := rfl
@[simp] theorem State.advance_cache : (s.advance).cache = s.cache := rfl
@[simp] theorem State.advance_mmu : (s.advance).mmu = s.mmu := rfl
@[simp] theorem State.advance_dbg : (s.advance).dbg = s.dbg := rfl
@[simp] theorem State.advance_pm : (s.advance).pm = s.pm := rfl
@[simp] theorem State.advance_hid : (s.advance).hid = s.hid := rfl
@[simp] theorem State.advance_env : (s.advance).env = s.env := rfl
@[simp] theorem State.advance_mem : (s.advance).mem = s.mem := rfl
@[simp] theorem State.advance_physMap : (s.advance).physMap = s.physMap := rfl
@[simp] theorem State.advance_draws : (s.advance).draws = s.draws := rfl
@[simp] theorem State.advance_log : (s.advance).log = { s.log with completed := true } := rfl

/-! writeMsr -/

@[simp] theorem State.writeMsr_gpr (v : Word) : (s.writeMsr v).gpr = s.gpr := rfl
@[simp] theorem State.writeMsr_fpr (v : Word) : (s.writeMsr v).fpr = s.fpr := rfl
@[simp] theorem State.writeMsr_cr (v : Word) : (s.writeMsr v).cr = s.cr := rfl
@[simp] theorem State.writeMsr_xer (v : Word) : (s.writeMsr v).xer = s.xer := rfl
@[simp] theorem State.writeMsr_lr (v : Word) : (s.writeMsr v).lr = s.lr := rfl
@[simp] theorem State.writeMsr_ctr (v : Word) : (s.writeMsr v).ctr = s.ctr := rfl
@[simp] theorem State.writeMsr_fpscr (v : Word) : (s.writeMsr v).fpscr = s.fpscr := rfl
@[simp] theorem State.writeMsr_msr (v : Word) : (s.writeMsr v).msr = (s.msr &&& s.msrKept) ||| (v &&& msrDefined &&& ~~~s.msrKept) := rfl
@[simp] theorem State.writeMsr_pc (v : Word) : (s.writeMsr v).pc = s.pc := rfl
@[simp] theorem State.writeMsr_ctl (v : Word) : (s.writeMsr v).ctl = s.ctl := rfl
@[simp] theorem State.writeMsr_int (v : Word) : (s.writeMsr v).int = s.int := rfl
@[simp] theorem State.writeMsr_sprgs (v : Word) : (s.writeMsr v).sprgs = s.sprgs := rfl
@[simp] theorem State.writeMsr_tim (v : Word) : (s.writeMsr v).tim = s.tim := rfl
@[simp] theorem State.writeMsr_cache (v : Word) : (s.writeMsr v).cache = s.cache := rfl
@[simp] theorem State.writeMsr_mmu (v : Word) : (s.writeMsr v).mmu = s.mmu := rfl
@[simp] theorem State.writeMsr_dbg (v : Word) : (s.writeMsr v).dbg = s.dbg := rfl
@[simp] theorem State.writeMsr_pm (v : Word) : (s.writeMsr v).pm = s.pm := rfl
@[simp] theorem State.writeMsr_hid (v : Word) : (s.writeMsr v).hid = s.hid := rfl
@[simp] theorem State.writeMsr_env (v : Word) : (s.writeMsr v).env = s.env := rfl
@[simp] theorem State.writeMsr_mem (v : Word) : (s.writeMsr v).mem = s.mem := rfl
@[simp] theorem State.writeMsr_physMap (v : Word) : (s.writeMsr v).physMap = s.physMap := rfl
@[simp] theorem State.writeMsr_draws (v : Word) : (s.writeMsr v).draws = s.draws := rfl
@[simp] theorem State.writeMsr_log (v : Word) : (s.writeMsr v).log = s.log := rfl

/-! writeBytes -/

@[simp] theorem State.writeBytes_gpr (l : List (BitVec 36 × Byte)) : (s.writeBytes l).gpr = s.gpr := rfl
@[simp] theorem State.writeBytes_fpr (l : List (BitVec 36 × Byte)) : (s.writeBytes l).fpr = s.fpr := rfl
@[simp] theorem State.writeBytes_cr (l : List (BitVec 36 × Byte)) : (s.writeBytes l).cr = s.cr := rfl
@[simp] theorem State.writeBytes_xer (l : List (BitVec 36 × Byte)) : (s.writeBytes l).xer = s.xer := rfl
@[simp] theorem State.writeBytes_lr (l : List (BitVec 36 × Byte)) : (s.writeBytes l).lr = s.lr := rfl
@[simp] theorem State.writeBytes_ctr (l : List (BitVec 36 × Byte)) : (s.writeBytes l).ctr = s.ctr := rfl
@[simp] theorem State.writeBytes_fpscr (l : List (BitVec 36 × Byte)) : (s.writeBytes l).fpscr = s.fpscr := rfl
@[simp] theorem State.writeBytes_msr (l : List (BitVec 36 × Byte)) : (s.writeBytes l).msr = s.msr := rfl
@[simp] theorem State.writeBytes_pc (l : List (BitVec 36 × Byte)) : (s.writeBytes l).pc = s.pc := rfl
@[simp] theorem State.writeBytes_ctl (l : List (BitVec 36 × Byte)) : (s.writeBytes l).ctl = s.ctl := rfl
@[simp] theorem State.writeBytes_int (l : List (BitVec 36 × Byte)) : (s.writeBytes l).int = s.int := rfl
@[simp] theorem State.writeBytes_sprgs (l : List (BitVec 36 × Byte)) : (s.writeBytes l).sprgs = s.sprgs := rfl
@[simp] theorem State.writeBytes_tim (l : List (BitVec 36 × Byte)) : (s.writeBytes l).tim = s.tim := rfl
@[simp] theorem State.writeBytes_cache (l : List (BitVec 36 × Byte)) : (s.writeBytes l).cache = s.cache := rfl
@[simp] theorem State.writeBytes_mmu (l : List (BitVec 36 × Byte)) : (s.writeBytes l).mmu = s.mmu := rfl
@[simp] theorem State.writeBytes_dbg (l : List (BitVec 36 × Byte)) : (s.writeBytes l).dbg = s.dbg := rfl
@[simp] theorem State.writeBytes_pm (l : List (BitVec 36 × Byte)) : (s.writeBytes l).pm = s.pm := rfl
@[simp] theorem State.writeBytes_hid (l : List (BitVec 36 × Byte)) : (s.writeBytes l).hid = s.hid := rfl
@[simp] theorem State.writeBytes_env (l : List (BitVec 36 × Byte)) : (s.writeBytes l).env = s.env := rfl
@[simp] theorem State.writeBytes_mem (l : List (BitVec 36 × Byte)) : (s.writeBytes l).mem = s.mem.writeList l := rfl
@[simp] theorem State.writeBytes_physMap (l : List (BitVec 36 × Byte)) : (s.writeBytes l).physMap = s.physMap := rfl
@[simp] theorem State.writeBytes_draws (l : List (BitVec 36 × Byte)) : (s.writeBytes l).draws = s.draws := rfl
@[simp] theorem State.writeBytes_log (l : List (BitVec 36 × Byte)) : (s.writeBytes l).log = s.log := rfl

/-! takeInterrupt -/

@[simp] theorem State.takeInterrupt_gpr (i : Interrupt) : (s.takeInterrupt i).gpr = s.gpr := rfl
@[simp] theorem State.takeInterrupt_fpr (i : Interrupt) : (s.takeInterrupt i).fpr = s.fpr := rfl
@[simp] theorem State.takeInterrupt_cr (i : Interrupt) : (s.takeInterrupt i).cr = s.cr := rfl
@[simp] theorem State.takeInterrupt_xer (i : Interrupt) : (s.takeInterrupt i).xer = s.xer := rfl
@[simp] theorem State.takeInterrupt_lr (i : Interrupt) : (s.takeInterrupt i).lr = s.lr := rfl
@[simp] theorem State.takeInterrupt_ctr (i : Interrupt) : (s.takeInterrupt i).ctr = s.ctr := rfl
@[simp] theorem State.takeInterrupt_fpscr (i : Interrupt) : (s.takeInterrupt i).fpscr = s.fpscr := rfl
@[simp] theorem State.takeInterrupt_msr (i : Interrupt) : (s.takeInterrupt i).msr = s.msr &&& keepMask i.kind i.guest s.ctl.msrp := rfl
@[simp] theorem State.takeInterrupt_pc (i : Interrupt) : (s.takeInterrupt i).pc = s.int.vector i.kind i.guest := rfl
@[simp] theorem State.takeInterrupt_ctl (i : Interrupt) : (s.takeInterrupt i).ctl = s.ctl := rfl
@[simp] theorem State.takeInterrupt_int (i : Interrupt) : (s.takeInterrupt i).int = (s.int.save (i.kind.savePair i.guest) i.ret s.msr).syndrome i.guest i.esr i.dear := rfl
@[simp] theorem State.takeInterrupt_sprgs (i : Interrupt) : (s.takeInterrupt i).sprgs = s.sprgs := rfl
@[simp] theorem State.takeInterrupt_tim (i : Interrupt) : (s.takeInterrupt i).tim = s.tim := rfl
@[simp] theorem State.takeInterrupt_cache (i : Interrupt) : (s.takeInterrupt i).cache = s.cache := rfl
@[simp] theorem State.takeInterrupt_mmu (i : Interrupt) : (s.takeInterrupt i).mmu = s.mmu := rfl
@[simp] theorem State.takeInterrupt_dbg (i : Interrupt) : (s.takeInterrupt i).dbg = s.dbg := rfl
@[simp] theorem State.takeInterrupt_pm (i : Interrupt) : (s.takeInterrupt i).pm = s.pm := rfl
@[simp] theorem State.takeInterrupt_hid (i : Interrupt) : (s.takeInterrupt i).hid = { s.hid with reserve := if i.async then none else s.hid.reserve, waiting := false } := rfl
@[simp] theorem State.takeInterrupt_env (i : Interrupt) : (s.takeInterrupt i).env = s.env := rfl
@[simp] theorem State.takeInterrupt_mem (i : Interrupt) : (s.takeInterrupt i).mem = s.mem := rfl
@[simp] theorem State.takeInterrupt_physMap (i : Interrupt) : (s.takeInterrupt i).physMap = s.physMap := rfl
@[simp] theorem State.takeInterrupt_draws (i : Interrupt) : (s.takeInterrupt i).draws = s.draws := rfl
@[simp] theorem State.takeInterrupt_log (i : Interrupt) : (s.takeInterrupt i).log = { s.log with interrupts := i.kind :: s.log.interrupts } := rfl

/-! noteDevice -/

@[simp] theorem State.noteDevice_gpr (d : DeviceAccess) : (s.noteDevice d).gpr = s.gpr := rfl
@[simp] theorem State.noteDevice_fpr (d : DeviceAccess) : (s.noteDevice d).fpr = s.fpr := rfl
@[simp] theorem State.noteDevice_cr (d : DeviceAccess) : (s.noteDevice d).cr = s.cr := rfl
@[simp] theorem State.noteDevice_xer (d : DeviceAccess) : (s.noteDevice d).xer = s.xer := rfl
@[simp] theorem State.noteDevice_lr (d : DeviceAccess) : (s.noteDevice d).lr = s.lr := rfl
@[simp] theorem State.noteDevice_ctr (d : DeviceAccess) : (s.noteDevice d).ctr = s.ctr := rfl
@[simp] theorem State.noteDevice_fpscr (d : DeviceAccess) : (s.noteDevice d).fpscr = s.fpscr := rfl
@[simp] theorem State.noteDevice_msr (d : DeviceAccess) : (s.noteDevice d).msr = s.msr := rfl
@[simp] theorem State.noteDevice_pc (d : DeviceAccess) : (s.noteDevice d).pc = s.pc := rfl
@[simp] theorem State.noteDevice_ctl (d : DeviceAccess) : (s.noteDevice d).ctl = s.ctl := rfl
@[simp] theorem State.noteDevice_int (d : DeviceAccess) : (s.noteDevice d).int = s.int := rfl
@[simp] theorem State.noteDevice_sprgs (d : DeviceAccess) : (s.noteDevice d).sprgs = s.sprgs := rfl
@[simp] theorem State.noteDevice_tim (d : DeviceAccess) : (s.noteDevice d).tim = s.tim := rfl
@[simp] theorem State.noteDevice_cache (d : DeviceAccess) : (s.noteDevice d).cache = s.cache := rfl
@[simp] theorem State.noteDevice_mmu (d : DeviceAccess) : (s.noteDevice d).mmu = s.mmu := rfl
@[simp] theorem State.noteDevice_dbg (d : DeviceAccess) : (s.noteDevice d).dbg = s.dbg := rfl
@[simp] theorem State.noteDevice_pm (d : DeviceAccess) : (s.noteDevice d).pm = s.pm := rfl
@[simp] theorem State.noteDevice_hid (d : DeviceAccess) : (s.noteDevice d).hid = s.hid := rfl
@[simp] theorem State.noteDevice_env (d : DeviceAccess) : (s.noteDevice d).env = s.env := rfl
@[simp] theorem State.noteDevice_mem (d : DeviceAccess) : (s.noteDevice d).mem = s.mem := rfl
@[simp] theorem State.noteDevice_physMap (d : DeviceAccess) : (s.noteDevice d).physMap = s.physMap := rfl
@[simp] theorem State.noteDevice_draws (d : DeviceAccess) : (s.noteDevice d).draws = s.draws := rfl
@[simp] theorem State.noteDevice_log (d : DeviceAccess) : (s.noteDevice d).log = { s.log with devices := s.log.devices ++ [d] } := rfl

/-! drawWord -/

@[simp] theorem State.drawWord_snd_gpr : (s.drawWord.2).gpr = s.gpr := rfl
@[simp] theorem State.drawWord_snd_fpr : (s.drawWord.2).fpr = s.fpr := rfl
@[simp] theorem State.drawWord_snd_cr : (s.drawWord.2).cr = s.cr := rfl
@[simp] theorem State.drawWord_snd_xer : (s.drawWord.2).xer = s.xer := rfl
@[simp] theorem State.drawWord_snd_lr : (s.drawWord.2).lr = s.lr := rfl
@[simp] theorem State.drawWord_snd_ctr : (s.drawWord.2).ctr = s.ctr := rfl
@[simp] theorem State.drawWord_snd_fpscr : (s.drawWord.2).fpscr = s.fpscr := rfl
@[simp] theorem State.drawWord_snd_msr : (s.drawWord.2).msr = s.msr := rfl
@[simp] theorem State.drawWord_snd_pc : (s.drawWord.2).pc = s.pc := rfl
@[simp] theorem State.drawWord_snd_ctl : (s.drawWord.2).ctl = s.ctl := rfl
@[simp] theorem State.drawWord_snd_int : (s.drawWord.2).int = s.int := rfl
@[simp] theorem State.drawWord_snd_sprgs : (s.drawWord.2).sprgs = s.sprgs := rfl
@[simp] theorem State.drawWord_snd_tim : (s.drawWord.2).tim = s.tim := rfl
@[simp] theorem State.drawWord_snd_cache : (s.drawWord.2).cache = s.cache := rfl
@[simp] theorem State.drawWord_snd_mmu : (s.drawWord.2).mmu = s.mmu := rfl
@[simp] theorem State.drawWord_snd_dbg : (s.drawWord.2).dbg = s.dbg := rfl
@[simp] theorem State.drawWord_snd_pm : (s.drawWord.2).pm = s.pm := rfl
@[simp] theorem State.drawWord_snd_hid : (s.drawWord.2).hid = s.hid := rfl
@[simp] theorem State.drawWord_snd_env : (s.drawWord.2).env = s.env := rfl
@[simp] theorem State.drawWord_snd_mem : (s.drawWord.2).mem = s.mem := rfl
@[simp] theorem State.drawWord_snd_physMap : (s.drawWord.2).physMap = s.physMap := rfl
@[simp] theorem State.drawWord_snd_draws : (s.drawWord.2).draws = s.draws + 1 := rfl
@[simp] theorem State.drawWord_snd_log : (s.drawWord.2).log = s.log := rfl

/-! drawDWord -/

@[simp] theorem State.drawDWord_snd_gpr : (s.drawDWord.2).gpr = s.gpr := rfl
@[simp] theorem State.drawDWord_snd_fpr : (s.drawDWord.2).fpr = s.fpr := rfl
@[simp] theorem State.drawDWord_snd_cr : (s.drawDWord.2).cr = s.cr := rfl
@[simp] theorem State.drawDWord_snd_xer : (s.drawDWord.2).xer = s.xer := rfl
@[simp] theorem State.drawDWord_snd_lr : (s.drawDWord.2).lr = s.lr := rfl
@[simp] theorem State.drawDWord_snd_ctr : (s.drawDWord.2).ctr = s.ctr := rfl
@[simp] theorem State.drawDWord_snd_fpscr : (s.drawDWord.2).fpscr = s.fpscr := rfl
@[simp] theorem State.drawDWord_snd_msr : (s.drawDWord.2).msr = s.msr := rfl
@[simp] theorem State.drawDWord_snd_pc : (s.drawDWord.2).pc = s.pc := rfl
@[simp] theorem State.drawDWord_snd_ctl : (s.drawDWord.2).ctl = s.ctl := rfl
@[simp] theorem State.drawDWord_snd_int : (s.drawDWord.2).int = s.int := rfl
@[simp] theorem State.drawDWord_snd_sprgs : (s.drawDWord.2).sprgs = s.sprgs := rfl
@[simp] theorem State.drawDWord_snd_tim : (s.drawDWord.2).tim = s.tim := rfl
@[simp] theorem State.drawDWord_snd_cache : (s.drawDWord.2).cache = s.cache := rfl
@[simp] theorem State.drawDWord_snd_mmu : (s.drawDWord.2).mmu = s.mmu := rfl
@[simp] theorem State.drawDWord_snd_dbg : (s.drawDWord.2).dbg = s.dbg := rfl
@[simp] theorem State.drawDWord_snd_pm : (s.drawDWord.2).pm = s.pm := rfl
@[simp] theorem State.drawDWord_snd_hid : (s.drawDWord.2).hid = s.hid := rfl
@[simp] theorem State.drawDWord_snd_env : (s.drawDWord.2).env = s.env := rfl
@[simp] theorem State.drawDWord_snd_mem : (s.drawDWord.2).mem = s.mem := rfl
@[simp] theorem State.drawDWord_snd_physMap : (s.drawDWord.2).physMap = s.physMap := rfl
@[simp] theorem State.drawDWord_snd_draws : (s.drawDWord.2).draws = s.draws + 1 := rfl
@[simp] theorem State.drawDWord_snd_log : (s.drawDWord.2).log = s.log := rfl

/-! drawBit -/

@[simp] theorem State.drawBit_snd_gpr : (s.drawBit.2).gpr = s.gpr := rfl
@[simp] theorem State.drawBit_snd_fpr : (s.drawBit.2).fpr = s.fpr := rfl
@[simp] theorem State.drawBit_snd_cr : (s.drawBit.2).cr = s.cr := rfl
@[simp] theorem State.drawBit_snd_xer : (s.drawBit.2).xer = s.xer := rfl
@[simp] theorem State.drawBit_snd_lr : (s.drawBit.2).lr = s.lr := rfl
@[simp] theorem State.drawBit_snd_ctr : (s.drawBit.2).ctr = s.ctr := rfl
@[simp] theorem State.drawBit_snd_fpscr : (s.drawBit.2).fpscr = s.fpscr := rfl
@[simp] theorem State.drawBit_snd_msr : (s.drawBit.2).msr = s.msr := rfl
@[simp] theorem State.drawBit_snd_pc : (s.drawBit.2).pc = s.pc := rfl
@[simp] theorem State.drawBit_snd_ctl : (s.drawBit.2).ctl = s.ctl := rfl
@[simp] theorem State.drawBit_snd_int : (s.drawBit.2).int = s.int := rfl
@[simp] theorem State.drawBit_snd_sprgs : (s.drawBit.2).sprgs = s.sprgs := rfl
@[simp] theorem State.drawBit_snd_tim : (s.drawBit.2).tim = s.tim := rfl
@[simp] theorem State.drawBit_snd_cache : (s.drawBit.2).cache = s.cache := rfl
@[simp] theorem State.drawBit_snd_mmu : (s.drawBit.2).mmu = s.mmu := rfl
@[simp] theorem State.drawBit_snd_dbg : (s.drawBit.2).dbg = s.dbg := rfl
@[simp] theorem State.drawBit_snd_pm : (s.drawBit.2).pm = s.pm := rfl
@[simp] theorem State.drawBit_snd_hid : (s.drawBit.2).hid = s.hid := rfl
@[simp] theorem State.drawBit_snd_env : (s.drawBit.2).env = s.env := rfl
@[simp] theorem State.drawBit_snd_mem : (s.drawBit.2).mem = s.mem := rfl
@[simp] theorem State.drawBit_snd_physMap : (s.drawBit.2).physMap = s.physMap := rfl
@[simp] theorem State.drawBit_snd_draws : (s.drawBit.2).draws = s.draws + 1 := rfl
@[simp] theorem State.drawBit_snd_log : (s.drawBit.2).log = s.log := rfl

/-! drawCr -/

@[simp] theorem State.drawCr_snd_gpr : (s.drawCr.2).gpr = s.gpr := rfl
@[simp] theorem State.drawCr_snd_fpr : (s.drawCr.2).fpr = s.fpr := rfl
@[simp] theorem State.drawCr_snd_cr : (s.drawCr.2).cr = s.cr := rfl
@[simp] theorem State.drawCr_snd_xer : (s.drawCr.2).xer = s.xer := rfl
@[simp] theorem State.drawCr_snd_lr : (s.drawCr.2).lr = s.lr := rfl
@[simp] theorem State.drawCr_snd_ctr : (s.drawCr.2).ctr = s.ctr := rfl
@[simp] theorem State.drawCr_snd_fpscr : (s.drawCr.2).fpscr = s.fpscr := rfl
@[simp] theorem State.drawCr_snd_msr : (s.drawCr.2).msr = s.msr := rfl
@[simp] theorem State.drawCr_snd_pc : (s.drawCr.2).pc = s.pc := rfl
@[simp] theorem State.drawCr_snd_ctl : (s.drawCr.2).ctl = s.ctl := rfl
@[simp] theorem State.drawCr_snd_int : (s.drawCr.2).int = s.int := rfl
@[simp] theorem State.drawCr_snd_sprgs : (s.drawCr.2).sprgs = s.sprgs := rfl
@[simp] theorem State.drawCr_snd_tim : (s.drawCr.2).tim = s.tim := rfl
@[simp] theorem State.drawCr_snd_cache : (s.drawCr.2).cache = s.cache := rfl
@[simp] theorem State.drawCr_snd_mmu : (s.drawCr.2).mmu = s.mmu := rfl
@[simp] theorem State.drawCr_snd_dbg : (s.drawCr.2).dbg = s.dbg := rfl
@[simp] theorem State.drawCr_snd_pm : (s.drawCr.2).pm = s.pm := rfl
@[simp] theorem State.drawCr_snd_hid : (s.drawCr.2).hid = s.hid := rfl
@[simp] theorem State.drawCr_snd_env : (s.drawCr.2).env = s.env := rfl
@[simp] theorem State.drawCr_snd_mem : (s.drawCr.2).mem = s.mem := rfl
@[simp] theorem State.drawCr_snd_physMap : (s.drawCr.2).physMap = s.physMap := rfl
@[simp] theorem State.drawCr_snd_draws : (s.drawCr.2).draws = s.draws + 1 := rfl
@[simp] theorem State.drawCr_snd_log : (s.drawCr.2).log = s.log := rfl

/-! drawFprf -/

@[simp] theorem State.drawFprf_snd_gpr : (s.drawFprf.2).gpr = s.gpr := rfl
@[simp] theorem State.drawFprf_snd_fpr : (s.drawFprf.2).fpr = s.fpr := rfl
@[simp] theorem State.drawFprf_snd_cr : (s.drawFprf.2).cr = s.cr := rfl
@[simp] theorem State.drawFprf_snd_xer : (s.drawFprf.2).xer = s.xer := rfl
@[simp] theorem State.drawFprf_snd_lr : (s.drawFprf.2).lr = s.lr := rfl
@[simp] theorem State.drawFprf_snd_ctr : (s.drawFprf.2).ctr = s.ctr := rfl
@[simp] theorem State.drawFprf_snd_fpscr : (s.drawFprf.2).fpscr = s.fpscr := rfl
@[simp] theorem State.drawFprf_snd_msr : (s.drawFprf.2).msr = s.msr := rfl
@[simp] theorem State.drawFprf_snd_pc : (s.drawFprf.2).pc = s.pc := rfl
@[simp] theorem State.drawFprf_snd_ctl : (s.drawFprf.2).ctl = s.ctl := rfl
@[simp] theorem State.drawFprf_snd_int : (s.drawFprf.2).int = s.int := rfl
@[simp] theorem State.drawFprf_snd_sprgs : (s.drawFprf.2).sprgs = s.sprgs := rfl
@[simp] theorem State.drawFprf_snd_tim : (s.drawFprf.2).tim = s.tim := rfl
@[simp] theorem State.drawFprf_snd_cache : (s.drawFprf.2).cache = s.cache := rfl
@[simp] theorem State.drawFprf_snd_mmu : (s.drawFprf.2).mmu = s.mmu := rfl
@[simp] theorem State.drawFprf_snd_dbg : (s.drawFprf.2).dbg = s.dbg := rfl
@[simp] theorem State.drawFprf_snd_pm : (s.drawFprf.2).pm = s.pm := rfl
@[simp] theorem State.drawFprf_snd_hid : (s.drawFprf.2).hid = s.hid := rfl
@[simp] theorem State.drawFprf_snd_env : (s.drawFprf.2).env = s.env := rfl
@[simp] theorem State.drawFprf_snd_mem : (s.drawFprf.2).mem = s.mem := rfl
@[simp] theorem State.drawFprf_snd_physMap : (s.drawFprf.2).physMap = s.physMap := rfl
@[simp] theorem State.drawFprf_snd_draws : (s.drawFprf.2).draws = s.draws + 1 := rfl
@[simp] theorem State.drawFprf_snd_log : (s.drawFprf.2).log = s.log := rfl

/-! drawVictim -/

@[simp] theorem State.drawVictim_snd_gpr : (s.drawVictim.2).gpr = s.gpr := rfl
@[simp] theorem State.drawVictim_snd_fpr : (s.drawVictim.2).fpr = s.fpr := rfl
@[simp] theorem State.drawVictim_snd_cr : (s.drawVictim.2).cr = s.cr := rfl
@[simp] theorem State.drawVictim_snd_xer : (s.drawVictim.2).xer = s.xer := rfl
@[simp] theorem State.drawVictim_snd_lr : (s.drawVictim.2).lr = s.lr := rfl
@[simp] theorem State.drawVictim_snd_ctr : (s.drawVictim.2).ctr = s.ctr := rfl
@[simp] theorem State.drawVictim_snd_fpscr : (s.drawVictim.2).fpscr = s.fpscr := rfl
@[simp] theorem State.drawVictim_snd_msr : (s.drawVictim.2).msr = s.msr := rfl
@[simp] theorem State.drawVictim_snd_pc : (s.drawVictim.2).pc = s.pc := rfl
@[simp] theorem State.drawVictim_snd_ctl : (s.drawVictim.2).ctl = s.ctl := rfl
@[simp] theorem State.drawVictim_snd_int : (s.drawVictim.2).int = s.int := rfl
@[simp] theorem State.drawVictim_snd_sprgs : (s.drawVictim.2).sprgs = s.sprgs := rfl
@[simp] theorem State.drawVictim_snd_tim : (s.drawVictim.2).tim = s.tim := rfl
@[simp] theorem State.drawVictim_snd_cache : (s.drawVictim.2).cache = s.cache := rfl
@[simp] theorem State.drawVictim_snd_mmu : (s.drawVictim.2).mmu = s.mmu := rfl
@[simp] theorem State.drawVictim_snd_dbg : (s.drawVictim.2).dbg = s.dbg := rfl
@[simp] theorem State.drawVictim_snd_pm : (s.drawVictim.2).pm = s.pm := rfl
@[simp] theorem State.drawVictim_snd_hid : (s.drawVictim.2).hid = s.hid := rfl
@[simp] theorem State.drawVictim_snd_env : (s.drawVictim.2).env = s.env := rfl
@[simp] theorem State.drawVictim_snd_mem : (s.drawVictim.2).mem = s.mem := rfl
@[simp] theorem State.drawVictim_snd_physMap : (s.drawVictim.2).physMap = s.physMap := rfl
@[simp] theorem State.drawVictim_snd_draws : (s.drawVictim.2).draws = s.draws + 1 := rfl
@[simp] theorem State.drawVictim_snd_log : (s.drawVictim.2).log = s.log := rfl

/-! markEdbsr -/

@[simp] theorem State.markEdbsr_gpr (b : Word) : (s.markEdbsr b).gpr = s.gpr := rfl
@[simp] theorem State.markEdbsr_fpr (b : Word) : (s.markEdbsr b).fpr = s.fpr := rfl
@[simp] theorem State.markEdbsr_cr (b : Word) : (s.markEdbsr b).cr = s.cr := rfl
@[simp] theorem State.markEdbsr_xer (b : Word) : (s.markEdbsr b).xer = s.xer := rfl
@[simp] theorem State.markEdbsr_lr (b : Word) : (s.markEdbsr b).lr = s.lr := rfl
@[simp] theorem State.markEdbsr_ctr (b : Word) : (s.markEdbsr b).ctr = s.ctr := rfl
@[simp] theorem State.markEdbsr_fpscr (b : Word) : (s.markEdbsr b).fpscr = s.fpscr := rfl
@[simp] theorem State.markEdbsr_msr (b : Word) : (s.markEdbsr b).msr = s.msr := rfl
@[simp] theorem State.markEdbsr_pc (b : Word) : (s.markEdbsr b).pc = s.pc := rfl
@[simp] theorem State.markEdbsr_ctl (b : Word) : (s.markEdbsr b).ctl = s.ctl := rfl
@[simp] theorem State.markEdbsr_int (b : Word) : (s.markEdbsr b).int = s.int := rfl
@[simp] theorem State.markEdbsr_sprgs (b : Word) : (s.markEdbsr b).sprgs = s.sprgs := rfl
@[simp] theorem State.markEdbsr_tim (b : Word) : (s.markEdbsr b).tim = s.tim := rfl
@[simp] theorem State.markEdbsr_cache (b : Word) : (s.markEdbsr b).cache = s.cache := rfl
@[simp] theorem State.markEdbsr_mmu (b : Word) : (s.markEdbsr b).mmu = s.mmu := rfl
@[simp] theorem State.markEdbsr_dbg (b : Word) : (s.markEdbsr b).dbg = { s.dbg with edbsr0 := s.dbg.edbsr0 ||| b } := rfl
@[simp] theorem State.markEdbsr_pm (b : Word) : (s.markEdbsr b).pm = s.pm := rfl
@[simp] theorem State.markEdbsr_hid (b : Word) : (s.markEdbsr b).hid = s.hid := rfl
@[simp] theorem State.markEdbsr_env (b : Word) : (s.markEdbsr b).env = s.env := rfl
@[simp] theorem State.markEdbsr_mem (b : Word) : (s.markEdbsr b).mem = s.mem := rfl
@[simp] theorem State.markEdbsr_physMap (b : Word) : (s.markEdbsr b).physMap = s.physMap := rfl
@[simp] theorem State.markEdbsr_draws (b : Word) : (s.markEdbsr b).draws = s.draws := rfl
@[simp] theorem State.markEdbsr_log (b : Word) : (s.markEdbsr b).log = s.log := rfl

/-! haltForDebug -/

@[simp] theorem State.haltForDebug_gpr (b a : Word) : (s.haltForDebug b a).gpr = s.gpr := rfl
@[simp] theorem State.haltForDebug_fpr (b a : Word) : (s.haltForDebug b a).fpr = s.fpr := rfl
@[simp] theorem State.haltForDebug_cr (b a : Word) : (s.haltForDebug b a).cr = s.cr := rfl
@[simp] theorem State.haltForDebug_xer (b a : Word) : (s.haltForDebug b a).xer = s.xer := rfl
@[simp] theorem State.haltForDebug_lr (b a : Word) : (s.haltForDebug b a).lr = s.lr := rfl
@[simp] theorem State.haltForDebug_ctr (b a : Word) : (s.haltForDebug b a).ctr = s.ctr := rfl
@[simp] theorem State.haltForDebug_fpscr (b a : Word) : (s.haltForDebug b a).fpscr = s.fpscr := rfl
@[simp] theorem State.haltForDebug_msr (b a : Word) : (s.haltForDebug b a).msr = s.msr := rfl
@[simp] theorem State.haltForDebug_pc (b a : Word) : (s.haltForDebug b a).pc = a := rfl
@[simp] theorem State.haltForDebug_ctl (b a : Word) : (s.haltForDebug b a).ctl = s.ctl := rfl
@[simp] theorem State.haltForDebug_int (b a : Word) : (s.haltForDebug b a).int = s.int := rfl
@[simp] theorem State.haltForDebug_sprgs (b a : Word) : (s.haltForDebug b a).sprgs = s.sprgs := rfl
@[simp] theorem State.haltForDebug_tim (b a : Word) : (s.haltForDebug b a).tim = s.tim := rfl
@[simp] theorem State.haltForDebug_cache (b a : Word) : (s.haltForDebug b a).cache = s.cache := rfl
@[simp] theorem State.haltForDebug_mmu (b a : Word) : (s.haltForDebug b a).mmu = s.mmu := rfl
@[simp] theorem State.haltForDebug_dbg (b a : Word) : (s.haltForDebug b a).dbg = { s.dbg with edbsr0 := b, prsr := s.dbg.prsr ||| 0x08000000 } := rfl
@[simp] theorem State.haltForDebug_pm (b a : Word) : (s.haltForDebug b a).pm = s.pm := rfl
@[simp] theorem State.haltForDebug_hid (b a : Word) : (s.haltForDebug b a).hid = { s.hid with dbgHalted := true } := rfl
@[simp] theorem State.haltForDebug_env (b a : Word) : (s.haltForDebug b a).env = s.env := rfl
@[simp] theorem State.haltForDebug_mem (b a : Word) : (s.haltForDebug b a).mem = s.mem := rfl
@[simp] theorem State.haltForDebug_physMap (b a : Word) : (s.haltForDebug b a).physMap = s.physMap := rfl
@[simp] theorem State.haltForDebug_draws (b a : Word) : (s.haltForDebug b a).draws = s.draws := rfl
@[simp] theorem State.haltForDebug_log (b a : Word) : (s.haltForDebug b a).log = s.log := rfl

/-! ### Register files -/

@[simp] theorem State.getGpr_setGpr (r q : BitVec 5) (v : Word) :
    (s.setGpr r v).getGpr q = if q = r then v else s.getGpr q := by
  unfold State.getGpr
  simp only [State.setGpr_gpr, Vector.getElem_set, BitVec.toNat_inj, eq_comm (a := r)]

@[simp] theorem State.getFpr_setFpr (r q : BitVec 5) (v : DWord) :
    (s.setFpr r v).getFpr q = if q = r then v else s.getFpr q := by
  unfold State.getFpr
  simp only [State.setFpr_fpr, Vector.getElem_set, BitVec.toNat_inj, eq_comm (a := r)]

/-- A register is read from the general-purpose registers alone. -/
theorem State.getGpr_congr {s t : State} (h : t.gpr = s.gpr) (r : BitVec 5) : t.getGpr r = s.getGpr r := by
  unfold State.getGpr
  rw [h]

/-- A floating-point register is read from the floating-point registers alone. -/
theorem State.getFpr_congr {s t : State} (h : t.fpr = s.fpr) (r : BitVec 5) : t.getFpr r = s.getFpr r := by
  unfold State.getFpr
  rw [h]

/-- A byte is read from storage alone. -/
theorem State.readByte_congr {s t : State} (h : t.mem = s.mem) (a : BitVec 36) : t.readByte a = s.readByte a := by
  unfold State.readByte
  rw [h]

end Sys2Proof.Machine
end

