-- ==== Sys2Proof/Laws/Flags.lean ====
section
/-! SUPPORT. What the flag operations do: sums with their carry and overflow, XER, CR fields, the record form. -/

namespace Sys2Proof.Machine

/-! ### Sums (40 R401) -/

/-- The result of a sum. -/
theorem sum_res (x y : Word) (c : Bool) : (sum x y c).res = x + y + (BitVec.ofBool c).setWidth 32 := by
  apply BitVec.eq_of_toNat_eq
  cases c <;> simp [sum, BitVec.toNat_add]

/-- The carry of a sum. -/
theorem sum_ca (x y : Word) (c : Bool) : (sum x y c).ca = decide (2 ^ 32 ≤ x.toNat + y.toNat + c.toNat) := by
  have hx := x.isLt
  have hy := y.isLt
  simp only [sum, BitVec.msb_eq_decide]
  congr 1
  cases c <;> simp [BitVec.toNat_add] <;> omega

/-- The overflow of a sum. -/
theorem sum_ov (x y : Word) (c : Bool) :
    (sum x y c).ov = true ↔ notInt32 (x.toInt + y.toInt + c.toNat) := by
  have hx := x.isLt
  have hy := y.isLt
  unfold notInt32
  simp only [sum, BitVec.msb_eq_decide, BitVec.toInt_eq_toNat_cond]
  cases c <;> simp [BitVec.toNat_add] <;> split <;> split <;> omega

/-! ### Bits and masks -/

/-- A bit of a word with some bits replaced. -/
theorem bit_mix (old new mask : Word) (n : Nat) :
    bit (mix old new mask) n = if bit mask n then bit new n else bit old n := by
  unfold bit mix
  simp only [BitVec.getLsbD_or, BitVec.getLsbD_and, BitVec.getLsbD_not]
  cases hm : mask.getLsbD (63 - n)
  · by_cases h : 63 - n < 32
    · simp [h]
    · simp [BitVec.getLsbD_of_ge _ _ (Nat.le_of_not_lt h)]
  · simp

/-- Words that are equal agree. -/
theorem agreeBut_refl (mask a : Word) : agreeBut mask a a := rfl

/-- Agreement passes on. -/
theorem agreeBut_trans {mask a b c : Word} (h : agreeBut mask a b) (g : agreeBut mask b c) : agreeBut mask a c :=
  Eq.trans h g

/-- Agreement outside a mask is agreement outside a larger one. -/
theorem agreeBut_mono {m mask a b : Word} (hm : m &&& ~~~mask = 0) (h : agreeBut m a b) : agreeBut mask a b := by
  unfold agreeBut at *
  have hk : ~~~mask = ~~~m &&& ~~~mask := by
    ext i hi
    have := congrArg (fun w => w.getLsbD i) hm
    simp [hi, BitVec.getLsbD_eq_getElem] at this ⊢
    cases h1 : m[i] <;> simp_all
  rw [hk, ← BitVec.and_assoc, ← BitVec.and_assoc, h]

/-- A word with some bits replaced agrees with it elsewhere. -/
theorem agreeBut_mix (old new mask : Word) : agreeBut mask (mix old new mask) old := by
  unfold agreeBut mix
  ext i hi
  simp
  cases mask[i] <;> simp

/-! ### XER -/

@[simp] theorem ca_withCa (c : Bool) (x : Word) : bit (withCa c x) 34 = c := by
  unfold withCa
  rw [bit_mix]
  cases c <;> rfl

@[simp] theorem so_withCa (c : Bool) (x : Word) : bit (withCa c x) 32 = bit x 32 := by
  unfold withCa
  rw [bit_mix, if_neg (by decide)]

@[simp] theorem ov_withCa (c : Bool) (x : Word) : bit (withCa c x) 33 = bit x 33 := by
  unfold withCa
  rw [bit_mix, if_neg (by decide)]

theorem bit_or (a b : Word) (n : Nat) : bit (a ||| b) n = (bit a n || bit b n) := by
  unfold bit
  rw [BitVec.getLsbD_or]

@[simp] theorem ov_withOv (v : Bool) (x : Word) : bit (withOv v x) 33 = v := by
  unfold withOv
  rw [bit_or, bit_mix, if_pos (by decide)]
  cases v <;> rfl

@[simp] theorem so_withOv (v : Bool) (x : Word) : bit (withOv v x) 32 = (bit x 32 || v) := by
  unfold withOv
  rw [bit_or, bit_mix, if_neg (by decide)]
  cases v <;> rfl

@[simp] theorem ca_withOv (v : Bool) (x : Word) : bit (withOv v x) 34 = bit x 34 := by
  unfold withOv
  rw [bit_or, bit_mix, if_neg (by decide)]
  cases v
  · exact Bool.or_false _
  · exact Bool.or_false _

theorem agreeBut_withCa (c : Bool) (x : Word) : agreeBut 0x20000000 (withCa c x) x := agreeBut_mix _ _ _

theorem agreeBut_or {m mask : Word} (x : Word) (h : m &&& ~~~mask = 0) : agreeBut mask (x ||| m) x := by
  unfold agreeBut
  have hd : (x ||| m) &&& ~~~mask = (x &&& ~~~mask) ||| (m &&& ~~~mask) := by
    ext i hi
    simp [Bool.and_or_distrib_right]
  rw [hd, h]
  simp

theorem agreeBut_withOv (v : Bool) (x : Word) : agreeBut 0xC0000000 (withOv v x) x :=
  agreeBut_trans (agreeBut_or _ (by cases v <;> rfl))
    (agreeBut_mono (m := 0x40000000) (by decide) (agreeBut_mix _ _ _))

/-! ### CR fields -/

/-- A CR field replaced leaves the others. -/
theorem agreeBut_withCrField (n : BitVec 3) (v : BitVec 4) (cr : Word) :
    agreeBut (crFieldMask n) (withCrField n v cr) cr := agreeBut_mix _ _ _

/-- The bits of a CR field replaced. -/
theorem bit_withCrField (n : BitVec 3) (v : BitVec 4) (cr : Word) (k : Fin 4) :
    bit (withCrField n v cr) (32 + k.val + 4 * n.toNat) = v.getLsbD (3 - k.val) := by
  unfold withCrField
  rw [bit_mix, if_pos (by revert k n; decide)]
  revert k n v
  decide +kernel

/-- The four bits of a comparison. -/
theorem compareBits_bits (lt gt eq so : Bool) :
    (compareBits lt gt eq so).getLsbD 3 = lt ∧ (compareBits lt gt eq so).getLsbD 2 = gt ∧
      (compareBits lt gt eq so).getLsbD 1 = eq ∧ (compareBits lt gt eq so).getLsbD 0 = so := by
  cases lt <;> cases gt <;> cases eq <;> cases so <;> decide

end Sys2Proof.Machine
end

