-- ==== Sys2Proof/Laws/Frames.lean ====
section
/-! SUPPORT. Frames: how what an instruction may change composes, and what each update of the state keeps. -/

namespace Sys2Proof.Machine

/-- Agreement outside two masks is agreement outside both. -/
theorem agreeBut_union {m1 m2 a b c : Word} (h : agreeBut m1 a b) (g : agreeBut m2 b c) : agreeBut (m2 ||| m1) a c := by
  refine agreeBut_trans (agreeBut_mono (m := m1) ?_ h) (agreeBut_mono (m := m2) ?_ g)
  · ext i hi
    simp only [BitVec.getElem_and, BitVec.getElem_not, BitVec.getElem_or, BitVec.ofNat_eq_ofNat, BitVec.getElem_zero]
    cases m1[i] <;> simp
  · ext i hi
    simp only [BitVec.getElem_and, BitVec.getElem_not, BitVec.getElem_or, BitVec.ofNat_eq_ofNat, BitVec.getElem_zero]
    cases m2[i] <;> simp

/-- A state keeps itself. -/
theorem Keeps.refl (e : Effect) (s : State) : Keeps e s s :=
  ⟨fun _ _ => rfl, fun _ _ => rfl, rfl, rfl, rfl, fun _ => rfl, fun _ => rfl, fun _ => rfl, fun _ => rfl, fun _ => rfl,
    fun _ => rfl, fun _ => rfl, rfl, rfl, rfl, rfl, rfl, rfl, rfl⟩

/-- Two changes in turn. -/
theorem Keeps.trans {e : Effect} {s t u : State} (h : Keeps e s t) (g : Keeps e t u) : Keeps e s u where
  gprs r hr := (g.gprs r hr).trans (h.gprs r hr)
  fprs r hr := (g.fprs r hr).trans (h.fprs r hr)
  cr := agreeBut_trans g.cr h.cr
  xer := agreeBut_trans g.xer h.xer
  fpscr := agreeBut_trans g.fpscr h.fpscr
  lr q := (g.lr q).trans (h.lr q)
  ctr q := (g.ctr q).trans (h.ctr q)
  msr q := (g.msr q).trans (h.msr q)
  cache q := (g.cache q).trans (h.cache q)
  mmu q := (g.mmu q).trans (h.mmu q)
  hid q := (g.hid q).trans (h.hid q)
  pm q := (g.pm q).trans (h.pm q)
  ctl := g.ctl.trans h.ctl
  int := g.int.trans h.int
  sprgs := g.sprgs.trans h.sprgs
  tim := g.tim.trans h.tim
  dbg := g.dbg.trans h.dbg
  env := g.env.trans h.env
  map := g.map.trans h.map

/-- A state that differs in the next address, storage and the model's own bookkeeping alone. -/
theorem keeps_minor (e : Effect) (s : State) (pc : Word) (m : Memory) (d : Nat) (l : StepLog) :
    Keeps e s { s with pc := pc, mem := m, draws := d, log := l } :=
  ⟨fun _ _ => rfl, fun _ _ => rfl, rfl, rfl, rfl, fun _ => rfl, fun _ => rfl, fun _ => rfl, fun _ => rfl, fun _ => rfl,
    fun _ => rfl, fun _ => rfl, rfl, rfl, rfl, rfl, rfl, rfl, rfl⟩

theorem keeps_advance (e : Effect) (s : State) : Keeps e s s.advance := keeps_minor e s _ _ _ _
theorem keeps_setLog (e : Effect) (s : State) (l : StepLog) : Keeps e s (s.setLog l) := keeps_minor e s _ _ _ _
theorem keeps_draws (e : Effect) (s : State) (n : Nat) : Keeps e s { s with draws := n } := keeps_minor e s _ _ _ _
theorem keeps_writeBytes (e : Effect) (s : State) (l : List (BitVec 36 × Byte)) : Keeps e s (s.writeBytes l) :=
  keeps_minor e s _ _ _ _

theorem keeps_setGpr {e : Effect} {r : BitVec 5} (s : State) (v : Word) (h : r ∈ e.gprs) : Keeps e s (s.setGpr r v) where
  gprs q hq := by
    rw [State.getGpr_setGpr, if_neg]
    rintro rfl
    exact hq h
  fprs _ _ := rfl
  cr := rfl
  xer := rfl
  fpscr := rfl
  lr _ := rfl
  ctr _ := rfl
  msr _ := rfl
  cache _ := rfl
  mmu _ := rfl
  hid _ := rfl
  pm _ := rfl
  ctl := rfl
  int := rfl
  sprgs := rfl
  tim := rfl
  dbg := rfl
  env := rfl
  map := rfl

theorem keeps_setFpr {e : Effect} {r : BitVec 5} (s : State) (v : DWord) (h : r ∈ e.fprs) : Keeps e s (s.setFpr r v) where
  gprs _ _ := rfl
  fprs q hq := by
    rw [State.getFpr_setFpr, if_neg]
    rintro rfl
    exact hq h
  cr := rfl
  xer := rfl
  fpscr := rfl
  lr _ := rfl
  ctr _ := rfl
  msr _ := rfl
  cache _ := rfl
  mmu _ := rfl
  hid _ := rfl
  pm _ := rfl
  ctl := rfl
  int := rfl
  sprgs := rfl
  tim := rfl
  dbg := rfl
  env := rfl
  map := rfl

/-- A state that differs in CR, XER and FPSCR alone. -/
theorem keeps_flags {e : Effect} (s : State) {cr xer fpscr : Word} (hc : agreeBut e.cr cr s.cr)
    (hx : agreeBut e.xer xer s.xer) (hf : agreeBut e.fpscr fpscr s.fpscr) :
    Keeps e s { s with cr := cr, xer := xer, fpscr := fpscr } where
  gprs _ _ := rfl
  fprs _ _ := rfl
  cr := hc
  xer := hx
  fpscr := hf
  lr _ := rfl
  ctr _ := rfl
  msr _ := rfl
  cache _ := rfl
  mmu _ := rfl
  hid _ := rfl
  pm _ := rfl
  ctl := rfl
  int := rfl
  sprgs := rfl
  tim := rfl
  dbg := rfl
  env := rfl
  map := rfl

theorem keeps_setCr {e : Effect} (s : State) {cr : Word} (h : agreeBut e.cr cr s.cr) : Keeps e s (s.setCr cr) :=
  keeps_flags s h rfl rfl
theorem keeps_setXer {e : Effect} (s : State) {xer : Word} (h : agreeBut e.xer xer s.xer) : Keeps e s (s.setXer xer) :=
  keeps_flags s rfl h rfl
theorem keeps_setFpscr {e : Effect} (s : State) {f : Word} (h : agreeBut e.fpscr f s.fpscr) :
    Keeps e s (s.setFpscr f) := keeps_flags s rfl rfl h

/-- A state that differs in whole registers and groups that the effect names. -/
theorem keeps_groups {e : Effect} (s : State) {lr ctr msr : Word} {c : Cache} {m : Mmu} {h : Hidden} {p : PerfMon}
    (hl : e.lr = true ∨ lr = s.lr) (hr : e.ctr = true ∨ ctr = s.ctr) (hm : e.msr = true ∨ msr = s.msr)
    (hc : e.cache = true ∨ c = s.cache) (hu : e.mmu = true ∨ m = s.mmu) (hh : e.hid = true ∨ h = s.hid)
    (hp : e.pm = true ∨ p = s.pm) :
    Keeps e s { s with lr := lr, ctr := ctr, msr := msr, cache := c, mmu := m, hid := h, pm := p } where
  gprs _ _ := rfl
  fprs _ _ := rfl
  cr := rfl
  xer := rfl
  fpscr := rfl
  lr q := hl.resolve_left (by simp [q])
  ctr q := hr.resolve_left (by simp [q])
  msr q := hm.resolve_left (by simp [q])
  cache q := hc.resolve_left (by simp [q])
  mmu q := hu.resolve_left (by simp [q])
  hid q := hh.resolve_left (by simp [q])
  pm q := hp.resolve_left (by simp [q])
  ctl := rfl
  int := rfl
  sprgs := rfl
  tim := rfl
  dbg := rfl
  env := rfl
  map := rfl

theorem keeps_cache {e : Effect} (s : State) (c : Cache) (h : e.cache = true) : Keeps e s { s with cache := c } :=
  keeps_groups s (.inr rfl) (.inr rfl) (.inr rfl) (.inl h) (.inr rfl) (.inr rfl) (.inr rfl)
theorem keeps_mmu {e : Effect} (s : State) (m : Mmu) (h : e.mmu = true) : Keeps e s { s with mmu := m } :=
  keeps_groups s (.inr rfl) (.inr rfl) (.inr rfl) (.inr rfl) (.inl h) (.inr rfl) (.inr rfl)
theorem keeps_hid {e : Effect} (s : State) (x : Hidden) (h : e.hid = true) : Keeps e s { s with hid := x } :=
  keeps_groups s (.inr rfl) (.inr rfl) (.inr rfl) (.inr rfl) (.inr rfl) (.inl h) (.inr rfl)

/-- Storage that is the same list of cells reads the same. -/
theorem storageKept_of_mem {s t : State} (but : List (BitVec 36)) (h : t.mem = s.mem) : StorageKept but s t := by
  intro a _
  unfold State.readByte
  rw [h]

/-- An instruction whose meaning ends in completing a state. -/
theorem does_finish {i : Instr} {s t : State} {e : Effect} {but : List (BitVec 36)} {p : State → Prop}
    (h : exec i s = t.finish) (hpc : t.pc = s.pc) (hk : Keeps e s t) (hs : StorageKept but s t) (hp : p t.advance) :
    Does i s e but p :=
  ⟨t.advance, h, congrArg (· + 4) hpc, hk.trans (keeps_advance e t), hs, hp⟩

/-- An instruction that takes an interrupt and does nothing else. -/
theorem enters_of_takeHere {i : Instr} {s t : State} {k : IntKind} {esr dear : Option Word}
    (h : exec i s = .next (t.takeHere k esr dear)) (ht : t = { s with draws := t.draws, log := t.log }) :
    Enters i s k false s.pc esr dear := by
  refine ⟨(t.takeHere k esr dear).log, t.draws, h.trans ?_⟩
  rw [ht]
  rfl

theorem enters_illegal {i : Instr} {s : State} (h : exec i s = s.illegal) :
    Enters i s .program false s.pc (some 0x08000000) none := enters_of_takeHere (t := s) h rfl
theorem enters_privileged {i : Instr} {s : State} (h : exec i s = s.privileged) :
    Enters i s .program false s.pc (some 0x04000000) none := enters_of_takeHere (t := s) h rfl
theorem enters_hvPrivilege {i : Instr} {s : State} (h : exec i s = s.hvPrivilege) :
    Enters i s .hvPrivilege false s.pc none none := enters_of_takeHere (t := s) h rfl
theorem enters_fpUnavailable {i : Instr} {s : State} (h : exec i s = s.fpUnavailable) :
    Enters i s .fpUnavailable false s.pc none none := enters_of_takeHere (t := s) h rfl

/-! ### The privilege tests -/

theorem supervisorOnly_ok {s : State} (h : bit s.msr 49 = false) (o : Out) : s.supervisorOnly o = o := by
  unfold State.supervisorOnly State.pr
  rw [h]
  rfl
theorem supervisorOnly_user {s : State} (h : bit s.msr 49 = true) (o : Out) : s.supervisorOnly o = s.privileged := by
  unfold State.supervisorOnly State.pr
  rw [h]
  rfl
theorem hypervisorOnly_ok {s : State} (h : InHypervisor s) (o : Out) : s.hypervisorOnly o = o := by
  unfold State.hypervisorOnly State.pr State.gs
  rw [h.1, h.2]
  rfl
theorem hypervisorOnly_user {s : State} (h : bit s.msr 49 = true) (o : Out) : s.hypervisorOnly o = s.privileged := by
  unfold State.hypervisorOnly State.pr
  rw [h]
  rfl
theorem hypervisorOnly_guest {s : State} (h : bit s.msr 49 = false) (g : bit s.msr 35 = true) (o : Out) :
    s.hypervisorOnly o = s.hvPrivilege := by
  unfold State.hypervisorOnly State.pr State.gs
  rw [h, g]
  rfl
theorem needFp_ok {s : State} (h : bit s.msr 50 = true) (o : Out) : s.needFp o = o := by
  unfold State.needFp State.fpOn
  rw [h]
  rfl
theorem needFp_off {s : State} (h : bit s.msr 50 = false) (o : Out) : s.needFp o = s.fpUnavailable := by
  unfold State.needFp State.fpOn
  rw [h]
  rfl

end Sys2Proof.Machine
end

