-- ==== Sys2Proof/Laws/Memory.lean ====
section
/-! SUPPORT. Storage: a read after a write, and every operation keeps the canonical form. -/

namespace Sys2Proof.Machine

/-! ### Cells -/

/-- Below the first cell nothing is listed. -/
theorem Memory.lookup_below (l : List Host.Cell) (a : Nat) (h : ∀ c ∈ l, a < c.1) :
    Memory.lookup l a = Memory.unwritten := by
  induction l with
  | nil => rfl
  | cons c rest ih =>
    have hc := h c (by simp)
    rw [Memory.lookup, if_neg (by omega)]
    exact ih fun x hx => h x (by simp [hx])

/-- A read after an insertion gives the inserted byte at its address and the old one elsewhere. -/
theorem Memory.lookup_insert (l : List Host.Cell) (a b : Nat) (v : Byte) (h : l.Pairwise fun x y => x.1 < y.1) :
    Memory.lookup (Memory.insert l a v) b = if b = a then v else Memory.lookup l b := by
  induction l with
  | nil =>
    rw [Memory.insert]
    split <;> simp_all [Memory.lookup]
  | cons c rest ih =>
    obtain ⟨x, w⟩ := c
    rw [List.pairwise_cons] at h
    obtain ⟨hx, hrest⟩ := h
    rw [Memory.insert]
    split
    · have hbelow : Memory.lookup ((x, w) :: rest) a = Memory.unwritten :=
        Memory.lookup_below _ _ fun c hc => by
          rcases List.mem_cons.mp hc with rfl | hc
          · assumption
          · exact Nat.lt_trans ‹_› (hx c hc)
      split
      · split
        · subst_vars; exact hbelow
        · rfl
      · rfl
    · split
      · have e : a = x := ‹_›
        subst e
        have hbelow : Memory.lookup rest a = Memory.unwritten := Memory.lookup_below _ _ hx
        split
        · split
          · subst_vars; exact hbelow
          · rw [Memory.lookup, if_neg ‹_›]
        · simp only [Memory.lookup]
          split <;> rfl
      · simp only [Memory.lookup]
        rw [ih hrest]
        split <;> split <;> first | rfl | omega

/-- An inserted list holds the new cell and cells of the old list only. -/
theorem Memory.mem_insert (l : List Host.Cell) (a : Nat) (v : Byte) (c : Host.Cell) (h : c ∈ Memory.insert l a v) :
    c ∈ l ∨ (c = (a, v) ∧ v ≠ Memory.unwritten) := by
  induction l with
  | nil =>
    rw [Memory.insert] at h
    split at h <;> simp_all
  | cons d rest ih =>
    obtain ⟨x, w⟩ := d
    rw [Memory.insert] at h
    split at h
    · split at h <;> simp_all <;> tauto
    · split at h
      · split at h <;> simp_all <;> tauto
      · rcases List.mem_cons.mp h with rfl | h
        · simp
        · rcases ih h with h | h
          · simp [h]
          · exact .inr h

/-- Insertion keeps the addresses strictly rising. -/
theorem Memory.insert_pairwise (l : List Host.Cell) (a : Nat) (v : Byte) (h : l.Pairwise fun x y => x.1 < y.1) :
    (Memory.insert l a v).Pairwise fun x y => x.1 < y.1 := by
  induction l with
  | nil =>
    rw [Memory.insert]
    split <;> simp
  | cons c rest ih =>
    obtain ⟨x, w⟩ := c
    have h' := h
    rw [List.pairwise_cons] at h'
    obtain ⟨hx, hrest⟩ := h'
    rw [Memory.insert]
    split
    · split
      · exact h
      · rw [List.pairwise_cons]
        refine ⟨fun c hc => ?_, h⟩
        rcases List.mem_cons.mp hc with rfl | hc
        · assumption
        · exact Nat.lt_trans ‹_› (hx c hc)
    · split
      · subst_vars
        split
        · exact hrest
        · rw [List.pairwise_cons]
          exact ⟨hx, hrest⟩
      · rw [List.pairwise_cons]
        refine ⟨fun c hc => ?_, ih hrest⟩
        rcases Memory.mem_insert rest a v c hc with hc | ⟨rfl, -⟩
        · exact hx c hc
        · show x < a
          omega

/-! ### Storage -/

/-- A write keeps the canonical form. -/
theorem Memory.write_wf {m : Memory} (h : m.wf) (a : Nat) (v : Byte) : (m.write a v).wf :=
  ⟨Memory.insert_pairwise m.cells a v h.1, fun c hc => by
    rcases Memory.mem_insert m.cells a v c hc with hc | ⟨rfl, hv⟩
    · exact h.2 c hc
    · exact hv⟩

/-- A read after a write. -/
theorem Memory.read_write {m : Memory} (h : m.wf) (a b : Nat) (v : Byte) :
    (m.write a v).read b = if b = a then v else m.read b := Memory.lookup_insert m.cells a b v h.1

/-- A write of several bytes keeps the canonical form. -/
theorem Memory.writeList_wf (l : List (BitVec 36 × Byte)) {m : Memory} (h : m.wf) : (m.writeList l).wf := by
  induction l generalizing m with
  | nil => exact h
  | cons c rest ih => exact ih (Memory.write_wf h _ _)

/-- A write of several bytes leaves every other byte as it is. -/
theorem Memory.read_writeList_other (l : List (BitVec 36 × Byte)) {m : Memory} (h : m.wf) (a : BitVec 36)
    (ha : a ∉ l.map Prod.fst) : (m.writeList l).read a.toNat = m.read a.toNat := by
  induction l generalizing m with
  | nil => rfl
  | cons c rest ih =>
    rw [List.map_cons, List.mem_cons, not_or] at ha
    show ((m.write c.1.toNat c.2).writeList rest).read a.toNat = _
    rw [ih (Memory.write_wf h _ _) ha.2, Memory.read_write h, if_neg]
    exact fun e => ha.1 (BitVec.eq_of_toNat_eq e)

/-- A byte written, at an address named once, reads back. -/
theorem Memory.read_writeList_mem (l : List (BitVec 36 × Byte)) {m : Memory} (h : m.wf)
    (hn : (l.map Prod.fst).Nodup) (a : BitVec 36) (v : Byte) (ha : (a, v) ∈ l) :
    (m.writeList l).read a.toNat = v := by
  induction l generalizing m with
  | nil => simp at ha
  | cons c rest ih =>
    rw [List.map_cons, List.nodup_cons] at hn
    show ((m.write c.1.toNat c.2).writeList rest).read a.toNat = _
    rcases List.mem_cons.mp ha with rfl | ha
    · rw [Memory.read_writeList_other rest (Memory.write_wf h _ _) a hn.1, Memory.read_write h, if_pos rfl]
    · exact ih (Memory.write_wf h _ _) hn.2 ha

/-- The storage after reset is in canonical form. -/
theorem Memory.reset_wf : State.reset.mem.wf := ⟨List.Pairwise.nil, by intro c hc; cases hc⟩

end Sys2Proof.Machine
end

