-- ==== Sys2Proof/Laws/Mmu.lean ====
section
/-! SUPPORT. The MMU in the terms of the claims: which places match an address, and when one alone does; what the TLB
instructions write to an entry and show of one; the contexts of accesses and what a TLB error leaves. -/

namespace Sys2Proof.Machine

/-! ### Pages -/

/-- The bytes of a page are a power of two. -/
theorem pageBytes_eq (l : TlbLoc) (e : TlbEntry) : pageBytes l e = 2 ^ (10 + 2 * e.sizeCode l) := by
  cases l with
  | tlb0 set way => rfl
  | tlb1 n =>
    show (if _ then _ else _) = 2 ^ (10 + 2 * (if _ then _ else _))
    split
    · rw [pow_add, pow_mul]
      norm_num
    · rfl

/-- The page size code is between 4 Kbytes and 4 Gbytes. -/
theorem sizeCode_bounds (l : TlbLoc) (e : TlbEntry) : 1 ≤ e.sizeCode l ∧ e.sizeCode l ≤ 11 := by
  unfold TlbEntry.sizeCode
  split
  · omega
  · split <;> omega

/-- A word cut off below bit k. -/
theorem and_not_mask (x : Word) {k : Nat} (hk : k ≤ 32) :
    (x &&& ~~~BitVec.ofNat 32 (2 ^ k - 1)).toNat = x.toNat / 2 ^ k * 2 ^ k := by
  apply Nat.eq_of_testBit_eq
  intro i
  simp only [BitVec.toNat_and, BitVec.toNat_not, BitVec.toNat_ofNat, Nat.testBit_and, Nat.testBit_mul_two_pow,
    Nat.testBit_div_two_pow]
  have hm : (2 ^ k - 1) % 2 ^ 32 = 2 ^ k - 1 :=
    Nat.mod_eq_of_lt (lt_of_lt_of_le (Nat.sub_lt (by positivity) one_pos) (Nat.pow_le_pow_right (by norm_num) hk))
  have hlt : 2 ^ k - 1 < 2 ^ 32 :=
    lt_of_lt_of_le (Nat.sub_lt (by positivity) one_pos) (Nat.pow_le_pow_right (by norm_num) hk)
  rw [hm, show 2 ^ 32 - 1 - (2 ^ k - 1) = 2 ^ 32 - (2 ^ k - 1 + 1) by omega, Nat.testBit_two_pow_sub_succ hlt,
    Nat.testBit_two_pow_sub_one]
  by_cases h : i < 32
  · by_cases g : k ≤ i
    · simp [h, g, show i - k + k = i by omega, Nat.not_lt.2 g]
    · simp [g, Nat.lt_of_not_le g]
  · have : x.toNat.testBit i = false := BitVec.getLsbD_of_ge x i (Nat.le_of_not_lt h)
    by_cases g : k ≤ i
    · simp [g, show i - k + k = i by omega, this]
    · simp [g, Nat.lt_of_not_le g]

/-- A word cut off above bit k. -/
theorem and_mask (x : Word) {k : Nat} (hk : k ≤ 32) :
    (x &&& BitVec.ofNat 32 (2 ^ k - 1)).toNat = x.toNat % 2 ^ k := by
  have hlt : 2 ^ k - 1 < 2 ^ 32 :=
    lt_of_lt_of_le (Nat.sub_lt (by positivity) one_pos) (Nat.pow_le_pow_right (by norm_num) hk)
  rw [BitVec.toNat_and, BitVec.toNat_ofNat, Nat.mod_eq_of_lt hlt, Nat.and_two_pow_sub_one_eq_mod]

/-- The page compare of an entry, as a compare of page numbers. -/
theorem covers_iff (l : TlbLoc) (e : TlbEntry) (ea : Word) : e.covers l ea = true ↔ pageHolds l e ea := by
  have hk : 10 + 2 * e.sizeCode l ≤ 32 := by
    have := (sizeCode_bounds l e).2
    omega
  unfold TlbEntry.covers pageHolds TlbEntry.offMask
  rw [beq_iff_eq, ← BitVec.toNat_inj, and_not_mask _ hk, and_not_mask _ hk, pageBytes_eq]
  have he : (e.epn ++ (0 : BitVec 12)).toNat = e.epn.toNat * 4096 := by
    rw [BitVec.toNat_append, Nat.shiftLeft_eq]
    exact Nat.or_zero _
  rw [he]
  constructor
  · intro h
    exact (Nat.eq_of_mul_eq_mul_right (by positivity) h).symm
  · intro h
    rw [h]

/-! ### Matches -/

/-- The places that are looked at for an address. -/
theorem mem_tlbCandidates (l : TlbLoc) (ea : Word) : l ∈ tlbCandidates ea ↔ candidateFor l ea := by
  unfold tlbCandidates candidateFor tlbSet
  have hset : ∀ set : BitVec 7, ea.extractLsb' 12 7 = set ↔ set.toNat = ea.toNat / 4096 % 128 := by
    intro set
    rw [← BitVec.toNat_inj, BitVec.extractLsb'_toNat, Nat.shiftRight_eq_div_pow]
    norm_num
    omega
  cases l with
  | tlb0 set way =>
    simp only [List.mem_append, List.mem_map, List.mem_range, TlbLoc.tlb0.injEq, reduceCtorEq, and_false, exists_false,
      or_false]
    constructor
    · rintro ⟨_, _, h, _⟩
      exact (hset set).1 h
    · intro h
      exact ⟨way.toNat, way.isLt, (hset set).2 h, by simp⟩
  | tlb1 n =>
    simp only [List.mem_append, List.mem_map, List.mem_range, TlbLoc.tlb1.injEq, reduceCtorEq, and_false, exists_false,
      false_or, iff_true]
    exact ⟨n.toNat, n.isLt, by simp⟩

/-- No place is looked at twice. -/
theorem nodup_tlbCandidates (ea : Word) : (tlbCandidates ea).Nodup := by
  unfold tlbCandidates
  rw [List.nodup_append]
  refine ⟨?_, ?_, ?_⟩
  · refine List.Nodup.map_on ?_ List.nodup_range
    intro a ha b hb h
    simp only [TlbLoc.tlb0.injEq, true_and] at h
    have := congrArg BitVec.toNat h
    simp at ha hb this
    omega
  · refine List.Nodup.map_on ?_ List.nodup_range
    intro a ha b hb h
    simp only [TlbLoc.tlb1.injEq] at h
    have := congrArg BitVec.toNat h
    simp at ha hb this
    omega
  · intro a ha b hb
    simp only [List.mem_map] at ha hb
    obtain ⟨_, _, rfl⟩ := ha
    obtain ⟨_, _, rfl⟩ := hb
    exact TlbLoc.noConfusion

/-- The places that match. -/
theorem mem_matches (m : Mmu) (c : Ctx) (ea : Word) (l : TlbLoc) : l ∈ m.matches c ea ↔ entryMatches m c ea l := by
  unfold Mmu.matches entryMatches TlbEntry.hits
  rw [List.mem_filter, mem_tlbCandidates]
  simp only [Bool.and_eq_true, beq_iff_eq, Bool.or_eq_true, covers_iff]
  tauto

/-- No place matches. -/
theorem matches_eq_nil {m : Mmu} {c : Ctx} {ea : Word} : m.matches c ea = [] ↔ ∀ l, ¬entryMatches m c ea l := by
  simp only [List.eq_nil_iff_forall_not_mem, mem_matches]

/-- One place matches. -/
theorem matches_eq_singleton {m : Mmu} {c : Ctx} {ea : Word} {l : TlbLoc} (h : entryMatches m c ea l)
    (g : ∀ k, entryMatches m c ea k → k = l) : m.matches c ea = [l] := by
  have hn : (m.matches c ea).Nodup := (nodup_tlbCandidates ea).filter _
  have hl := (mem_matches m c ea l).2 h
  have hg : ∀ k ∈ m.matches c ea, k = l := fun k hk => g k ((mem_matches m c ea k).1 hk)
  generalize m.matches c ea = x at hn hl hg
  match x, hn, hl, hg with
  | [k], _, _, hg => rw [hg k (by simp)]
  | j :: k :: r, hn, _, hg =>
    rw [hg j (by simp), hg k (by simp)] at hn
    simp at hn

/-- Two places match. -/
theorem matches_of_two {m : Mmu} {c : Ctx} {ea : Word} {k l : TlbLoc} (hne : k ≠ l) (h : entryMatches m c ea k)
    (g : entryMatches m c ea l) : ∃ a b r, m.matches c ea = a :: b :: r := by
  have hk := (mem_matches m c ea k).2 h
  have hl := (mem_matches m c ea l).2 g
  match hx : m.matches c ea with
  | [] => simp [hx] at hk
  | [a] =>
    rw [hx] at hk hl
    simp only [List.mem_singleton] at hk hl
    exact absurd (hk.trans hl.symm) hne
  | a :: b :: r => exact ⟨a, b, r, rfl⟩

/-! ### Real addresses -/

/-- The real address that a matching entry gives: its page, and the offset of the address. -/
theorem realAddr_eq (l : TlbLoc) (e : TlbEntry) (ea : Word) :
    e.realAddr l ea =
      BitVec.ofNat 36 (e.rpn.toNat * 4096 / pageBytes l e * pageBytes l e + ea.toNat % pageBytes l e) := by
  have hk : 10 + 2 * e.sizeCode l ≤ 32 := by
    have := (sizeCode_bounds l e).2
    omega
  unfold TlbEntry.realAddr TlbEntry.offMask
  rw [pageBytes_eq]
  generalize 10 + 2 * e.sizeCode l = k at hk
  have hlt : 2 ^ k - 1 < 2 ^ 32 :=
    lt_of_lt_of_le (Nat.sub_lt (by positivity) one_pos) (Nat.pow_le_pow_right (by norm_num) hk)
  have he : (e.rpn ++ (0 : BitVec 12)).toNat = e.rpn.toNat * 4096 := by
    rw [BitVec.toNat_append, Nat.shiftLeft_eq]
    exact Nat.or_zero _
  have hr := e.rpn.isLt
  have hlow : ea.toNat % 2 ^ k < 2 ^ k := Nat.mod_lt _ (by positivity)
  have hhigh : e.rpn.toNat * 4096 / 2 ^ k * 2 ^ k ≤ e.rpn.toNat * 4096 := Nat.div_mul_le_self _ _
  apply BitVec.eq_of_toNat_eq
  rw [BitVec.toNat_or, BitVec.toNat_setWidth, and_mask ea hk, BitVec.toNat_ofNat]
  have hm : ((e.rpn ++ (0 : BitVec 12)) &&& ~~~(BitVec.ofNat 32 (2 ^ k - 1)).setWidth 36).toNat =
      e.rpn.toNat * 4096 / 2 ^ k * 2 ^ k := by
    have hw : (BitVec.ofNat 32 (2 ^ k - 1)).setWidth 36 = BitVec.ofNat 36 (2 ^ k - 1) := by
      apply BitVec.eq_of_toNat_eq
      rw [BitVec.toNat_setWidth, BitVec.toNat_ofNat, BitVec.toNat_ofNat, Nat.mod_eq_of_lt hlt]
    rw [hw, BitVec.toNat_and, he, BitVec.toNat_not, BitVec.toNat_ofNat,
      Nat.mod_eq_of_lt (lt_trans hlt (by norm_num))]
    apply Nat.eq_of_testBit_eq
    intro i
    rw [Nat.testBit_and, Nat.testBit_mul_two_pow, Nat.testBit_div_two_pow,
      show 2 ^ 36 - 1 - (2 ^ k - 1) = 2 ^ 36 - (2 ^ k - 1 + 1) by omega,
      Nat.testBit_two_pow_sub_succ (lt_trans hlt (by norm_num)), Nat.testBit_two_pow_sub_one]
    by_cases h : i < 36
    · by_cases g : k ≤ i
      · simp [h, g, show i - k + k = i by omega, Nat.not_lt.2 g]
      · simp [g, Nat.lt_of_not_le g]
    · have : (e.rpn.toNat * 4096).testBit i = false := by
        apply Nat.testBit_lt_two_pow
        calc e.rpn.toNat * 4096 < 2 ^ 36 := by omega
          _ ≤ 2 ^ i := Nat.pow_le_pow_right (by norm_num) (Nat.le_of_not_lt h)
      by_cases g : k ≤ i
      · simp [g, show i - k + k = i by omega, this]
      · simp [g, Nat.lt_of_not_le g]
  have hor : e.rpn.toNat * 4096 / 2 ^ k * 2 ^ k ||| ea.toNat % 2 ^ k =
      e.rpn.toNat * 4096 / 2 ^ k * 2 ^ k + ea.toNat % 2 ^ k := by
    rw [Nat.mul_comm, Nat.two_pow_add_eq_or_of_lt hlow]
  have hlow36 : ea.toNat % 2 ^ k < 2 ^ 36 := lt_of_le_of_lt (Nat.mod_le _ _) (by have := ea.isLt; omega)
  rw [Nat.mod_eq_of_lt hlow36]
  refine (congrArg (· ||| ea.toNat % 2 ^ k) hm).trans (hor.trans ?_)
  have hlt36 : e.rpn.toNat * 4096 / 2 ^ k * 2 ^ k + ea.toNat % 2 ^ k < 2 ^ 36 := by
    rw [← hor]
    exact Nat.or_lt_two_pow (by omega) hlow36
  exact (Nat.mod_eq_of_lt hlt36).symm

/-! ### Addresses of one page -/

/-- Two addresses with the same 4-Kbyte page number are of one page, however large it is. -/
theorem div_pageBytes (l : TlbLoc) (e : TlbEntry) (a : Nat) :
    a / pageBytes l e = a / 4096 / (pageBytes l e / 4096) ∧ pageBytes l e / 4096 * 4096 = pageBytes l e ∧
      pageBytes l e ≤ 2 ^ 32 := by
  have hb := sizeCode_bounds l e
  rw [pageBytes_eq]
  obtain ⟨j, hj⟩ : ∃ j, 10 + 2 * e.sizeCode l = 12 + j := ⟨2 * e.sizeCode l - 2, by omega⟩
  have h : (2 : Nat) ^ (12 + j) / 4096 = 2 ^ j := by
    rw [pow_add, show (2 : Nat) ^ 12 = 4096 from rfl, Nat.mul_div_cancel_left _ (by norm_num)]
  rw [hj, h, Nat.div_div_eq_div_mul, pow_add]
  refine ⟨rfl, by ring, ?_⟩
  rw [← pow_add]
  exact Nat.pow_le_pow_right (by norm_num) (by omega)

/-- The same places match, in the same order. -/
theorem matches_congr {m : Mmu} {c : Ctx} {ea eb : Word} (h : eb.toNat / 4096 = ea.toNat / 4096) :
    m.matches c eb = m.matches c ea := by
  have hs : tlbSet eb = tlbSet ea := by
    unfold tlbSet
    rw [← BitVec.toNat_inj, BitVec.extractLsb'_toNat, BitVec.extractLsb'_toNat, Nat.shiftRight_eq_div_pow,
      Nat.shiftRight_eq_div_pow, show (2 : Nat) ^ 12 = 4096 from rfl, h]
  unfold Mmu.matches tlbCandidates
  rw [hs]
  refine List.filter_congr fun l _ => ?_
  have : (m.entry l).covers l eb = (m.entry l).covers l ea := by
    rw [Bool.eq_iff_iff, covers_iff, covers_iff]
    unfold pageHolds
    rw [(div_pageBytes l (m.entry l) eb.toNat).1, (div_pageBytes l (m.entry l) ea.toNat).1, h]
  unfold TlbEntry.hits
  rw [this]

/-- The real address keeps the offset in the 4-Kbyte page, and the rest of it is the page's. -/
theorem realAddr_split (l : TlbLoc) (e : TlbEntry) (ea : Word) :
    ∃ q, (e.realAddr l ea).toNat = q * 4096 + ea.toNat % 4096 ∧
      ∀ eb : Word, eb.toNat / 4096 = ea.toNat / 4096 → (e.realAddr l eb).toNat = q * 4096 + eb.toNat % 4096 := by
  obtain ⟨-, hp, hle⟩ := div_pageBytes l e ea.toNat
  have key : ∀ x : Word, (e.realAddr l x).toNat =
      e.rpn.toNat * 4096 / pageBytes l e * pageBytes l e + x.toNat % pageBytes l e := by
    intro x
    rw [realAddr_eq, BitVec.toNat_ofNat]
    apply Nat.mod_eq_of_lt
    have hr := e.rpn.isLt
    have hx : x.toNat % pageBytes l e < pageBytes l e := Nat.mod_lt _ (by rw [pageBytes_eq]; positivity)
    obtain ⟨j, hj⟩ : ∃ j, pageBytes l e = 2 ^ j ∧ j ≤ 36 := by
      refine ⟨_, pageBytes_eq l e, ?_⟩
      have := (sizeCode_bounds l e).2
      omega
    have hd : e.rpn.toNat * 4096 / pageBytes l e < 2 ^ (36 - j) := by
      rw [hj.1, Nat.div_lt_iff_lt_mul (by positivity), ← pow_add, show 36 - j + j = 36 by omega]
      omega
    calc _ < (e.rpn.toNat * 4096 / pageBytes l e + 1) * pageBytes l e := by
            rw [Nat.add_mul]
            omega
      _ ≤ 2 ^ (36 - j) * 2 ^ j := by
            rw [hj.1]
            rw [hj.1] at hd
            exact Nat.mul_le_mul_right _ hd
      _ = 2 ^ 36 := by rw [← pow_add, show 36 - j + j = 36 by omega]
  generalize hm : pageBytes l e / 4096 = k at hp
  have hk : ∀ x : Nat, x % pageBytes l e = x / 4096 % k * 4096 + x % 4096 := by
    intro x
    rw [← hp, Nat.mul_comm k, Nat.mod_mul]
    ring
  refine ⟨e.rpn.toNat * 4096 / pageBytes l e * k + ea.toNat / 4096 % k, ?_, ?_⟩
  · rw [key, hk, Nat.add_mul, Nat.mul_assoc, hp]
    ring
  · intro eb hb
    rw [key, hk, hb, Nat.add_mul, Nat.mul_assoc, hp]
    ring

/-- A translation that succeeds, and that of another address of the same 4-Kbyte page. -/
theorem translate_page {m : Mmu} {c : Ctx} {k : AccessKind} {ea : Word} {x : Xlated}
    (h : m.translate c k ea = .ok x) :
    ∃ q, x.ra.toNat = q * 4096 + ea.toNat % 4096 ∧
      ∀ eb : Word, eb.toNat / 4096 = ea.toNat / 4096 →
        ∃ y, m.translate c k eb = .ok y ∧ y.ra.toNat = q * 4096 + eb.toNat % 4096 ∧ y.wimge = x.wimge := by
  unfold Mmu.translate at h
  match hm : m.matches c ea with
  | [] => simp [hm] at h
  | _ :: _ :: _ => simp [hm] at h
  | [l] =>
    simp only [hm] at h
    split at h
    · cases h
    · rename_i hv
      split at h
      · rename_i hp
        cases h
        obtain ⟨q, hq, hb⟩ := realAddr_split l (m.entry l) ea
        refine ⟨q, hq, fun eb he => ⟨⟨(m.entry l).realAddr l eb, (m.entry l).wimge⟩, ?_, hb eb he, rfl⟩⟩
        unfold Mmu.translate
        rw [matches_congr he, hm]
        simp only
        rw [if_neg hv, if_pos hp]
      · cases h

/-- The permission bit of an access. -/
theorem permits_eq (e : TlbEntry) (k : AccessKind) (pr : Bool) : e.permits k pr = permitted e k pr := by
  cases k <;> cases pr <;> rfl

/-! ### The TLB instructions (21 R348, R349; 13 R244) -/

/-- A field of a word as a number. -/
theorem extract_eq_ofNat (w : Word) (a n : Nat) : w.extractLsb' a n = BitVec.ofNat n (w.toNat / 2 ^ a) := by
  apply BitVec.eq_of_toNat_eq
  simp [BitVec.extractLsb'_toNat, Nat.shiftRight_eq_div_pow]

/-- Low bits of a word as a number. -/
theorem setWidth_eq_ofNat (w : Word) (n : Nat) : w.setWidth n = BitVec.ofNat n w.toNat := by
  apply BitVec.eq_of_toNat_eq
  simp

/-- The place that the model's operations select is the one that MAS0 and MAS2 name. -/
theorem selected_eq (m : Mmu) : m.selected = chosenEntry m := by
  unfold Mmu.selected chosenEntry tlbSet
  simp only [extract_eq_ofNat]
  rfl

/-- Two fields beside one another are a number. -/
theorem append_toNat {k n : Nat} (a : BitVec k) (b : BitVec n) : (a ++ b).toNat = a.toNat * 2 ^ n + b.toNat := by
  rw [BitVec.toNat_append, ← Nat.shiftLeft_add_eq_or_of_lt b.isLt, Nat.shiftLeft_eq]

/-- The entry that tlbwe writes is the one that the MAS registers describe. -/
theorem entryFromMas_eq (m : Mmu) : m.entryFromMas = describedEntry m := by
  have hs : (m.mas1.extractLsb' 8 4).toNat = m.mas1.toNat / 256 % 16 := by
    rw [extract_eq_ofNat, BitVec.toNat_ofNat]
    norm_num
  have hr : (m.mas7.setWidth 4 ++ m.mas3.extractLsb' 12 20 : BitVec 24) =
      BitVec.ofNat 24 (m.mas7.toNat % 16 * 2 ^ 20 + m.mas3.toNat / 4096) := by
    apply BitVec.eq_of_toNat_eq
    have h3 := m.mas3.isLt
    rw [append_toNat, extract_eq_ofNat, BitVec.toNat_ofNat, BitVec.toNat_ofNat, BitVec.toNat_setWidth]
    omega
  have ht : (if (bit m.mas0 35 && decide (1 ≤ (m.mas1.extractLsb' 8 4).toNat) &&
        decide ((m.mas1.extractLsb' 8 4).toNat ≤ 11)) = true then m.mas1.extractLsb' 8 4 else 1) =
      if bit m.mas0 35 = true ∧ 1 ≤ m.mas1.toNat / 256 % 16 ∧ m.mas1.toNat / 256 % 16 ≤ 11 then
        BitVec.ofNat 4 (m.mas1.toNat / 256 % 16) else 1 := by
    have he : m.mas1.extractLsb' 8 4 = BitVec.ofNat 4 (m.mas1.toNat / 256 % 16) := by
      rw [← hs, BitVec.ofNat_toNat]
      simp
    simp only [Bool.and_eq_true, decide_eq_true_eq, and_assoc, hs]
    rw [he]
  unfold Mmu.entryFromMas describedEntry
  rw [hr, ht]
  simp only [extract_eq_ofNat, setWidth_eq_ofNat]
  rfl

/-- Replacing an entry replaces it and no other. -/
theorem entry_setEntry (m : Mmu) (k l : TlbLoc) (e : TlbEntry) :
    (m.setEntry l e).entry k = if k = l then e else m.entry k := by
  cases l with
  | tlb1 n =>
    cases k with
    | tlb0 set way => rfl
    | tlb1 q =>
      show (m.tlb1.set n.toNat e n.isLt)[q.toNat] = _
      rw [Vector.getElem_set]
      simp only [TlbLoc.tlb1.injEq, ← BitVec.toNat_inj, eq_comm (a := n.toNat)]
      rfl
  | tlb0 set way =>
    cases k with
    | tlb1 q => rfl
    | tlb0 set' way' =>
      show (m.tlb0.set (set ++ way).toNat e (set ++ way).isLt)[(set' ++ way').toNat] = _
      rw [Vector.getElem_set]
      have h := way.isLt
      have h' := way'.isLt
      have key : (set ++ way).toNat = (set' ++ way').toNat ↔ TlbLoc.tlb0 set' way' = TlbLoc.tlb0 set way := by
        rw [append_toNat, append_toNat, TlbLoc.tlb0.injEq, ← BitVec.toNat_inj, ← BitVec.toNat_inj]
        omega
      simp only [key]
      rfl

/-- A field below the others adds to them. -/
theorem or_toNat {a b : Word} (k : Nat) (ha : a.toNat % 2 ^ k = 0) (hb : b.toNat < 2 ^ k) :
    (a ||| b).toNat = a.toNat + b.toNat := by
  obtain ⟨c, hc⟩ := Nat.dvd_of_mod_eq_zero ha
  rw [BitVec.toNat_or, hc, Nat.mul_comm, ← Nat.shiftLeft_eq, Nat.shiftLeft_add_eq_or_of_lt hb]

theorem maskIf_toNat (c : Bool) (w : Word) : (maskIf c w).toNat = c.toNat * w.toNat := by
  cases c <;> simp [maskIf]

theorem field_toNat {n : Nat} (x : BitVec n) (k : Nat) (h : n + k ≤ 32) :
    (x.setWidth 32 <<< k).toNat = x.toNat * 2 ^ k := by
  have hx := x.isLt
  have h1 : x.toNat * 2 ^ k < 2 ^ 32 :=
    calc x.toNat * 2 ^ k < 2 ^ n * 2 ^ k := Nat.mul_lt_mul_of_pos_right hx (by positivity)
      _ = 2 ^ (n + k) := (pow_add 2 n k).symm
      _ ≤ 2 ^ 32 := Nat.pow_le_pow_right (by decide) h
  have h2 : x.toNat < 2 ^ 32 := lt_of_le_of_lt (Nat.le_mul_of_pos_right _ (by positivity)) h1
  rw [BitVec.toNat_shiftLeft, BitVec.toNat_setWidth, Nat.shiftLeft_eq, Nat.mod_eq_of_lt h2, Nat.mod_eq_of_lt h1]

/-- MAS1 as a number. -/
theorem mas1Of_toNat (v iprot : Bool) (tid : BitVec 8) (ts : Bool) (tsize : BitVec 4) :
    (mas1Of v iprot tid ts tsize).toNat =
      v.toNat * 2 ^ 31 + iprot.toNat * 2 ^ 30 + tid.toNat * 2 ^ 16 + ts.toNat * 2 ^ 12 + tsize.toNat * 2 ^ 8 := by
  have h1 := tid.isLt
  have h2 := tsize.isLt
  have hv := v.toNat_lt
  have hi := iprot.toNat_lt
  have ht := ts.toNat_lt
  have e1 : (maskIf v 0x80000000).toNat = v.toNat * 2 ^ 31 := maskIf_toNat _ _
  have e2 : (maskIf iprot 0x40000000).toNat = iprot.toNat * 2 ^ 30 := maskIf_toNat _ _
  have e3 : (maskIf ts 0x00001000).toNat = ts.toNat * 2 ^ 12 := maskIf_toNat _ _
  have e4 := field_toNat tid 16 (by decide)
  have e5 := field_toNat tsize 8 (by decide)
  have a1 := or_toNat (a := maskIf v 0x80000000) (b := maskIf iprot 0x40000000) 31 (by omega) (by omega)
  have a2 := or_toNat (b := tid.setWidth 32 <<< 16) 30 (by rw [a1]; omega) (by omega)
  have a3 := or_toNat (b := maskIf ts 0x00001000) 16 (by rw [a2, a1]; omega) (by omega)
  have a4 := or_toNat (b := tsize.setWidth 32 <<< 8) 12 (by rw [a3, a2, a1]; omega) (by omega)
  unfold mas1Of
  omega

/-- MAS0 as a number. -/
theorem mas0Of_toNat (tlbsel : Bool) (esel : BitVec 6) (nv : BitVec 2) :
    (mas0Of tlbsel esel nv).toNat = tlbsel.toNat * 2 ^ 28 + esel.toNat * 2 ^ 16 + nv.toNat := by
  have h1 := esel.isLt
  have h2 := nv.isLt
  have hv := tlbsel.toNat_lt
  have e1 : (maskIf tlbsel 0x10000000).toNat = tlbsel.toNat * 2 ^ 28 := maskIf_toNat _ _
  have e2 := field_toNat esel 16 (by decide)
  have e3 : (nv.setWidth 32).toNat = nv.toNat := by rw [BitVec.toNat_setWidth]; omega
  have a1 := or_toNat (a := maskIf tlbsel 0x10000000) (b := esel.setWidth 32 <<< 16) 28 (by omega) (by omega)
  have a2 := or_toNat (b := nv.setWidth 32) 16 (by rw [a1]; omega) (by omega)
  unfold mas0Of
  omega

/-- MAS2 and MAS3 as numbers: a page number, a middle field and a low field. -/
theorem masPage_toNat {m k : Nat} (page : BitVec 20) (x : BitVec m) (y : BitVec k) (h : m + k ≤ 12) :
    ((page.setWidth 32 <<< 12) ||| (x.setWidth 32 <<< k) ||| y.setWidth 32 : Word).toNat =
      page.toNat * 2 ^ 12 + x.toNat * 2 ^ k + y.toNat := by
  have e1 := field_toNat page 12 (by decide)
  have e2 := field_toNat x k (by omega)
  have e3 : (y.setWidth 32).toNat = y.toNat := by
    rw [BitVec.toNat_setWidth]
    exact Nat.mod_eq_of_lt (lt_of_lt_of_le y.isLt (Nat.pow_le_pow_right (by decide) (by omega)))
  have hx : x.toNat * 2 ^ k < 2 ^ 12 :=
    calc x.toNat * 2 ^ k < 2 ^ m * 2 ^ k := Nat.mul_lt_mul_of_pos_right x.isLt (by positivity)
      _ = 2 ^ (m + k) := (pow_add 2 m k).symm
      _ ≤ 2 ^ 12 := Nat.pow_le_pow_right (by decide) h
  have a1 := or_toNat (a := page.setWidth 32 <<< 12) (b := x.setWidth 32 <<< k) 12 (by rw [e1]; simp) (by rw [e2]; exact hx)
  have a2 := or_toNat (a := (page.setWidth 32 <<< 12) ||| (x.setWidth 32 <<< k)) (b := y.setWidth 32) k
    (by
      have hk : 2 ^ k ∣ 2 ^ 12 := Nat.pow_dvd_pow 2 (by omega)
      rw [a1, e1, e2]
      exact Nat.mod_eq_zero_of_dvd (dvd_add (hk.mul_left _) (Dvd.intro_left _ rfl)))
    (by rw [e3]; exact y.isLt)
  rw [a2, a1, e1, e2, e3]

/-- MAS8 as a number. -/
theorem mas8_toNat (tgs vf : Bool) (tlpid : BitVec 6) :
    (maskIf tgs 0x80000000 ||| maskIf vf 0x40000000 ||| tlpid.setWidth 32 : Word).toNat =
      tgs.toNat * 2 ^ 31 + vf.toNat * 2 ^ 30 + tlpid.toNat := by
  have hl := tlpid.isLt
  have hg := tgs.toNat_lt
  have hf := vf.toNat_lt
  have e1 : (maskIf tgs 0x80000000).toNat = tgs.toNat * 2 ^ 31 := maskIf_toNat _ _
  have e2 : (maskIf vf 0x40000000).toNat = vf.toNat * 2 ^ 30 := maskIf_toNat _ _
  have e3 : (tlpid.setWidth 32).toNat = tlpid.toNat := by rw [BitVec.toNat_setWidth]; omega
  have a1 := or_toNat (a := maskIf tgs 0x80000000) (b := maskIf vf 0x40000000) 31 (by omega) (by omega)
  have a2 := or_toNat (b := tlpid.setWidth 32) 30 (by rw [a1]; omega) (by omega)
  omega

/-- The page number that an entry reads back with. -/
theorem epnRead_toNat (l : TlbLoc) (e : TlbEntry) :
    (e.epnRead l).toNat =
      match l with
      | .tlb0 set _ => e.epn.toNat / 128 * 128 + set.toNat
      | .tlb1 _ => e.epn.toNat := by
  cases l with
  | tlb1 n => rfl
  | tlb0 set way =>
    have he := e.epn.isLt
    unfold TlbEntry.epnRead
    simp only
    rw [append_toNat, BitVec.extractLsb'_toNat, Nat.shiftRight_eq_div_pow]
    omega

/-- What tlbre and tlbsx load into the MAS registers shows the entry. -/
theorem masFromEntry_shows (s : State) (l : TlbLoc) : ShowsEntry s l (s.masFromEntry l) := by
  refine ⟨?_, ?_, ?_, ?_, ?_⟩
  · cases l with
    | tlb0 set way =>
      refine (mas1Of_toNat _ false _ _ 1).trans ?_
      simp
    | tlb1 n =>
      refine (mas1Of_toNat _ _ _ _ _).trans ?_
      simp only
      omega
  · refine (masPage_toNat _ _ _ (by decide)).trans ?_
    rw [epnRead_toNat]
    rfl
  · refine (masPage_toNat _ _ _ (by decide)).trans ?_
    rw [BitVec.toNat_setWidth]
    rfl
  · show s.updatedMas7 _ = _
    unfold State.updatedMas7
    congr 1
    have hr := (s.mmu.entry l).rpn.isLt
    apply BitVec.eq_of_toNat_eq
    rw [BitVec.toNat_setWidth, BitVec.extractLsb'_toNat, Nat.shiftRight_eq_div_pow, BitVec.toNat_ofNat]
    omega
  · exact mas8_toNat _ _ _

/-! ### Contexts and TLB errors (21 R331; 13 R244 column a) -/

/-- A fetch is made in the running context. -/
theorem fetchCtx_eq (s : State) : s.fetchCtx = runningContext s (bit s.msr 58) := by
  unfold State.fetchCtx runningContext
  rw [setWidth_eq_ofNat, setWidth_eq_ofNat]
  rfl

/-- A data access is made in its context. -/
theorem dataCtx_eq (s : State) (p : PidContext) : s.dataCtx p = accessContext s p := by
  cases p
  · unfold State.dataCtx
    simp only [fetchCtx_eq]
    rfl
  all_goals
    unfold State.dataCtx extCtx accessContext externalContext
    simp only [setWidth_eq_ofNat, extract_eq_ofNat]

/-- A TLB error loads the MAS registers and changes nothing else. -/
theorem loadMasOnMiss_eq (s : State) (g : Bool) (c : Ctx) (ea : Word) :
    s.loadMasOnMiss g c ea = { s with mmu := missedMmu s g c ea } := by
  unfold State.loadMasOnMiss missedMmu
  by_cases h : g = false ∧ bit s.ctl.epcr 41 = true
  · rw [if_pos (by simp [h.1, h.2])]
    simp only [if_pos h]
  · rw [if_neg (by simpa using h)]
    simp only [if_neg h]
    congr 1
    unfold State.missTemplate State.victimMas0 State.updatedMas7
    have hp := c.pid.isLt
    have ha := c.as.toNat_lt
    congr 1
    · apply BitVec.eq_of_toNat_eq
      split
      · rfl
      · have hn := (s.mmu.nextVictim (tlbSet ea)).isLt
        have hset : s.mmu.nextVictim (tlbSet ea) = s.mmu.nv[ea.toNat / 4096 % 128]'(Nat.mod_lt _ (by decide)) := by
          unfold Mmu.nextVictim tlbSet
          congr 1
          rw [BitVec.extractLsb'_toNat, Nat.shiftRight_eq_div_pow]
        rw [mas0Of_toNat, BitVec.toNat_ofNat, BitVec.toNat_setWidth, BitVec.toNat_add, ← hset]
        have h1 : (1 : BitVec 2).toNat = 1 := rfl
        rw [h1, Bool.toNat_false, Nat.mod_eq_of_lt (by omega : (s.mmu.nextVictim (tlbSet ea)).toNat < 2 ^ 6)]
        exact (Nat.zero_add _).symm ▸ (Nat.mod_eq_of_lt (by omega)).symm
    · apply BitVec.eq_of_toNat_eq
      have hm : (BitVec.setWidth 32 (s.mmu.mas4.extractLsb' 8 4) <<< 8 : Word) = s.mmu.mas4 &&& 0xF00 := by
        apply BitVec.eq_of_getLsbD_eq
        intro i hi
        simp only [BitVec.getLsbD_and, BitVec.getLsbD_shiftLeft, BitVec.getLsbD_setWidth, BitVec.getLsbD_extractLsb']
        interval_cases i <;> simp
      have e1 : (maskIf true 0x80000000 ||| maskIf false 0x40000000 ||| (c.pid.setWidth 32 <<< 16) |||
          maskIf c.as 0x00001000 : Word) = BitVec.ofNat 32 (2 ^ 31 + c.pid.toNat * 2 ^ 16 + c.as.toNat * 2 ^ 12) := by
        apply BitVec.eq_of_toNat_eq
        have e := mas1Of_toNat true false c.pid c.as 0
        have hz : ((0 : BitVec 4).setWidth 32 <<< 8 : Word) = 0#32 := rfl
        have h0 : (0 : BitVec 4).toNat = 0 := rfl
        unfold mas1Of at e
        rw [hz, BitVec.or_zero, h0, Bool.toNat_true, Bool.toNat_false] at e
        rw [e, BitVec.toNat_ofNat]
        omega
      unfold mas1Of
      rw [e1, hm]
    · apply BitVec.eq_of_toNat_eq
      have e := or_toNat (a := c.pid.setWidth 32 <<< 16) (b := maskIf c.as 1) 16
        (by rw [field_toNat _ _ (by decide)]; omega) (by rw [maskIf_toNat]; simp; omega)
      rw [e, field_toNat _ _ (by decide), maskIf_toNat, BitVec.toNat_ofNat]
      simp
      omega

/-- The entries after the next-victim numbers became free are the entries before. -/
theorem entry_freeNv (s : State) (l : TlbLoc) : s.freeNv.mmu.entry l = s.mmu.entry l := by
  cases l <;> rfl

/-- All of MAS0 but NV stays when the next-victim numbers become free. -/
theorem freeNv_mas0 (s : State) : s.freeNv.mmu.mas0 &&& 0xFFFFFFFC = s.mmu.mas0 &&& 0xFFFFFFFC := by
  show ((s.mmu.mas0 &&& 0xFFFFFFFC) ||| (s.drawVictim.1).setWidth 32) &&& 0xFFFFFFFC = _
  have key : ∀ v : BitVec 2, v.setWidth 32 &&& (0xFFFFFFFC : Word) = 0 := by decide
  rw [BitVec.and_or_distrib_right, BitVec.and_assoc, key]
  simp

end Sys2Proof.Machine
end

