-- ==== Sys2Proof/Laws/Access.lean ====
section
/-! SUPPORT. Data accesses: the number that bytes in storage hold, what an access that goes through reads and leaves, and
how one that fails ends its instruction. -/

namespace Sys2Proof.Machine

/-! ### Bytes and numbers (20 R281) -/

/-- The number of a list of bytes, most significant first, and one byte more. -/
theorem bytesToNat_append (l : List Byte) (b : Byte) : bytesToNat (l ++ [b]) = bytesToNat l * 256 + b.toNat := by
  unfold bytesToNat
  rw [List.foldl_append]
  rfl

/-- The number of n bytes is below 256 ^ n. -/
theorem bytesToNat_lt (l : List Byte) : bytesToNat l < 256 ^ l.length := by
  induction l using List.reverseRecOn with
  | nil => exact Nat.one_pos
  | append_singleton l b ih =>
    rw [bytesToNat_append, List.length_append, List.length_singleton, pow_succ]
    have := b.isLt
    omega

/-- Each byte is a digit of the number. -/
theorem bytesToNat_digit (l : List Byte) (i : Nat) (h : i < l.length) :
    (l[i]).toNat = bytesToNat l / 256 ^ (l.length - 1 - i) % 256 := by
  induction l using List.reverseRecOn with
  | nil => exact absurd h (Nat.not_lt_zero i)
  | append_singleton l b ih =>
    rw [bytesToNat_append]
    have hb := b.isLt
    rw [List.length_append, List.length_singleton] at h ⊢
    by_cases hi : i < l.length
    · rw [List.getElem_append_left hi, ih hi, show l.length + 1 - 1 - i = (l.length - 1 - i) + 1 by omega, pow_succ,
        Nat.mul_comm (256 ^ _) 256, ← Nat.div_div_eq_div_mul]
      congr 2
      omega
    · have : i = l.length := by omega
      subst this
      simp
      omega

/-- A low digit is a digit of the number modulo a higher power. -/
theorem digit_mod (v k n : Nat) (h : k < n) : v / 256 ^ k % 256 = v % 256 ^ n / 256 ^ k % 256 := by
  obtain ⟨m, rfl⟩ : ∃ m, n = k + 1 + m := ⟨n - (k + 1), by omega⟩
  have h1 : 256 ^ (k + 1 + m) = 256 ^ k * (256 * 256 ^ m) := by ring
  rw [h1, Nat.mod_mul_right_div_self, Nat.mod_mul_right_mod]

/-- The bytes of a number, by place. -/
theorem natToBytes_getElem (n v i : Nat) (h : i < (natToBytes n v).length) :
    (natToBytes n v)[i].toNat = v / 256 ^ (n - 1 - i) % 256 := by
  simp [natToBytes]

theorem length_natToBytes (n v : Nat) : (natToBytes n v).length = n := by
  unfold natToBytes
  simp

theorem length_byteOrder {α : Type} (e : Bool) (l : List α) : (byteOrder e l).length = l.length := by
  cases e <;> simp [byteOrder]

/-- The bytes of a number in either order, by place. -/
theorem byteOrder_getElem (e : Bool) (n v i : Nat) (h : i < (byteOrder e (natToBytes n v)).length) :
    (byteOrder e (natToBytes n v))[i].toNat = v / 256 ^ (if e then i else n - 1 - i) % 256 := by
  have hi : i < n := by rwa [length_byteOrder, length_natToBytes] at h
  cases e
  · simp only [byteOrder, Bool.false_eq_true, if_false]
    exact natToBytes_getElem n v i _
  · simp only [byteOrder, if_true, List.getElem_reverse, length_natToBytes]
    rw [natToBytes_getElem, show n - 1 - (n - 1 - i) = i by omega]

/-- What an access reads is what its bytes hold. -/
theorem holds_readPlaced (s : State) (p : Placed) : Holds s p (s.readPlaced p) := by
  unfold State.readPlaced
  have hl : (byteOrder p.e (p.bytes.map s.readByte)).length = p.bytes.length := by
    rw [length_byteOrder, List.length_map]
  constructor
  · have := bytesToNat_lt (byteOrder p.e (p.bytes.map s.readByte))
    rwa [hl] at this
  · intro i hi
    cases he : p.e
    · have := bytesToNat_digit (byteOrder false (p.bytes.map s.readByte)) i (by simpa [byteOrder] using hi)
      simpa [byteOrder] using this
    · have := bytesToNat_digit (byteOrder true (p.bytes.map s.readByte)) (p.bytes.length - 1 - i)
        (by simp [byteOrder]; omega)
      simp only [byteOrder, if_true, List.length_reverse, List.length_map, List.getElem_reverse, List.getElem_map] at this
      simp only [show p.bytes.length - 1 - (p.bytes.length - 1 - i) = i by omega] at this
      simpa [byteOrder] using this

/-- The number that bytes hold is one number. -/
theorem holds_unique {s : State} {p : Placed} {v w : Nat} (h : Holds s p v) (g : Holds s p w) : v = w := by
  obtain ⟨hv, hd⟩ := h
  obtain ⟨gv, gd⟩ := g
  have key : ∀ k, k ≤ p.bytes.length → v % 256 ^ k = w % 256 ^ k := by
    intro k
    induction k with
    | zero => intro _; simp [Nat.mod_one]
    | succ k ih =>
      intro hk
      rw [pow_succ, Nat.mod_mul, Nat.mod_mul, ih (by omega)]
      have h1 := hd (if p.e then k else p.bytes.length - 1 - k) (by split <;> omega)
      have h2 := gd (if p.e then k else p.bytes.length - 1 - k) (by split <;> omega)
      have h3 := h1.symm.trans h2
      have hx : (if p.e then (if p.e then k else p.bytes.length - 1 - k)
          else p.bytes.length - 1 - (if p.e then k else p.bytes.length - 1 - k)) = k := by
        cases p.e
        · simp
          omega
        · simp
      rw [hx] at h3
      rw [h3]
  have := key p.bytes.length le_rfl
  rwa [Nat.mod_eq_of_lt hv, Nat.mod_eq_of_lt gv] at this

/-- So the number read is the number held. -/
theorem readPlaced_of_holds {s : State} {p : Placed} {v : Nat} (h : Holds s p v) : s.readPlaced p = v :=
  holds_unique (holds_readPlaced s p) h

/-- The cells of a store, each place once. -/
theorem map_fst_cells (p : Placed) (v : Nat) : (p.cells v).map Prod.fst = p.bytes := by
  unfold Placed.cells
  rw [List.map_fst_zip]
  rw [length_byteOrder, length_natToBytes]

/-- After a store to bytes that lie apart they hold the low bytes of the number. -/
theorem holds_writeBytes {s t : State} {p : Placed} {v : Nat} (hw : s.mem.wf) (hn : p.bytes.Nodup)
    (ht : t.mem = (s.writeBytes (p.cells v)).mem) : Holds t p (v % 256 ^ p.bytes.length) := by
  constructor
  · exact Nat.mod_lt _ (by positivity)
  · intro i hi
    have hlen : (byteOrder p.e (natToBytes p.bytes.length v)).length = p.bytes.length := by
      rw [length_byteOrder, length_natToBytes]
    have hc : (p.bytes[i], (byteOrder p.e (natToBytes p.bytes.length v))[i]'(by rw [hlen]; exact hi)) ∈ p.cells v := by
      unfold Placed.cells
      rw [List.mem_iff_getElem]
      exact ⟨i, by simp [hlen, hi], by simp⟩
    have hr : t.readByte p.bytes[i] = (byteOrder p.e (natToBytes p.bytes.length v))[i]'(by rw [hlen]; exact hi) := by
      unfold State.readByte
      rw [ht]
      exact Memory.read_writeList_mem _ hw (by rw [map_fst_cells]; exact hn) _ _ hc
    rw [hr]
    rw [byteOrder_getElem]
    exact digit_mod v _ _ (by split <;> omega)

/-- A store changes no byte but its own. -/
theorem storageKept_writeBytes {s t : State} {p : Placed} {v : Nat} (hw : s.mem.wf)
    (ht : t.mem = (s.writeBytes (p.cells v)).mem) : StorageKept p.bytes s t := by
  intro a ha
  unfold State.readByte
  rw [ht]
  exact Memory.read_writeList_other _ hw a (by rw [map_fst_cells]; exact ha)

/-! ### What lies at an address (20 R280) -/

/-- All of a list of addresses is storage exactly if each of them is. -/
theorem regionOf_eq_none {s : State} {l : List (BitVec 36)} :
    s.regionOf l = none ↔ ∀ a ∈ l, s.regionAt a = none := by
  unfold State.regionOf
  constructor
  · intro h a ha
    split at h
    · cases h
    · rename_i h1
      split at h
      · cases h
      · rename_i h2
        rcases hr : s.regionAt a with _ | k
        · rfl
        · cases k
          · exact absurd (List.any_eq_true.2 ⟨a, ha, by rw [hr]; rfl⟩) h2
          · exact absurd (List.any_eq_true.2 ⟨a, ha, by rw [hr]; rfl⟩) h1
  · intro h
    rw [if_neg, if_neg]
    · rw [List.any_eq_true]
      rintro ⟨a, ha, hr⟩
      rw [h a ha] at hr
      cases hr
    · rw [List.any_eq_true]
      rintro ⟨a, ha, hr⟩
      rw [h a ha] at hr
      cases hr

/-- A load of storage reads its bytes and changes nothing. -/
theorem loadPlaced_storage {s : State} {p : Placed} (h : s.regionOf p.bytes = none) (dec : Option (BitVec 4)) :
    s.loadPlaced dec p = (s.readPlaced p, s) := by
  unfold State.loadPlaced
  rw [if_pos h]

/-- A store to storage writes its bytes and nothing else. -/
theorem storePlaced_storage {s : State} {p : Placed} (h : s.regionOf p.bytes = none) (dec : Option (BitVec 4)) (v : Nat) :
    s.storePlaced dec p v = s.writeBytes (p.cells v) := by
  unfold State.storePlaced
  rw [if_pos h]

/-- Accesses handed to devices change the record of them alone: those that reach one are added in their order. -/
theorem noteDevices_eq (l : List DeviceAccess) (s : State) :
    s.noteDevices l = s.setLog { s.log with devices := s.log.devices ++ l.filter (·.addrs ≠ []) } := by
  unfold State.noteDevices
  generalize l.filter (·.addrs ≠ []) = m
  induction m generalizing s with
  | nil =>
    rw [List.append_nil]
    rfl
  | cons d m ih =>
    rw [List.foldl_cons, ih, ← List.singleton_append, ← List.append_assoc]
    rfl

/-- A load changes the record of device accesses and takes free values; nothing else changes, whatever it reads. -/
theorem loadPlaced_state (s : State) (dec : Option (BitVec 4)) (p : Placed) :
    (s.loadPlaced dec p).2 = { s with log := (s.loadPlaced dec p).2.log, draws := (s.loadPlaced dec p).2.draws } := by
  unfold State.loadPlaced
  split
  · rfl
  · unfold State.readDevice
    rw [noteDevices_eq]
    rfl

/-- A load that reaches a device hands it each part of the access that does: its bytes, and the decoration if the page of
the part is caching-inhibited. -/
theorem loadPlaced_device {s : State} {p : Placed} (h : s.regionOf p.bytes ≠ none) (dec : Option (BitVec 4)) :
    (s.loadPlaced dec p).2.log.devices = s.log.devices ++
      ((p.parts p.bytes).map fun x =>
        ({ op := .read, addrs := x.1.filter (s.regionAt · = some .device), data := [],
           decoration := carried dec x.2 } : DeviceAccess)).filter (·.addrs ≠ []) := by
  unfold State.loadPlaced State.readDevice
  rw [if_neg h, noteDevices_eq, List.map_map]
  rfl

/-- MCSR[BSL2_ERR] is not set while the L2 cache is disabled (11 R136). -/
theorem busErrorBit_disabled {s : State} (h : bit s.cache.l2csr0 32 = false) : s.busErrorBit = 0 := by
  unfold State.busErrorBit
  rw [h]
  rfl

/-- With the L2 cache enabled and no error type disabled it is. -/
theorem busErrorBit_enabled {s : State} (h : bit s.cache.l2csr0 32 = true) (hd : s.cache.l2errdis = 0) :
    s.busErrorBit = 1 := by
  unfold State.busErrorBit Cache.busErrorDisabled
  rw [h, hd]
  rfl

/-- No access that reaches storage alone ends in an error report. -/
theorem answered_storage {s : State} {p : Placed} (h : s.regionOf p.bytes = none) (a : Access) :
    s.answered a p = .ok p s := by
  unfold State.answered
  rw [h]
  rfl

/-- A store writes storage at its own bytes, and otherwise changes the record and MCSR alone (20 R280). -/
theorem storePlaced_state (s : State) (dec : Option (BitVec 4)) (p : Placed) (v : Nat) :
    s.storePlaced dec p v =
      { s with
        mem := (s.storePlaced dec p v).mem
        int := { s.int with mcsr := (s.storePlaced dec p v).int.mcsr }
        log := (s.storePlaced dec p v).log } := by
  unfold State.storePlaced
  split
  · rfl
  · unfold State.writeDevice
    simp only [noteDevices_eq]
    split <;> rfl

/-- No byte of storage changes but those of the store, whatever lies there. -/
theorem storePlaced_kept {s : State} (hw : s.mem.wf) (dec : Option (BitVec 4)) (p : Placed) (v : Nat) :
    StorageKept p.bytes s (s.storePlaced dec p v) := by
  have key : ∀ l : List (BitVec 36 × Byte), (∀ x ∈ l, x.1 ∈ p.bytes) → ∀ t : State,
      t.mem = (s.writeBytes l).mem → StorageKept p.bytes s t := by
    intro l hl t ht a ha
    unfold State.readByte
    rw [ht]
    refine Memory.read_writeList_other _ hw a fun h => ha ?_
    obtain ⟨x, hx, rfl⟩ := List.mem_map.1 h
    exact hl x hx
  have cells : ∀ x ∈ p.cells v, x.1 ∈ p.bytes := fun x hx => by
    rw [← map_fst_cells p v]
    exact List.mem_map_of_mem hx
  unfold State.storePlaced
  split
  · exact key _ cells _ rfl
  · refine key ((p.cells v).filter fun x => s.regionAt x.1 = none) (fun x hx => cells x (List.mem_of_mem_filter hx)) _ ?_
    unfold State.writeDevice
    simp only [noteDevices_eq]
    split <;> rfl

/-! ### Accesses that go through -/

/-- Recording DAC conditions changes the model's record alone. -/
theorem State.noteParts_eq (s : State) (w : Bool) (ea : Word) (n : Nat) :
    s.noteParts w ea n = s.setLog (s.noteParts w ea n).log := by
  unfold State.noteParts
  split <;> rfl

/-- An access that goes through answers the place and changes the model's record alone. -/
theorem access_of_reaches {s : State} {a : Access} {ea : Word} {n : Nat} {p : Placed} (h : Reaches s a ea n p) :
    ∃ l, s.access a ea n = .ok p (s.setLog l) := by
  refine ⟨(s.noteParts a.dacWrite ea n).log, ?_⟩
  have hans : (s.setLog (s.noteParts a.dacWrite ea n).log).answered a p =
      .ok p (s.setLog (s.noteParts a.dacWrite ea n).log) :=
    answered_storage (s := s.setLog (s.noteParts a.dacWrite ea n).log) h.storage a
  have hdbg : ∀ l, (s.setLog l).debugAction ((s.setLog l).partEvents a.dacWrite ea n) (s.setLog l).de = .ignore :=
    fun l => h.quiet
  unfold State.access State.reach
  rw [h.placed]
  simp only [Res.bind]
  rw [State.noteParts_eq, hans]
  simp only [State.debugBefore, hdbg]
  rfl

/-! ### Accesses that fail -/

/-- An access that is not placed ends the instruction; besides that its DAC conditions are recorded. -/
theorem reach_fails {s : State} {a : Access} {ea fea : Word} {n : Nat} {f : AccessFail}
    (h : s.place a ea n = .error (f, fea)) :
    s.reach a ea n = .done ((s.setLog (s.noteParts a.dacWrite ea n).log).accessFails a f fea) := by
  unfold State.reach
  rw [h, ← State.noteParts_eq]

/-- MCSR after a multiple hit that records its address. -/
theorem mcsr_withAddress (a r : Word) :
    ((a ||| 0x08000000) &&& 0xFFFBFFFF) ||| 0x00080000 ||| 0x00040000 ||| r = a ||| 0x08000000 ||| r ||| 0x000C0000 := by
  apply BitVec.eq_of_getLsbD_eq
  intro i hi
  simp only [BitVec.getLsbD_or, BitVec.getLsbD_and]
  interval_cases i <;> simp

/-- A multiple hit with detection on is the error report that it describes. -/
theorem multipleHit_eq {u : State} {report ea : Word} (hd : bit u.ctl.hid0 33 = true) :
    u.multipleHit report ea = .next (hitReported u report ea) := by
  unfold State.multipleHit State.errorReport hitReported
  rw [if_pos hd]
  refine congrArg Host.Outcome.next ?_
  have hz : u.msr &&& (0 : Word) = 0 := BitVec.and_zero
  have ho (a : Word) : a ||| (0 : Word) = a := BitVec.or_zero
  unfold State.logMachineCheck
  cases hm : bit u.int.mcsr 44
  · simp only [Bool.false_eq_true, if_false, State.takeHere, State.takeInterrupt, IntKind.savePair, IntRegs.save,
      IntRegs.syndrome, keepMask, maskIf, if_true, mcsr_withAddress, Option.getD_none, hz]
    rfl
  · simp only [if_true, State.takeHere, State.takeInterrupt, IntKind.savePair, IntRegs.save, IntRegs.syndrome,
      keepMask, Option.getD_none, hz, ho]
    rfl

/-- A data storage interrupt from a state, the model's own bookkeeping apart. -/
theorem entersFrom_dataStorage {i : Instr} {s u : State} {esr ea : Word} {vf : Bool} {l : StepLog} {d : Nat}
    (h : exec i s = .next (({ u with log := l, draws := d } : State).dataStorage esr ea vf)) :
    EntersFrom i s u u.mmu .dataStorage (bit u.msr 35 && bit u.ctl.epcr 35 && !vf) esr ea :=
  ⟨{ l with interrupts := .dataStorage :: l.interrupts }, d, h⟩

/-- An access that fails ends the instruction as its reason says, from the state it was made in; the model's own
bookkeeping apart. -/
theorem fails_of_accessFails {i : Instr} {s u : State} {a : Access} {f : AccessFail} {ea : Word} {l : StepLog} {d : Nat}
    (h : exec i s = ({ u with log := l, draws := d } : State).accessFails a f ea) : Fails i s u a f ea := by
  cases f with
  | byteOrder => simpa [Fails] using entersFrom_dataStorage h
  | storageSync => simpa [Fails] using entersFrom_dataStorage h
  | alignment => exact ⟨{ l with interrupts := .alignment :: l.interrupts }, d, h⟩
  | xlate x =>
    cases x with
    | denied => simpa [Fails] using entersFrom_dataStorage h
    | virtualization => simpa [Fails] using entersFrom_dataStorage h
    | miss =>
      refine ⟨{ l with interrupts := .dataTlbError :: l.interrupts }, d, h.trans (congrArg Host.Outcome.next ?_)⟩
      unfold State.dataTlbError
      rw [loadMasOnMiss_eq, ← dataCtx_eq]
      rfl
    | multiple =>
      have hm : exec i s = ({ u with log := l, draws := d } : State).multipleHit (a.report false) ea := h
      have hrep : a.report false = if a.storeReport then 0x4000 else 0x8000 := rfl
      show if bit u.ctl.hid0 33 then _ else _
      split
      · rename_i hd
        rw [← hrep]
        exact ⟨(hitReported { u with log := l, draws := d } (a.report false) ea).log, d,
          hm.trans (multipleHit_eq (u := { u with log := l, draws := d }) hd)⟩
      · rename_i hd
        refine hm.trans ?_
        unfold State.multipleHit
        exact if_neg hd

end Sys2Proof.Machine
end

