-- ==== Sys2Proof/Laws/LoadStore.lean ====
section
/-! SUPPORT. What the shared loads and stores do with an access that goes through, and with one that fails. -/

namespace Sys2Proof.Machine

/-- The byte count of an access that goes through. -/
theorem length_realRange (ra : BitVec 36) (n : Nat) : (realRange ra n).length = n := by
  simp [realRange]

theorem length_place {s : State} {a : Access} {ea : Word} {n : Nat} {p : Placed} (h : s.place a ea n = .ok p) :
    p.bytes.length = n := by
  unfold State.place at h
  split at h
  · cases h
  · rename_i q hq
    have hp : q = p := by
      split at h
      · cases h
      · split at h
        · cases h
        · split at h
          · cases h
          · exact Except.ok.inj h
    subst hp
    unfold State.placeRange at hq
    split at hq
    · cases hq
    · rename_i x hx
      split at hq
      · cases hq
        exact length_realRange _ _
      · simp only at hq
        split at hq
        · cases hq
        · split at hq
          · cases hq
          · cases hq
            simp only [List.length_append, length_realRange]
            unfold inPage
            omega

/-- A load that goes through goes on with the number its bytes hold. -/
theorem load_of_reaches {s : State} {a : Access} {ea : Word} {n : Nat} {p : Placed} (h : Reaches s a ea n p)
    (k : Nat → State → Out) :
    ∃ v l, p.bytes.length = n ∧ Holds s p v ∧ s.load a ea n k = k v (s.setLog l) := by
  obtain ⟨l, hl⟩ := access_of_reaches h
  refine ⟨s.readPlaced p, ((s.setLog l).noteLoads (partCount ea n)).log, length_place h.placed,
    holds_readPlaced s p, ?_⟩
  unfold State.load
  rw [hl]
  simp only [Res.andThen, loadPlaced_storage (s := s.setLog l) h.storage]
  rfl

/-- A store that goes through goes on with its bytes stored. -/
theorem store_of_reaches {s : State} {a : Access} {ea : Word} {n v : Nat} {p : Placed} (h : Reaches s a ea n p)
    (k : State → Out) :
    ∃ l, p.bytes.length = n ∧ s.store a ea n v k = k ((s.writeBytes (p.cells v)).setLog l) := by
  obtain ⟨l, hl⟩ := access_of_reaches h
  have hs : (s.setLog l).storePlaced none p v = (s.setLog l).writeBytes (p.cells v) :=
    storePlaced_storage (s := s.setLog l) h.storage none v
  refine ⟨((s.setLog l).noteStores (partCount ea n)).log, length_place h.placed, ?_⟩
  unfold State.store
  rw [hl]
  simp only [Res.andThen, hs]
  rfl

/-- The bytes of a translated access lie apart. -/
theorem getElem_realRange (ra : BitVec 36) (n k : Nat) (h : k < (realRange ra n).length) :
    (realRange ra n)[k] = ra + BitVec.ofNat 36 k := by
  simp [realRange]

theorem nodup_realRange (ra : BitVec 36) (n : Nat) (h : n ≤ 2 ^ 36) : (realRange ra n).Nodup := by
  unfold realRange
  refine (List.nodup_map_iff_inj_on List.nodup_range).2 ?_
  intro i hi j hj hij
  rw [List.mem_range] at hi hj
  bv_omega

/-- A load into a general-purpose register. -/
theorem loadGpr_of_reaches {i : Instr} {s : State} {a : Access} {ea : Word} {n : Nat} {rD : BitVec 5} {f : Nat → Word}
    (h : exec i s = s.loadGpr a ea n rD f) : LoadsGpr i s a ea n rD f := by
  intro p hp
  obtain ⟨v, l, hn, hv, he⟩ := load_of_reaches hp fun v t => (t.setGpr rD (f v)).finish
  refine ⟨v, hn, hv, does_finish (h.trans he) rfl ?_ (storageKept_of_mem _ rfl) ?_⟩
  · exact (keeps_setLog _ s l).trans (keeps_setGpr _ _ (List.mem_singleton.2 rfl))
  · simp [State.advance, State.goto, State.getGpr, State.setGpr]

/-- A store of a number; its bytes must lie apart. -/
theorem storeValue_of_reaches {i : Instr} {s : State} {a : Access} {ea : Word} {n v : Nat} {p : Placed}
    (h : exec i s = s.storeValue a ea n v) (hw : s.mem.wf) (hn : p.bytes.Nodup) (hp : Reaches s a ea n p) :
    p.bytes.length = n ∧ Does i s {} p.bytes fun t => Holds t p (v % 256 ^ n) := by
  obtain ⟨l, hl, he⟩ := store_of_reaches (v := v) hp State.finish
  refine ⟨hl, does_finish (h.trans he) rfl ?_ (storageKept_writeBytes hw rfl) ?_⟩
  · exact (keeps_writeBytes _ s _).trans (keeps_setLog _ _ l)
  · rw [← hl]
    exact holds_writeBytes hw hn rfl

/-- A store with update. -/
theorem storeUpdate_of_reaches {i : Instr} {s : State} {a : Access} {ea : Word} {n v : Nat} {rA : BitVec 5} {p : Placed}
    (h : exec i s = s.storeUpdate a ea n v rA) (hw : s.mem.wf) (hn : p.bytes.Nodup) (hp : Reaches s a ea n p) :
    p.bytes.length = n ∧ Does i s { gprs := [rA] } p.bytes fun t =>
      Holds t p (v % 256 ^ n) ∧ (rA ≠ 0 → t.getGpr rA = ea) := by
  obtain ⟨l, hl, he⟩ := store_of_reaches (v := v) hp fun t =>
    if rA = 0 then (t.drawWord.2.setGpr rA t.drawWord.1).finish else (t.setGpr rA ea).finish
  refine ⟨hl, ?_⟩
  have hk := (keeps_writeBytes { gprs := [rA] } s (p.cells v)).trans (keeps_setLog _ _ l)
  by_cases h0 : rA = 0
  · rw [if_pos h0] at he
    refine does_finish (h.trans he) rfl ?_ (storageKept_writeBytes hw rfl) ⟨?_, fun q => absurd h0 q⟩
    · exact (hk.trans (keeps_draws _ _ _)).trans (keeps_setGpr _ _ (List.mem_singleton.2 rfl))
    · rw [← hl]
      exact holds_writeBytes hw hn rfl
  · rw [if_neg h0] at he
    refine does_finish (h.trans he) rfl ?_ (storageKept_writeBytes hw rfl) ⟨?_, fun _ => ?_⟩
    · exact hk.trans (keeps_setGpr _ _ (List.mem_singleton.2 rfl))
    · rw [← hl]
      exact holds_writeBytes hw hn rfl
    · exact (State.getGpr_setGpr _ rA rA ea).trans (if_pos rfl)

/-- A load with update. -/
theorem loadGprUpdate_of_reaches {i : Instr} {s : State} {ea : Word} {n : Nat} {rD rA : BitVec 5} {f : Nat → Word}
    (h : exec i s = s.loadGprUpdate ea n rD rA f) : LoadsGprUpdate i s ea n rD rA f := by
  intro p hp
  obtain ⟨v, l, hn, hv, he⟩ := load_of_reaches hp fun v t =>
    if rA = 0 ∨ rA = rD then
      ((t.drawWord.2.drawWord.2.setGpr rA t.drawWord.1).setGpr rD t.drawWord.2.drawWord.1).finish
    else ((t.setGpr rA ea).setGpr rD (f v)).finish
  refine ⟨v, hn, hv, ?_⟩
  have hk := keeps_setLog { gprs := [rD, rA] } s l
  by_cases h0 : rA = 0 ∨ rA = rD
  · rw [if_pos h0] at he
    refine does_finish (h.trans he) rfl ?_ (storageKept_of_mem _ rfl) fun q r => absurd h0 (not_or.2 ⟨q, r⟩)
    exact (((hk.trans (keeps_draws _ _ _)).trans (keeps_draws _ _ _)).trans
      (keeps_setGpr _ _ (List.mem_cons_of_mem _ (List.mem_singleton.2 rfl)))).trans
      (keeps_setGpr _ _ List.mem_cons_self)
  · rw [if_neg h0] at he
    refine does_finish (h.trans he) rfl ?_ (storageKept_of_mem _ rfl) fun q r => ⟨?_, ?_⟩
    · exact (hk.trans (keeps_setGpr _ _ (List.mem_cons_of_mem _ (List.mem_singleton.2 rfl)))).trans
        (keeps_setGpr _ _ List.mem_cons_self)
    · exact (State.getGpr_setGpr _ rD rD _).trans (if_pos rfl)
    · refine (State.getGpr_setGpr _ rD rA _).trans ((if_neg r).trans ?_)
      exact (State.getGpr_setGpr _ rA rA _).trans (if_pos rfl)

/-- A floating-point load, with MSR[FP] = 1. -/
theorem loadFpr_of_reaches {i : Instr} {s : State} {a : Access} {ea : Word} {n : Nat} {frD : BitVec 5} {f : Nat → DWord}
    (h : exec i s = s.loadFpr a ea n frD f) (hfp : bit s.msr 50 = true) : LoadsFpr i s a ea n frD f := by
  intro p hp
  obtain ⟨v, l, hn, hv, he⟩ := load_of_reaches hp fun v t => (t.setFpr frD (f v)).finish
  refine ⟨v, hn, hv, does_finish (h.trans ((needFp_ok hfp _).trans he)) rfl ?_ (storageKept_of_mem _ rfl) ?_⟩
  · exact (keeps_setLog _ s l).trans (keeps_setFpr _ _ (List.mem_singleton.2 rfl))
  · exact (State.getFpr_setFpr _ frD frD _).trans (if_pos rfl)

/-- A floating-point load with update, with MSR[FP] = 1. -/
theorem loadFprUpdate_of_reaches {i : Instr} {s : State} {ea : Word} {n : Nat} {frD rA : BitVec 5} {f : Nat → DWord}
    (h : exec i s = s.loadFprUpdate ea n frD rA f) (hfp : bit s.msr 50 = true) : LoadsFprUpdate i s ea n frD rA f := by
  intro p hp
  obtain ⟨v, l, hn, hv, he⟩ := load_of_reaches hp fun v t =>
    let u := t.setFpr frD (f v)
    if rA = 0 then (u.drawWord.2.setGpr rA u.drawWord.1).finish else (u.setGpr rA ea).finish
  replace he := h.trans ((needFp_ok hfp _).trans he)
  simp only at he
  refine ⟨v, hn, hv, ?_⟩
  have hk := (keeps_setLog { fprs := [frD], gprs := [rA] } s l).trans (keeps_setFpr _ (f v) (List.mem_singleton.2 rfl))
  by_cases h0 : rA = 0
  · rw [if_pos h0] at he
    refine does_finish he rfl ?_ (storageKept_of_mem _ rfl) ⟨?_, fun q => absurd h0 q⟩
    · exact (hk.trans (keeps_draws _ _ _)).trans (keeps_setGpr _ _ (List.mem_singleton.2 rfl))
    · exact (State.getFpr_setFpr _ frD frD _).trans (if_pos rfl)
  · rw [if_neg h0] at he
    refine does_finish he rfl ?_ (storageKept_of_mem _ rfl) ⟨?_, fun _ => ?_⟩
    · exact hk.trans (keeps_setGpr _ _ (List.mem_singleton.2 rfl))
    · exact (State.getFpr_setFpr _ frD frD _).trans (if_pos rfl)
    · exact (State.getGpr_setGpr _ rA rA ea).trans (if_pos rfl)

/-! ### Multiple words -/

/-- A word of lmw or stmw that reaches storage, with no debug event enabled. -/
theorem accessWord_ok {t : State} {a : Access} {first : Bool} {ea : Word} {p : Placed} (hd : DebugOff t)
    (h : t.place { a with aligned := first } ea 4 = .ok p) (hr : t.regionOf p.bytes = none) :
    ∃ l ev, t.accessWord a first ea = .ok (p, ev) (t.setLog l) := by
  obtain ⟨l, hl⟩ : ∃ l, t.noteParts a.dacWrite ea 4 = t.setLog l := ⟨_, State.noteParts_eq t a.dacWrite ea 4⟩
  have hans : (t.setLog l).answered { a with aligned := first } p = .ok p (t.setLog l) :=
    answered_storage (s := t.setLog l) hr _
  have hq : ∀ b d, (t.setLog l).debugAction b d = .ignore := by
    intro b d
    unfold State.debugAction State.edm
    rw [show bit (t.setLog l).dbg.edbcr0 32 = false from hd.1, show bit (t.setLog l).dbg.dbcr0 33 = false from hd.2]
    split
    · rfl
    · split <;> rfl
  refine ⟨l, (t.setLog l).wordEvents a.dacWrite first ea, ?_⟩
  unfold State.accessWord State.reach
  rw [h]
  simp only
  rw [hl, hans]
  simp only [Res.bind]
  rw [hq]

/-- The registers of lmw and stmw from word c on. -/
theorem drop_regsFrom (r : BitVec 5) {c : Nat} (h : r.toNat + c < 32) :
    (regsFrom r).drop c = (r + BitVec.ofNat 5 c) :: (regsFrom r).drop (c + 1) := by
  have hl : (regsFrom r).length = 32 - r.toNat := by simp [regsFrom]
  rw [List.drop_eq_getElem_cons (by rw [hl]; omega)]
  congr 1
  simp [regsFrom]

theorem drop_regsFrom_end (r : BitVec 5) {c : Nat} (h : r.toNat + c = 32) : (regsFrom r).drop c = [] := by
  have hl : (regsFrom r).length = 32 - r.toNat := by simp [regsFrom]
  exact List.drop_eq_nil_of_le (by rw [hl]; omega)

/-- Numbers of different registers. -/
theorem reg_ne {r : BitVec 5} {j k : Nat} (hj : r.toNat + j < 32) (hk : r.toNat + k < 32) (h : j ≠ k) :
    r + BitVec.ofNat 5 j ≠ r + BitVec.ofNat 5 k := by
  intro e
  have := congrArg BitVec.toNat e
  rw [BitVec.toNat_add, BitVec.toNat_add, BitVec.toNat_ofNat, BitVec.toNat_ofNat] at this
  omega

/-- lmw after its first c words, with no debug event enabled: the registers hold them, the base is the one that word c
comes from, and nothing else has changed but the model's own bookkeeping. -/
theorem loadWords_prefix {s : State} (hd : DebugOff s) (rA rD : BitVec 5) (base : Nat → Word) (off : Word)
    (q : Nat → Placed) (d : Nat)
    (hB : ∀ k, base (k + 1) =
      if rD + BitVec.ofNat 5 k = rA ∧ rA ≠ 0 then BitVec.ofNat 32 (s.readPlaced (q k)) else base k)
    (c : Nat) (hc : rD.toNat + c ≤ 32)
    (hp : ∀ k < c, s.place { Access.load with aligned := decide (k = 0) } (base k + (off + BitVec.ofNat 32 (4 * k))) 4 =
      .ok (q k) ∧ s.regionOf (q k).bytes = none) :
    ∃ g l ev,
      ({ s with draws := d } : State).loadWords rA (regsFrom rD) true (base 0) off 0 =
        ({ s with gpr := g, log := l, draws := d } : State).loadWords rA ((regsFrom rD).drop c) (decide (c = 0)) (base c)
          (off + BitVec.ofNat 32 (4 * c)) ev ∧
      (∀ r, (∀ k < c, r ≠ rD + BitVec.ofNat 5 k) → ({ s with gpr := g } : State).getGpr r = s.getGpr r) ∧
      ∀ k < c, ({ s with gpr := g } : State).getGpr (rD + BitVec.ofNat 5 k) = BitVec.ofNat 32 (s.readPlaced (q k)) := by
  induction c with
  | zero => exact ⟨s.gpr, s.log, 0, by simp, fun _ _ => rfl, fun k hk => absurd hk (Nat.not_lt_zero k)⟩
  | succ c ih =>
    obtain ⟨g, l, ev, he, hk, hv⟩ := ih (by omega) fun k hk => hp k (by omega)
    obtain ⟨pl, rg⟩ := hp c (by omega)
    let t : State := { s with gpr := g, log := l, draws := d }
    obtain ⟨l', ev', ha⟩ := accessWord_ok (t := t) (a := .load) (first := decide (c = 0)) hd pl rg
    let v : Word := BitVec.ofNat 32 (s.readPlaced (q c))
    let u : State := ((t.setLog l').setGpr (rD + BitVec.ofNat 5 c) v).noteLoads 1
    refine ⟨u.gpr, u.log, ev ||| ev', ?_, ?_, ?_⟩
    · rw [he, drop_regsFrom rD (by omega), State.loadWords]
      rw [show t.accessWord .load (decide (c = 0)) (base c + (off + BitVec.ofNat 32 (4 * c))) = _ from ha]
      have hs : (t.setLog l').loadPlaced none (q c) = (s.readPlaced (q c), t.setLog l') :=
        loadPlaced_storage (s := t.setLog l') rg none
      simp only [Res.andThen, hs]
      rw [hB c, show decide (c + 1 = 0) = false from rfl,
        show off + BitVec.ofNat 32 (4 * (c + 1)) = off + BitVec.ofNat 32 (4 * c) + 4 by bv_omega]
      rfl
    · intro r hr
      have h1 := hk r fun k h => hr k (by omega)
      rw [← h1]
      exact (State.getGpr_setGpr (t.setLog l') (rD + BitVec.ofNat 5 c) r v).trans
        (if_neg fun e => hr c (by omega) e)
    · intro k hkc
      by_cases hkc' : k = c
      · subst hkc'
        exact (State.getGpr_setGpr (t.setLog l') _ _ v).trans (if_pos rfl)
      · rw [← hv k (by omega)]
        exact (State.getGpr_setGpr (t.setLog l') _ _ v).trans
          (if_neg (reg_ne (by omega) (by omega) hkc'))
end Sys2Proof.Machine
end

