-- ==== Sys2Proof/Laws/Cache.lean ====
section
/-! SUPPORT. Cache-block instructions: what one that reaches its byte goes on with, and what the operations on locked lines
do, in the terms of the claims. -/

namespace Sys2Proof.Machine

/-! ### Reaching the byte -/

/-- A byte that is placed is the one that the instruction goes on with. -/
theorem located_ok {s : State} {a : Access} {ea : Word} {p : Placed} (h : s.place a ea 1 = .ok p) (k : Placed → Out) :
    s.located a ea k = k p := by
  unfold State.located
  rw [h]

/-- A byte that is not placed ends the instruction; besides that its DAC condition is recorded. -/
theorem located_fails {s : State} {a : Access} {ea fea : Word} {f : AccessFail}
    (h : s.place a ea 1 = .error (f, fea)) (k : Placed → Out) :
    s.located a ea k = (s.setLog (s.noteDac a.dacWrite ea).log).accessFails a f fea := by
  unfold State.located
  rw [h]
  rfl

/-- Debug events that do nothing change the model's record alone. -/
theorem blockEvents_quiet {s : State} {w : Bool} {ea : Word}
    (h : s.debugAction (s.dacEvents w ea) s.de = .ignore) (k : State → Out) :
    s.blockEvents w ea k = k (s.setLog (s.noteDac w ea).log) := by
  have hq : (s.noteDac w ea).debugAction (s.dacEvents w ea) s.de = .ignore := h
  unfold State.blockEvents State.debugBefore
  rw [hq]
  rfl

/-- A lock instruction that the state may execute and that reaches its byte goes on with it, or for another CT ends. -/
theorem lockAccess_ok {s : State} {w data : Bool} {ct : BitVec 4} {ea : Word} {p : Placed}
    (ha : if bit s.msr 49 then bit s.msr 37 = true else bit s.msr 35 = false ∨ bit s.ctl.msrp 37 = false)
    (hp : ReachesBlock s (blockRead w .running) ea p) (k : Placed → State → Out) :
    ∃ l, s.lockAccess data w ct ea k =
      if ct = 0 ∨ ct = 2 then k p (s.setLog l) else (s.setLog l).finish := by
  have hall : ∀ rest, s.lockAllowed data w ea rest = rest := by
    intro rest
    unfold State.lockAllowed
    cases h : bit s.msr 49
    · rw [h] at ha
      have hg : (s.gs && bit s.ctl.msrp 37) = false := by
        rcases ha with hg | hm
        · rw [show s.gs = false from hg]
          rfl
        · rw [hm, Bool.and_false]
      rw [if_neg (by rw [show s.pr = false from h]; decide), hg]
      rfl
    · rw [h] at ha
      rw [if_pos (show s.pr = true from h), if_pos (show s.ucle = true from ha)]
  refine ⟨((s.setLog (s.noteDac w ea).log).noteStores 1).log, ?_⟩
  unfold State.lockAccess
  rw [hall, located_ok (a := .cacheRead w) hp.placed, blockEvents_quiet (w := w) hp.quiet]
  split <;> rfl

/-! ### Locked lines -/

/-- The block number of the claims is the granule of the model. -/
theorem granuleOf_ra (p : Placed) : granuleOf p.ra = blockNumber p := by
  unfold granuleOf blockNumber Placed.ra
  apply BitVec.eq_of_toNat_eq
  rw [BitVec.extractLsb'_toNat, Nat.shiftRight_eq_div_pow, BitVec.toNat_ofNat]

/-- The lines of a block's set, by number. -/
theorem lockedSet_eq (k : Nat) (b : BitVec 30) (l : List (BitVec 30)) :
    lockedSet k b l = l.filter fun x => x.toNat % 2 ^ k = b.toNat % 2 ^ k := by
  unfold lockedSet
  congr 1
  funext x
  rw [Bool.eq_iff_iff, beq_iff_eq, decide_eq_true_eq, ← BitVec.toNat_inj, BitVec.toNat_setWidth, BitVec.toNat_setWidth]

/-- A set is full exactly if it has no room. -/
theorem setFull_iff (k : Nat) (b : BitVec 30) (l : List (BitVec 30)) : setFull k b l = !decide (roomFor (2 ^ k) b l) := by
  unfold setFull roomFor
  rw [lockedSet_eq, Bool.eq_iff_iff]
  simp

/-- The block of the claims is the block of the model. -/
theorem blockBytes_eq (p : Placed) : blockOf p.ra 64 = blockBytes p 64 := by
  unfold blockOf blockBytes realRange Placed.ra
  refine List.map_congr_left fun k hk => ?_
  rw [List.mem_range] at hk
  generalize p.bytes.headD 0 = x
  have hx := x.isLt
  have h1 : (x &&& ~~~(BitVec.ofNat 36 (64 - 1))).toNat = x.toNat / 64 * 64 := by
    have h : x &&& ~~~(BitVec.ofNat 36 (64 - 1)) = (x >>> 6) <<< 6 := by
      apply BitVec.eq_of_getLsbD_eq
      intro i hi
      simp only [BitVec.getLsbD_and, BitVec.getLsbD_not, BitVec.getLsbD_shiftLeft, BitVec.getLsbD_ushiftRight]
      interval_cases i <;> simp
    rw [h, BitVec.toNat_shiftLeft, BitVec.toNat_ushiftRight, Nat.shiftRight_eq_div_pow, Nat.shiftLeft_eq]
    omega
  apply BitVec.eq_of_toNat_eq
  rw [BitVec.toNat_add, h1, BitVec.toNat_ofNat, BitVec.toNat_ofNat]
  omega

/-- A block that leaves the data caches: its locks in the L1 data and the L2 cache are lost, and nothing else of the caches
changes. -/
theorem Cache.unlockData_eq (b : BitVec 30) (c : Cache) :
    c.unlockData b = { c with lockD := withoutLock b c.lockD, lockL2 := withoutLock b c.lockL2 } := rfl

/-- A block that leaves the instruction cache. -/
theorem Cache.unlockInstr_eq (b : BitVec 30) (c : Cache) : c.unlockInstr b = { c with lockI := withoutLock b c.lockI } :=
  rfl

/-- Naming a block leaves the caches as they are, but for the lock in the L1 data cache that it may free (U15). -/
theorem noteCt_cachesAre (s t : State) (l2 : Bool) (b : BitVec 30) (hr : t.cache.recent = s.cache.recent) :
    CachesAre s (t.noteCt l2 b) b (!l2) t.cache := by
  unfold State.noteCt
  simp only
  split
  · rename_i h
    rw [Bool.and_eq_true] at h
    refine ⟨rfl, fun x hx => ?_, fun hn => absurd ?_ hn⟩
    · show x ∈ (if _ then addLock b t.cache.lockD else dropLock b t.cache.lockD) ↔ _
      split
      · unfold addLock
        split <;> simp [hx]
      · unfold dropLock
        simp [hx]
    · rw [← hr]
      simpa using h.2
  · exact ⟨rfl, fun _ _ => Iff.rfl, fun _ => rfl⟩

end Sys2Proof.Machine
end

