-- ==== Sys2Proof/Laws/Decode.lean ====
section
/-! SUPPORT. What each field function of the decoder reads from a word that the encoder wrote: one lemma for each field
that lies inside one field of the format (30_encoding.md R374 to R380). -/

namespace Sys2Proof.Laws

/-- A field that lies in the low part of a concatenation. -/
theorem low_of_append {n m : Nat} (x : BitVec n) (y : BitVec m) (s len : Nat) (h : s + len ≤ m) :
    (x ++ y).extractLsb' s len = y.extractLsb' s len := BitVec.extractLsb'_append_eq_of_add_le h

/-- A field that lies in the high part of a concatenation. -/
theorem high_of_append {n m : Nat} (x : BitVec n) (y : BitVec m) (s len : Nat) (h : m ≤ s) :
    (x ++ y).extractLsb' s len = x.extractLsb' (s - m) len := BitVec.extractLsb'_append_eq_of_le h

/-- A field that is the whole. -/
theorem whole {n : Nat} (x : BitVec n) : x.extractLsb' 0 n = x := by simp

/-- A bit in the low part of a concatenation. -/
theorem low_bit {n m : Nat} (x : BitVec n) (y : BitVec m) (i : Nat) (h : i < m) :
    (x ++ y).getLsbD i = y.getLsbD i := by rw [BitVec.getLsbD_append, if_pos h]

/-- A bit in the high part of a concatenation. -/
theorem high_bit {n m : Nat} (x : BitVec n) (y : BitVec m) (i : Nat) (h : m ≤ i) :
    (x ++ y).getLsbD i = x.getLsbD (i - m) := by rw [BitVec.getLsbD_append, if_neg (Nat.not_lt.mpr h)]

/-- The bit of a one-bit field. -/
theorem ofBool_bit (b : Bool) : (ofBool b).getLsbD 0 = b := by cases b <;> rfl

@[simp] theorem fldOp_encD (op : BitVec 6) (a b : BitVec 5) (imm : BitVec 16) : fldOp (encD op a b imm) = op := by
  show (op ++ a ++ b ++ imm).extractLsb' 26 6 = _
  rw [high_of_append, high_of_append, high_of_append, whole]
  all_goals decide

@[simp] theorem fldA_encD (op : BitVec 6) (a b : BitVec 5) (imm : BitVec 16) : fldA (encD op a b imm) = a := by
  show (op ++ a ++ b ++ imm).extractLsb' 21 5 = _
  rw [high_of_append, high_of_append, low_of_append, whole]
  all_goals decide

@[simp] theorem fldCrD_encD (op : BitVec 6) (a b : BitVec 5) (imm : BitVec 16) : fldCrD (encD op a b imm) = a.extractLsb' 2 3 := by
  show (op ++ a ++ b ++ imm).extractLsb' 23 3 = _
  rw [high_of_append, high_of_append, low_of_append]
  all_goals decide

@[simp] theorem fldL1_encD (op : BitVec 6) (a b : BitVec 5) (imm : BitVec 16) : fldL1 (encD op a b imm) = a.extractLsb' 0 1 := by
  show (op ++ a ++ b ++ imm).extractLsb' 21 1 = _
  rw [high_of_append, high_of_append, low_of_append]
  all_goals decide

@[simp] theorem fldB_encD (op : BitVec 6) (a b : BitVec 5) (imm : BitVec 16) : fldB (encD op a b imm) = b := by
  show (op ++ a ++ b ++ imm).extractLsb' 16 5 = _
  rw [high_of_append, low_of_append, whole]
  all_goals decide

@[simp] theorem fldImm_encD (op : BitVec 6) (a b : BitVec 5) (imm : BitVec 16) : fldImm (encD op a b imm) = imm := by
  show (op ++ a ++ b ++ imm).extractLsb' 0 16 = _
  rw [low_of_append, whole]
  all_goals decide

@[simp] theorem fldOp_encB (bo bi : BitVec 5) (bd : BitVec 14) (aa lk : Bool) : fldOp (encB bo bi bd aa lk) = 16#6 := by
  show (16#6 ++ bo ++ bi ++ bd ++ ofBool aa ++ ofBool lk).extractLsb' 26 6 = _
  rw [high_of_append, high_of_append, high_of_append, high_of_append, high_of_append, whole]
  all_goals decide

@[simp] theorem fldA_encB (bo bi : BitVec 5) (bd : BitVec 14) (aa lk : Bool) : fldA (encB bo bi bd aa lk) = bo := by
  show (16#6 ++ bo ++ bi ++ bd ++ ofBool aa ++ ofBool lk).extractLsb' 21 5 = _
  rw [high_of_append, high_of_append, high_of_append, high_of_append, low_of_append, whole]
  all_goals decide

@[simp] theorem fldB_encB (bo bi : BitVec 5) (bd : BitVec 14) (aa lk : Bool) : fldB (encB bo bi bd aa lk) = bi := by
  show (16#6 ++ bo ++ bi ++ bd ++ ofBool aa ++ ofBool lk).extractLsb' 16 5 = _
  rw [high_of_append, high_of_append, high_of_append, low_of_append, whole]
  all_goals decide

@[simp] theorem fldBd_encB (bo bi : BitVec 5) (bd : BitVec 14) (aa lk : Bool) : fldBd (encB bo bi bd aa lk) = bd := by
  show (16#6 ++ bo ++ bi ++ bd ++ ofBool aa ++ ofBool lk).extractLsb' 2 14 = _
  rw [high_of_append, high_of_append, low_of_append, whole]
  all_goals decide

@[simp] theorem bitAt1_encB (bo bi : BitVec 5) (bd : BitVec 14) (aa lk : Bool) : bitAt 1 (encB bo bi bd aa lk) = aa := by
  show (16#6 ++ bo ++ bi ++ bd ++ ofBool aa ++ ofBool lk).getLsbD 1 = _
  rw [high_bit, low_bit, ofBool_bit]
  all_goals decide

@[simp] theorem bitAt0_encB (bo bi : BitVec 5) (bd : BitVec 14) (aa lk : Bool) : bitAt 0 (encB bo bi bd aa lk) = lk := by
  show (16#6 ++ bo ++ bi ++ bd ++ ofBool aa ++ ofBool lk).getLsbD 0 = _
  rw [low_bit, ofBool_bit]
  all_goals decide

@[simp] theorem fldOp_encI (li : BitVec 24) (aa lk : Bool) : fldOp (encI li aa lk) = 18#6 := by
  show (18#6 ++ li ++ ofBool aa ++ ofBool lk).extractLsb' 26 6 = _
  rw [high_of_append, high_of_append, high_of_append, whole]
  all_goals decide

@[simp] theorem fldLi_encI (li : BitVec 24) (aa lk : Bool) : fldLi (encI li aa lk) = li := by
  show (18#6 ++ li ++ ofBool aa ++ ofBool lk).extractLsb' 2 24 = _
  rw [high_of_append, high_of_append, low_of_append, whole]
  all_goals decide

@[simp] theorem bitAt1_encI (li : BitVec 24) (aa lk : Bool) : bitAt 1 (encI li aa lk) = aa := by
  show (18#6 ++ li ++ ofBool aa ++ ofBool lk).getLsbD 1 = _
  rw [high_bit, low_bit, ofBool_bit]
  all_goals decide

@[simp] theorem bitAt0_encI (li : BitVec 24) (aa lk : Bool) : bitAt 0 (encI li aa lk) = lk := by
  show (18#6 ++ li ++ ofBool aa ++ ofBool lk).getLsbD 0 = _
  rw [low_bit, ofBool_bit]
  all_goals decide

@[simp] theorem fldOp_encSc (lev : BitVec 7) : fldOp (encSc lev) = 17#6 := by
  show (17#6 ++ 0#14 ++ lev ++ 2#5).extractLsb' 26 6 = _
  rw [high_of_append, high_of_append, high_of_append, whole]
  all_goals decide

@[simp] theorem fldLev_encSc (lev : BitVec 7) : fldLev (encSc lev) = lev := by
  show (17#6 ++ 0#14 ++ lev ++ 2#5).extractLsb' 5 7 = _
  rw [high_of_append, low_of_append, whole]
  all_goals decide

@[simp] theorem fldOp_encX (op : BitVec 6) (a b c : BitVec 5) (xo : BitVec 10) (r : Bool) : fldOp (encX op a b c xo r) = op := by
  show (op ++ a ++ b ++ c ++ xo ++ ofBool r).extractLsb' 26 6 = _
  rw [high_of_append, high_of_append, high_of_append, high_of_append, high_of_append, whole]
  all_goals decide

@[simp] theorem fldA_encX (op : BitVec 6) (a b c : BitVec 5) (xo : BitVec 10) (r : Bool) : fldA (encX op a b c xo r) = a := by
  show (op ++ a ++ b ++ c ++ xo ++ ofBool r).extractLsb' 21 5 = _
  rw [high_of_append, high_of_append, high_of_append, high_of_append, low_of_append, whole]
  all_goals decide

@[simp] theorem fldCrD_encX (op : BitVec 6) (a b c : BitVec 5) (xo : BitVec 10) (r : Bool) : fldCrD (encX op a b c xo r) = a.extractLsb' 2 3 := by
  show (op ++ a ++ b ++ c ++ xo ++ ofBool r).extractLsb' 23 3 = _
  rw [high_of_append, high_of_append, high_of_append, high_of_append, low_of_append]
  all_goals decide

@[simp] theorem fldCt_encX (op : BitVec 6) (a b c : BitVec 5) (xo : BitVec 10) (r : Bool) : fldCt (encX op a b c xo r) = a.extractLsb' 0 4 := by
  show (op ++ a ++ b ++ c ++ xo ++ ofBool r).extractLsb' 21 4 = _
  rw [high_of_append, high_of_append, high_of_append, high_of_append, low_of_append]
  all_goals decide

@[simp] theorem fldL_encX (op : BitVec 6) (a b c : BitVec 5) (xo : BitVec 10) (r : Bool) : fldL (encX op a b c xo r) = a.extractLsb' 0 2 := by
  show (op ++ a ++ b ++ c ++ xo ++ ofBool r).extractLsb' 21 2 = _
  rw [high_of_append, high_of_append, high_of_append, high_of_append, low_of_append]
  all_goals decide

@[simp] theorem fldL1_encX (op : BitVec 6) (a b c : BitVec 5) (xo : BitVec 10) (r : Bool) : fldL1 (encX op a b c xo r) = a.extractLsb' 0 1 := by
  show (op ++ a ++ b ++ c ++ xo ++ ofBool r).extractLsb' 21 1 = _
  rw [high_of_append, high_of_append, high_of_append, high_of_append, low_of_append]
  all_goals decide

@[simp] theorem bitAt21_encX (op : BitVec 6) (a b c : BitVec 5) (xo : BitVec 10) (r : Bool) : bitAt 21 (encX op a b c xo r) = a.getLsbD 0 := by
  show (op ++ a ++ b ++ c ++ xo ++ ofBool r).getLsbD 21 = _
  rw [high_bit, high_bit, high_bit, high_bit, low_bit]
  all_goals decide

@[simp] theorem fldB_encX (op : BitVec 6) (a b c : BitVec 5) (xo : BitVec 10) (r : Bool) : fldB (encX op a b c xo r) = b := by
  show (op ++ a ++ b ++ c ++ xo ++ ofBool r).extractLsb' 16 5 = _
  rw [high_of_append, high_of_append, high_of_append, low_of_append, whole]
  all_goals decide

@[simp] theorem fldCrS_encX (op : BitVec 6) (a b c : BitVec 5) (xo : BitVec 10) (r : Bool) : fldCrS (encX op a b c xo r) = b.extractLsb' 2 3 := by
  show (op ++ a ++ b ++ c ++ xo ++ ofBool r).extractLsb' 18 3 = _
  rw [high_of_append, high_of_append, high_of_append, low_of_append]
  all_goals decide

@[simp] theorem fldC_encX (op : BitVec 6) (a b c : BitVec 5) (xo : BitVec 10) (r : Bool) : fldC (encX op a b c xo r) = c := by
  show (op ++ a ++ b ++ c ++ xo ++ ofBool r).extractLsb' 11 5 = _
  rw [high_of_append, high_of_append, low_of_append, whole]
  all_goals decide

@[simp] theorem fldBh_encX (op : BitVec 6) (a b c : BitVec 5) (xo : BitVec 10) (r : Bool) : fldBh (encX op a b c xo r) = c.extractLsb' 0 2 := by
  show (op ++ a ++ b ++ c ++ xo ++ ofBool r).extractLsb' 11 2 = _
  rw [high_of_append, high_of_append, low_of_append]
  all_goals decide

@[simp] theorem fldFsImm_encX (op : BitVec 6) (a b c : BitVec 5) (xo : BitVec 10) (r : Bool) : fldFsImm (encX op a b c xo r) = c.extractLsb' 1 4 := by
  show (op ++ a ++ b ++ c ++ xo ++ ofBool r).extractLsb' 12 4 = _
  rw [high_of_append, high_of_append, low_of_append]
  all_goals decide

@[simp] theorem bitAt15_encX (op : BitVec 6) (a b c : BitVec 5) (xo : BitVec 10) (r : Bool) : bitAt 15 (encX op a b c xo r) = c.getLsbD 4 := by
  show (op ++ a ++ b ++ c ++ xo ++ ofBool r).getLsbD 15 = _
  rw [high_bit, high_bit, low_bit]
  all_goals decide

@[simp] theorem fldE_encX (op : BitVec 6) (a b c : BitVec 5) (xo : BitVec 10) (r : Bool) : fldE (encX op a b c xo r) = xo.extractLsb' 0 5 := by
  show (op ++ a ++ b ++ c ++ xo ++ ofBool r).extractLsb' 1 5 = _
  rw [high_of_append, low_of_append]
  all_goals decide

@[simp] theorem fldXo_encX (op : BitVec 6) (a b c : BitVec 5) (xo : BitVec 10) (r : Bool) : fldXo (encX op a b c xo r) = xo := by
  show (op ++ a ++ b ++ c ++ xo ++ ofBool r).extractLsb' 1 10 = _
  rw [high_of_append, low_of_append, whole]
  all_goals decide

@[simp] theorem bitAt0_encX (op : BitVec 6) (a b c : BitVec 5) (xo : BitVec 10) (r : Bool) : bitAt 0 (encX op a b c xo r) = r := by
  show (op ++ a ++ b ++ c ++ xo ++ ofBool r).getLsbD 0 = _
  rw [low_bit, ofBool_bit]
  all_goals decide

@[simp] theorem fldOp_encXo (a b c : BitVec 5) (oe : Bool) (xo : BitVec 9) (rc : Bool) : fldOp (encXo a b c oe xo rc) = 31#6 := by
  show (31#6 ++ a ++ b ++ c ++ ofBool oe ++ xo ++ ofBool rc).extractLsb' 26 6 = _
  rw [high_of_append, high_of_append, high_of_append, high_of_append, high_of_append, high_of_append, whole]
  all_goals decide

@[simp] theorem fldA_encXo (a b c : BitVec 5) (oe : Bool) (xo : BitVec 9) (rc : Bool) : fldA (encXo a b c oe xo rc) = a := by
  show (31#6 ++ a ++ b ++ c ++ ofBool oe ++ xo ++ ofBool rc).extractLsb' 21 5 = _
  rw [high_of_append, high_of_append, high_of_append, high_of_append, high_of_append, low_of_append, whole]
  all_goals decide

@[simp] theorem fldB_encXo (a b c : BitVec 5) (oe : Bool) (xo : BitVec 9) (rc : Bool) : fldB (encXo a b c oe xo rc) = b := by
  show (31#6 ++ a ++ b ++ c ++ ofBool oe ++ xo ++ ofBool rc).extractLsb' 16 5 = _
  rw [high_of_append, high_of_append, high_of_append, high_of_append, low_of_append, whole]
  all_goals decide

@[simp] theorem fldC_encXo (a b c : BitVec 5) (oe : Bool) (xo : BitVec 9) (rc : Bool) : fldC (encXo a b c oe xo rc) = c := by
  show (31#6 ++ a ++ b ++ c ++ ofBool oe ++ xo ++ ofBool rc).extractLsb' 11 5 = _
  rw [high_of_append, high_of_append, high_of_append, low_of_append, whole]
  all_goals decide

@[simp] theorem bitAt10_encXo (a b c : BitVec 5) (oe : Bool) (xo : BitVec 9) (rc : Bool) : bitAt 10 (encXo a b c oe xo rc) = oe := by
  show (31#6 ++ a ++ b ++ c ++ ofBool oe ++ xo ++ ofBool rc).getLsbD 10 = _
  rw [high_bit, high_bit, low_bit, ofBool_bit]
  all_goals decide

@[simp] theorem fldE_encXo (a b c : BitVec 5) (oe : Bool) (xo : BitVec 9) (rc : Bool) : fldE (encXo a b c oe xo rc) = xo.extractLsb' 0 5 := by
  show (31#6 ++ a ++ b ++ c ++ ofBool oe ++ xo ++ ofBool rc).extractLsb' 1 5 = _
  rw [high_of_append, low_of_append]
  all_goals decide

@[simp] theorem bitAt0_encXo (a b c : BitVec 5) (oe : Bool) (xo : BitVec 9) (rc : Bool) : bitAt 0 (encXo a b c oe xo rc) = rc := by
  show (31#6 ++ a ++ b ++ c ++ ofBool oe ++ xo ++ ofBool rc).getLsbD 0 = _
  rw [low_bit, ofBool_bit]
  all_goals decide

@[simp] theorem fldOp_encA (op : BitVec 6) (a b c d e : BitVec 5) (rc : Bool) : fldOp (encA op a b c d e rc) = op := by
  show (op ++ a ++ b ++ c ++ d ++ e ++ ofBool rc).extractLsb' 26 6 = _
  rw [high_of_append, high_of_append, high_of_append, high_of_append, high_of_append, high_of_append, whole]
  all_goals decide

@[simp] theorem fldA_encA (op : BitVec 6) (a b c d e : BitVec 5) (rc : Bool) : fldA (encA op a b c d e rc) = a := by
  show (op ++ a ++ b ++ c ++ d ++ e ++ ofBool rc).extractLsb' 21 5 = _
  rw [high_of_append, high_of_append, high_of_append, high_of_append, high_of_append, low_of_append, whole]
  all_goals decide

@[simp] theorem fldB_encA (op : BitVec 6) (a b c d e : BitVec 5) (rc : Bool) : fldB (encA op a b c d e rc) = b := by
  show (op ++ a ++ b ++ c ++ d ++ e ++ ofBool rc).extractLsb' 16 5 = _
  rw [high_of_append, high_of_append, high_of_append, high_of_append, low_of_append, whole]
  all_goals decide

@[simp] theorem fldC_encA (op : BitVec 6) (a b c d e : BitVec 5) (rc : Bool) : fldC (encA op a b c d e rc) = c := by
  show (op ++ a ++ b ++ c ++ d ++ e ++ ofBool rc).extractLsb' 11 5 = _
  rw [high_of_append, high_of_append, high_of_append, low_of_append, whole]
  all_goals decide

@[simp] theorem fldD_encA (op : BitVec 6) (a b c d e : BitVec 5) (rc : Bool) : fldD (encA op a b c d e rc) = d := by
  show (op ++ a ++ b ++ c ++ d ++ e ++ ofBool rc).extractLsb' 6 5 = _
  rw [high_of_append, high_of_append, low_of_append, whole]
  all_goals decide

@[simp] theorem fldE_encA (op : BitVec 6) (a b c d e : BitVec 5) (rc : Bool) : fldE (encA op a b c d e rc) = e := by
  show (op ++ a ++ b ++ c ++ d ++ e ++ ofBool rc).extractLsb' 1 5 = _
  rw [high_of_append, low_of_append, whole]
  all_goals decide

@[simp] theorem bitAt0_encA (op : BitVec 6) (a b c d e : BitVec 5) (rc : Bool) : bitAt 0 (encA op a b c d e rc) = rc := by
  show (op ++ a ++ b ++ c ++ d ++ e ++ ofBool rc).getLsbD 0 = _
  rw [low_bit, ofBool_bit]
  all_goals decide

@[simp] theorem fldOp_encSpr (op : BitVec 6) (a : BitVec 5) (n xo : BitVec 10) (r : Bool) : fldOp (encSpr op a n xo r) = op := by
  show (op ++ a ++ n.extractLsb' 0 5 ++ n.extractLsb' 5 5 ++ xo ++ ofBool r).extractLsb' 26 6 = _
  rw [high_of_append, high_of_append, high_of_append, high_of_append, high_of_append, whole]
  all_goals decide

@[simp] theorem fldA_encSpr (op : BitVec 6) (a : BitVec 5) (n xo : BitVec 10) (r : Bool) : fldA (encSpr op a n xo r) = a := by
  show (op ++ a ++ n.extractLsb' 0 5 ++ n.extractLsb' 5 5 ++ xo ++ ofBool r).extractLsb' 21 5 = _
  rw [high_of_append, high_of_append, high_of_append, high_of_append, low_of_append, whole]
  all_goals decide

@[simp] theorem fldE_encSpr (op : BitVec 6) (a : BitVec 5) (n xo : BitVec 10) (r : Bool) : fldE (encSpr op a n xo r) = xo.extractLsb' 0 5 := by
  show (op ++ a ++ n.extractLsb' 0 5 ++ n.extractLsb' 5 5 ++ xo ++ ofBool r).extractLsb' 1 5 = _
  rw [high_of_append, low_of_append]
  all_goals decide

@[simp] theorem fldXo_encSpr (op : BitVec 6) (a : BitVec 5) (n xo : BitVec 10) (r : Bool) : fldXo (encSpr op a n xo r) = xo := by
  show (op ++ a ++ n.extractLsb' 0 5 ++ n.extractLsb' 5 5 ++ xo ++ ofBool r).extractLsb' 1 10 = _
  rw [high_of_append, low_of_append, whole]
  all_goals decide

@[simp] theorem fldOp_encDnh (dui : BitVec 5) (duis : BitVec 10) : fldOp (encDnh dui duis) = 19#6 := by
  show (19#6 ++ dui ++ duis ++ 198#10 ++ 0#1).extractLsb' 26 6 = _
  rw [high_of_append, high_of_append, high_of_append, high_of_append, whole]
  all_goals decide

@[simp] theorem fldA_encDnh (dui : BitVec 5) (duis : BitVec 10) : fldA (encDnh dui duis) = dui := by
  show (19#6 ++ dui ++ duis ++ 198#10 ++ 0#1).extractLsb' 21 5 = _
  rw [high_of_append, high_of_append, high_of_append, low_of_append, whole]
  all_goals decide

@[simp] theorem fldDuis_encDnh (dui : BitVec 5) (duis : BitVec 10) : fldDuis (encDnh dui duis) = duis := by
  show (19#6 ++ dui ++ duis ++ 198#10 ++ 0#1).extractLsb' 11 10 = _
  rw [high_of_append, high_of_append, low_of_append, whole]
  all_goals decide

@[simp] theorem fldE_encDnh (dui : BitVec 5) (duis : BitVec 10) : fldE (encDnh dui duis) = (198#10).extractLsb' 0 5 := by
  show (19#6 ++ dui ++ duis ++ 198#10 ++ 0#1).extractLsb' 1 5 = _
  rw [high_of_append, low_of_append]
  all_goals decide

@[simp] theorem fldXo_encDnh (dui : BitVec 5) (duis : BitVec 10) : fldXo (encDnh dui duis) = 198#10 := by
  show (19#6 ++ dui ++ duis ++ 198#10 ++ 0#1).extractLsb' 1 10 = _
  rw [high_of_append, low_of_append, whole]
  all_goals decide

@[simp] theorem fldOp_encOc (oc : BitVec 15) : fldOp (encOc oc) = 31#6 := by
  show (31#6 ++ oc ++ 270#10 ++ 0#1).extractLsb' 26 6 = _
  rw [high_of_append, high_of_append, high_of_append, whole]
  all_goals decide

@[simp] theorem fldOc_encOc (oc : BitVec 15) : fldOc (encOc oc) = oc := by
  show (31#6 ++ oc ++ 270#10 ++ 0#1).extractLsb' 11 15 = _
  rw [high_of_append, high_of_append, low_of_append, whole]
  all_goals decide

@[simp] theorem fldE_encOc (oc : BitVec 15) : fldE (encOc oc) = (270#10).extractLsb' 0 5 := by
  show (31#6 ++ oc ++ 270#10 ++ 0#1).extractLsb' 1 5 = _
  rw [high_of_append, low_of_append]
  all_goals decide

@[simp] theorem fldXo_encOc (oc : BitVec 15) : fldXo (encOc oc) = 270#10 := by
  show (31#6 ++ oc ++ 270#10 ++ 0#1).extractLsb' 1 10 = _
  rw [high_of_append, low_of_append, whole]
  all_goals decide

@[simp] theorem fldOp_encCrm (a : BitVec 5) (one : Bool) (crm : BitVec 8) (xo : BitVec 10) : fldOp (encCrm a one crm xo) = 31#6 := by
  show (31#6 ++ a ++ ofBool one ++ crm ++ 0#1 ++ xo ++ 0#1).extractLsb' 26 6 = _
  rw [high_of_append, high_of_append, high_of_append, high_of_append, high_of_append, high_of_append, whole]
  all_goals decide

@[simp] theorem fldA_encCrm (a : BitVec 5) (one : Bool) (crm : BitVec 8) (xo : BitVec 10) : fldA (encCrm a one crm xo) = a := by
  show (31#6 ++ a ++ ofBool one ++ crm ++ 0#1 ++ xo ++ 0#1).extractLsb' 21 5 = _
  rw [high_of_append, high_of_append, high_of_append, high_of_append, high_of_append, low_of_append, whole]
  all_goals decide

@[simp] theorem bitAt20_encCrm (a : BitVec 5) (one : Bool) (crm : BitVec 8) (xo : BitVec 10) : bitAt 20 (encCrm a one crm xo) = one := by
  show (31#6 ++ a ++ ofBool one ++ crm ++ 0#1 ++ xo ++ 0#1).getLsbD 20 = _
  rw [high_bit, high_bit, high_bit, high_bit, low_bit, ofBool_bit]
  all_goals decide

@[simp] theorem fldCrm_encCrm (a : BitVec 5) (one : Bool) (crm : BitVec 8) (xo : BitVec 10) : fldCrm (encCrm a one crm xo) = crm := by
  show (31#6 ++ a ++ ofBool one ++ crm ++ 0#1 ++ xo ++ 0#1).extractLsb' 12 8 = _
  rw [high_of_append, high_of_append, high_of_append, low_of_append, whole]
  all_goals decide

@[simp] theorem fldE_encCrm (a : BitVec 5) (one : Bool) (crm : BitVec 8) (xo : BitVec 10) : fldE (encCrm a one crm xo) = xo.extractLsb' 0 5 := by
  show (31#6 ++ a ++ ofBool one ++ crm ++ 0#1 ++ xo ++ 0#1).extractLsb' 1 5 = _
  rw [high_of_append, low_of_append]
  all_goals decide

@[simp] theorem fldXo_encCrm (a : BitVec 5) (one : Bool) (crm : BitVec 8) (xo : BitVec 10) : fldXo (encCrm a one crm xo) = xo := by
  show (31#6 ++ a ++ ofBool one ++ crm ++ 0#1 ++ xo ++ 0#1).extractLsb' 1 10 = _
  rw [high_of_append, low_of_append, whole]
  all_goals decide

@[simp] theorem fldOp_encFm (fm : BitVec 8) (b : BitVec 5) (rc : Bool) : fldOp (encFm fm b rc) = 63#6 := by
  show (63#6 ++ 0#1 ++ fm ++ 0#1 ++ b ++ 711#10 ++ ofBool rc).extractLsb' 26 6 = _
  rw [high_of_append, high_of_append, high_of_append, high_of_append, high_of_append, high_of_append, whole]
  all_goals decide

@[simp] theorem fldFm_encFm (fm : BitVec 8) (b : BitVec 5) (rc : Bool) : fldFm (encFm fm b rc) = fm := by
  show (63#6 ++ 0#1 ++ fm ++ 0#1 ++ b ++ 711#10 ++ ofBool rc).extractLsb' 17 8 = _
  rw [high_of_append, high_of_append, high_of_append, high_of_append, low_of_append, whole]
  all_goals decide

@[simp] theorem fldC_encFm (fm : BitVec 8) (b : BitVec 5) (rc : Bool) : fldC (encFm fm b rc) = b := by
  show (63#6 ++ 0#1 ++ fm ++ 0#1 ++ b ++ 711#10 ++ ofBool rc).extractLsb' 11 5 = _
  rw [high_of_append, high_of_append, low_of_append, whole]
  all_goals decide

@[simp] theorem fldE_encFm (fm : BitVec 8) (b : BitVec 5) (rc : Bool) : fldE (encFm fm b rc) = (711#10).extractLsb' 0 5 := by
  show (63#6 ++ 0#1 ++ fm ++ 0#1 ++ b ++ 711#10 ++ ofBool rc).extractLsb' 1 5 = _
  rw [high_of_append, low_of_append]
  all_goals decide

@[simp] theorem fldXo_encFm (fm : BitVec 8) (b : BitVec 5) (rc : Bool) : fldXo (encFm fm b rc) = 711#10 := by
  show (63#6 ++ 0#1 ++ fm ++ 0#1 ++ b ++ 711#10 ++ ofBool rc).extractLsb' 1 10 = _
  rw [high_of_append, low_of_append, whole]
  all_goals decide

@[simp] theorem bitAt0_encFm (fm : BitVec 8) (b : BitVec 5) (rc : Bool) : bitAt 0 (encFm fm b rc) = rc := by
  show (63#6 ++ 0#1 ++ fm ++ 0#1 ++ b ++ 711#10 ++ ofBool rc).getLsbD 0 = _
  rw [low_bit, ofBool_bit]
  all_goals decide

/-- The register number of mfspr and its like, its halves exchanged twice. -/
@[simp] theorem fldSpr_encSpr (op : BitVec 6) (a : BitVec 5) (n xo : BitVec 10) (r : Bool) :
    fldSpr (encSpr op a n xo r) = n := by
  have h1 : (encSpr op a n xo r).extractLsb' 11 5 = n.extractLsb' 5 5 := by
    show (op ++ a ++ n.extractLsb' 0 5 ++ n.extractLsb' 5 5 ++ xo ++ ofBool r).extractLsb' 11 5 = _
    rw [high_of_append, high_of_append, low_of_append, whole]
    all_goals decide
  have h2 : (encSpr op a n xo r).extractLsb' 16 5 = n.extractLsb' 0 5 := by
    show (op ++ a ++ n.extractLsb' 0 5 ++ n.extractLsb' 5 5 ++ xo ++ ofBool r).extractLsb' 16 5 = _
    rw [high_of_append, high_of_append, high_of_append, low_of_append, whole]
    all_goals decide
  unfold fldSpr
  rw [h1, h2]
  clear h1 h2
  revert n
  decide +kernel

/-- The ten-bit extended opcode of the XO form, whose top bit is OE. -/
@[simp] theorem fldXo_encXo (a b c : BitVec 5) (oe : Bool) (xo : BitVec 9) (rc : Bool) :
    fldXo (encXo a b c oe xo rc) = ofBool oe ++ xo := by
  show ((31#6 ++ a ++ b ++ c ++ ofBool oe ++ xo ++ ofBool rc).extractLsb' 1 10) = _
  rw [high_of_append _ _ _ _ (by decide)]
  apply BitVec.eq_of_getLsbD_eq
  intro i hi
  have e : (ofBool oe ++ xo).getLsbD i = if i < 9 then xo.getLsbD i else (ofBool oe).getLsbD (i - 9) :=
    BitVec.getLsbD_append
  refine Eq.trans ?_ e.symm
  rw [BitVec.getLsbD_extractLsb', BitVec.getLsbD_append, BitVec.getLsbD_append]
  rcases Nat.lt_or_ge i 9 with h | h
  · simp [hi, h]
  · obtain rfl : i = 9 := by omega
    simp

/-- The ten-bit extended opcode of the XO form as a number. -/
@[simp] theorem oe_xo_toNat (oe : Bool) (xo : BitVec 9) : (ofBool oe ++ xo).toNat = oe.toNat * 512 + xo.toNat := by
  cases oe <;> revert xo <;> decide +kernel

/-- Bit 30 of an sc word, which tells it from the other words of its opcode. -/
@[simp] theorem bitAt1_encSc (lev : BitVec 7) : bitAt 1 (encSc lev) = true := by
  show (17#6 ++ 0#14 ++ lev ++ 2#5).getLsbD 1 = _
  rw [low_bit _ _ _ (by decide)]
  rfl

/-! Operands that share a five-bit field with other bits. -/

@[simp] theorem crf_of_compare (a : BitVec 3) (z l : BitVec 1) : (a ++ z ++ l).extractLsb' 2 3 = a := by
  revert a z l; decide
@[simp] theorem l_of_compare (a : BitVec 3) (z l : BitVec 1) : (a ++ z ++ l).extractLsb' 0 1 = l := by
  revert a z l; decide
@[simp] theorem crf_of_field (a : BitVec 3) (z : BitVec 2) : (a ++ z).extractLsb' 2 3 = a := by revert a z; decide
@[simp] theorem low_two_of_field (a : BitVec 3) (z : BitVec 2) : (a ++ z).extractLsb' 0 2 = z := by revert a z; decide
@[simp] theorem low_four_of_field (a : BitVec 1) (z : BitVec 4) : (a ++ z).extractLsb' 0 4 = z := by
  revert a z; decide
@[simp] theorem imm_of_field (a : BitVec 4) (z : BitVec 1) : (a ++ z).extractLsb' 1 4 = a := by revert a z; decide

end Sys2Proof.Laws
end

