-- ==== Sys2Proof/Laws/Fetch.lean ====
section
/-! SUPPORT. Instruction fetch: what a fetch hands to a device, and what is left of its fetch group. -/

namespace Sys2Proof.Machine

/-- A fetch changes the record of device accesses and takes free values; nothing else changes. -/
theorem fetchPlaced_state (s : State) (p : Placed) :
    (s.fetchPlaced p).2 = { s with log := (s.fetchPlaced p).2.log, draws := (s.fetchPlaced p).2.draws } := by
  unfold State.fetchPlaced
  split
  · rfl
  · unfold State.readDevice
    rw [noteDevices_eq]
    rfl

/-- A fetch of storage, and one of a word that its fetch group has brought, hand nothing to a device; any other hands over
its read, if that reaches one. -/
theorem fetchPlaced_devices (s : State) (p : Placed) :
    (s.fetchPlaced p).2.log.devices = s.log.devices ++
      if s.regionOf p.bytes = none ∨ s.hid.fetched = some p.ra then []
      else
        ([{ op := .read, addrs := (if p.i then blockOf p.ra 64 else p.bytes).filter (s.regionAt · = some .device),
            data := [], decoration := none }] : List DeviceAccess).filter (·.addrs ≠ []) := by
  unfold State.fetchPlaced
  by_cases h : s.regionOf p.bytes = none
  · rw [if_pos h, if_pos (.inl h), List.append_nil]
  · rw [if_neg h]
    unfold State.readDevice State.fetchReads
    rw [noteDevices_eq]
    by_cases hf : s.hid.fetched = some p.ra
    · rw [if_pos hf, if_pos (.inr hf)]
      rfl
    · rw [if_neg hf, if_neg (not_or.2 ⟨h, hf⟩)]
      rfl

/-- The instructions that are fetched anew after are isync and the returns. -/
theorem refetches_iff (i : Instr) : refetches i = true ↔ i ∈ [.isync, .rfi, .rfgi, .rfci, .rfdi, .rfmci] := by
  cases i <;> simp [refetches]

/-- What is left of a fetch group is the next word, of a caching-inhibited fetch of a device that the machine goes on
with. -/
theorem groupLeft_eq_some {s t : State} {i : Instr} {a : BitVec 36} (h : s.groupLeft (some i) t = some a) :
    ∃ p, s.fetchPlace = .ok p ∧ a = p.ra + 4 ∧ p.i = true ∧ s.regionOf p.bytes = some .device ∧ p.ra.toNat % 16 < 12 ∧
      t.running = true ∧ t.log.interrupts = [] ∧ refetches i = false ∧ t.pc = s.pc + 4 := by
  unfold State.groupLeft at h
  rcases hp : s.fetchPlace with e | p
  · rw [hp] at h
    cases h
  · simp only [hp] at h
    split at h
    · rename_i hc
      exact ⟨p, rfl, (Option.some.inj h).symm, hc⟩
    · cases h

end Sys2Proof.Machine
end

