-- ==== Sys2Proof/Laws/Float.lean ====
section
/-! SUPPORT. Floating-point values: what unpacking and packing do to the number that a double stands for, and that a result
is delivered as the exact value rounded. -/

namespace Sys2Proof.Machine

/-! ### The fields of a double -/

theorem dOf_toNat (s : Bool) (e f : Nat) :
    (dOf s e f).toNat = s.toNat * 2 ^ 63 + e % 2 ^ 11 * 2 ^ 52 + f % 2 ^ 52 := by
  unfold dOf
  rw [append_toNat, append_toNat, BitVec.toNat_ofBool, BitVec.toNat_ofNat, BitVec.toNat_ofNat]
  omega

theorem dOf_exp (s : Bool) (e f : Nat) (h : e < 2048) : ((dOf s e f).extractLsb' 52 11).toNat = e := by
  have hs := s.toNat_lt
  rw [BitVec.extractLsb'_toNat, dOf_toNat, Nat.shiftRight_eq_div_pow]
  omega

theorem dOf_frac (s : Bool) (e f : Nat) : ((dOf s e f).setWidth 52).toNat = f % 2 ^ 52 := by
  rw [BitVec.toNat_setWidth, dOf_toNat]
  omega

theorem dOf_msb (s : Bool) (e f : Nat) : (dOf s e f).msb = s := by
  have hs := s.toNat_lt
  rw [BitVec.msb_eq_decide, dOf_toNat]
  cases s
  · simp
    omega
  · simp
    omega

/-- A double is finite exactly if its exponent field is not 2047. -/
theorem isFinite_iff (d : DWord) : isFinite d ↔ dExp d ≠ 2047 := by
  unfold isFinite dExp
  rw [Ne, ← BitVec.toNat_inj]
  rfl

/-! ### Values -/

/-- A magnitude with a sign. -/
def withSign (s : Bool) (x : ℚ) : ℚ := if s then -x else x

theorem abs_withSign (s : Bool) (x : ℚ) : |withSign s x| = |x| := by
  cases s <;> simp [withSign]

/-- The value of a finite double is what unpacking it gives. -/
theorem valueOf_unpack {d : DWord} (h : isFinite d) :
    ∃ m e, unpack d = .num d.msb m e ∧ valueOf d = withSign d.msb (m * (2 : ℚ) ^ e) := by
  rw [isFinite_iff] at h
  unfold unpack
  rw [if_neg h]
  have hz : d.extractLsb' 52 11 = 0 ↔ dExp d = 0 := by
    unfold dExp
    rw [← BitVec.toNat_inj]
    rfl
  by_cases h0 : dExp d = 0
  · rw [if_pos h0]
    refine ⟨_, _, rfl, ?_⟩
    unfold valueOf withSign
    rw [if_pos (hz.2 h0)]
    unfold dFrac
    split <;> ring
  · rw [if_neg h0]
    refine ⟨_, _, rfl, ?_⟩
    unfold valueOf withSign
    rw [if_neg (fun q => h0 (hz.1 q))]
    unfold dFrac dExp
    push_cast
    split <;> ring

/-- The value of a normalised double that is put together from its fields. -/
theorem valueOf_dOf (s : Bool) (e f : Nat) (h0 : 0 < e) (h : e < 2047) (hf : f < 2 ^ 52) :
    valueOf (dOf s e f) = withSign s ((2 ^ 52 + f : ℕ) * (2 : ℚ) ^ (e - 1075 : ℤ)) := by
  have he := dOf_exp s e f (by omega)
  have hne : (dOf s e f).extractLsb' 52 11 ≠ 0 := fun q => by
    rw [q] at he
    exact absurd he.symm (by simpa using h0.ne')
  unfold valueOf withSign
  rw [if_neg hne, he, dOf_frac, dOf_msb, Nat.mod_eq_of_lt hf]
  push_cast
  split <;> ring

/-- The significand of a number of at most 53 bits, as a double holds it. -/
theorem significand {q : Nat} (hq : q ≠ 0) (h : q ≤ 2 ^ 53) :
    2 ^ 52 ≤ (q <<< 53) >>> (Nat.log2 q + 1) ∧ (q <<< 53) >>> (Nat.log2 q + 1) < 2 ^ 53 ∧
      (((q <<< 53) >>> (Nat.log2 q + 1) : ℕ) : ℚ) * (2 : ℚ) ^ (Nat.log2 q - 52 : ℤ) = q := by
  rw [Nat.shiftLeft_eq, Nat.shiftRight_eq_div_pow]
  have hl : 2 ^ Nat.log2 q ≤ q := Nat.log2_self_le hq
  have hu : q < 2 ^ (Nat.log2 q + 1) := Nat.lt_log2_self
  have hk : Nat.log2 q ≤ 53 := by
    by_contra hc
    have : 2 ^ 54 ≤ 2 ^ Nat.log2 q := Nat.pow_le_pow_right (by decide) (by omega)
    omega
  by_cases h53 : Nat.log2 q = 53
  · have hq2 : q = 2 ^ 53 := by
      rw [h53] at hl
      omega
    subst hq2
    rw [h53]
    norm_num
  · obtain ⟨j, hj⟩ : ∃ j, Nat.log2 q + j = 52 := ⟨52 - Nat.log2 q, by omega⟩
    have e1 : q * 2 ^ 53 / 2 ^ (Nat.log2 q + 1) = q * 2 ^ j := by
      rw [show 2 ^ 53 = 2 ^ j * 2 ^ (Nat.log2 q + 1) by rw [← pow_add]; congr 1; omega, ← Nat.mul_assoc]
      exact Nat.mul_div_cancel _ (by positivity)
    rw [e1]
    refine ⟨?_, ?_, ?_⟩
    · calc 2 ^ 52 = 2 ^ Nat.log2 q * 2 ^ j := by rw [← pow_add, hj]
        _ ≤ q * 2 ^ j := Nat.mul_le_mul_right _ hl
    · calc q * 2 ^ j < 2 ^ (Nat.log2 q + 1) * 2 ^ j := Nat.mul_lt_mul_of_pos_right hu (by positivity)
        _ = 2 ^ 53 := by rw [← pow_add]; congr 1; omega
    · push_cast
      rw [mul_assoc, ← zpow_natCast, ← zpow_add₀ (by norm_num : (2 : ℚ) ≠ 0),
        show (j : ℤ) + (Nat.log2 q - 52) = 0 by omega, zpow_zero, mul_one]

/-- Packing a number in the normal range of doubles keeps its value. -/
theorem valueOf_packDouble (s : Bool) {q : Nat} {t : ℤ} (hq : q ≠ 0) (h53 : q ≤ 2 ^ 53)
    (hlo : -1022 ≤ t + Nat.log2 q) (hhi : t + Nat.log2 q ≤ 1023) :
    valueOf (packDouble s q t) = withSign s (q * (2 : ℚ) ^ t) ∧ isFinite (packDouble s q t) ∧
      (packDouble s q t).msb = s := by
  obtain ⟨h1, h2, h3⟩ := significand hq h53
  obtain ⟨e, he⟩ : ∃ e : ℕ, (e : ℤ) = t + Nat.log2 q + 1023 := ⟨(t + Nat.log2 q + 1023).toNat, by omega⟩
  have hp : packDouble s q t = dOf s e ((q <<< 53) >>> (Nat.log2 q + 1)) := by
    unfold packDouble
    rw [if_neg hq]
    simp only
    rw [if_neg (by omega), ← he]
    rfl
  generalize (q <<< 53) >>> (Nat.log2 q + 1) = w at *
  have hw : dOf s e w = dOf s e (w - 2 ^ 52) := by
    apply BitVec.eq_of_toNat_eq
    rw [dOf_toNat, dOf_toNat]
    omega
  refine ⟨?_, ?_, ?_⟩
  · rw [hp, hw, valueOf_dOf s e _ (by omega) (by omega) (by omega)]
    refine congrArg (withSign s) ?_
    have hsum : 2 ^ 52 + (w - 2 ^ 52) = w := Nat.add_sub_cancel' h1
    have hexp : (e : ℤ) - 1075 = ((Nat.log2 q : ℤ) - 52) + t := by rw [he]; ring
    rw [hsum, hexp, zpow_add₀ (two_ne_zero' ℚ), ← mul_assoc, h3]
  · rw [hp, isFinite_iff]
    show ((dOf s e w).extractLsb' 52 11).toNat ≠ 2047
    rw [dOf_exp s e w (by omega)]
    omega
  · rw [hp, dOf_msb]

/-! ### Rounding -/

/-- Rounding in whole numbers: q times d stands for m, and the mode says on which side it lies. -/
theorem roundAt_nat (rn : BitVec 2) (sign : Bool) (m k : ℕ) (e t : ℤ) (hk : t = e + k) :
    let r := roundAt rn sign m e t
    let d : ℤ := 2 ^ k
    r.t = t ∧ |r.q * d - m| < d ∧ (rn = 0 → 2 * |r.q * d - m| ≤ d ∧ (2 * |r.q * d - m| = d → 2 ∣ r.q)) ∧
      (rn = 1 → r.q * d ≤ m) ∧ (rn = 2 → if sign then r.q * d ≤ m else (m : ℤ) ≤ r.q * d) ∧
      (rn = 3 → if sign then (m : ℤ) ≤ r.q * d else r.q * d ≤ m) ∧
      (r.inexact = true ↔ r.q * d ≠ m) ∧ (r.up = true ↔ (m : ℤ) < r.q * d) := by
  subst hk
  by_cases h0 : k = 0
  · subst h0
    simp [roundAt]
  · have hkt : ¬(e + k ≤ e) := by omega
    have hkk : (e + (k : ℤ) - e).toNat = k := by omega
    unfold roundAt
    rw [if_neg hkt]
    simp only [hkk, Nat.shiftRight_eq_div_pow]
    have hm := Nat.div_add_mod m (2 ^ k)
    have hr := Nat.mod_lt m (show 0 < 2 ^ k by positivity)
    have hev : 2 ∣ 2 ^ k := dvd_pow_self 2 h0
    have hd : ((2 ^ k : ℕ) : ℤ) = 2 ^ k := by push_cast; rfl
    rw [← hd]
    generalize 2 ^ k = d at *
    have hmz : (m : ℤ) = (m / d : ℕ) * d + (m % d : ℕ) := by
      rw [mul_comm]
      exact_mod_cast hm.symm
    generalize m % d = r at *
    generalize m / d = q at *
    rw [hmz]
    have e1 : (q : ℤ) * d - (q * d + r) = -r := by ring
    have e2 : ((q + 1 : ℕ) : ℤ) * d - (q * d + r) = d - r := by push_cast; ring
    have a1 : |(q : ℤ) * d - (q * d + r)| = r := by rw [e1, abs_neg, Nat.abs_cast]
    have a2 : |((q + 1 : ℕ) : ℤ) * d - (q * d + r)| = d - r := by rw [e2, abs_of_nonneg (by omega)]
    have l1 : (q : ℤ) * d ≤ q * d + r := by omega
    have l2 : (q : ℤ) * d + r < ((q + 1 : ℕ) : ℤ) * d := by push_cast; linarith
    have n1 : (q : ℤ) * d ≠ q * d + r ↔ r ≠ 0 := by omega
    have n2 : ((q + 1 : ℕ) : ℤ) * d ≠ q * d + r := l2.ne'
    have even : ∀ x : ℕ, (2 : ℤ) ∣ x ↔ x % 2 = 0 := fun x => by omega
    have hcases : ∀ rn : BitVec 2, rn = 0 ∨ rn = 1 ∨ rn = 2 ∨ rn = 3 := by decide
    rcases hcases rn with rfl | rfl | rfl | rfl
    · have z0 : (0 : BitVec 2).toNat = 0 := rfl
      by_cases hu : (decide (d < 2 * r) || decide (2 * r = d) && decide (q % 2 = 1)) = true
      · simp only [z0, hu, if_true, a2]
        simp only [Bool.or_eq_true, Bool.and_eq_true, decide_eq_true_eq] at hu
        have up : r ≤ d ∧ d ≤ 2 * r ∧ (2 * r = d → 2 ∣ q + 1) := by
          rcases hu with h | h <;> omega
        refine ⟨trivial, by omega, fun _ => ⟨by omega, fun h => up.2.2 (by omega)⟩, by simp, by simp, by simp, ?_, ?_⟩
        · simp only [decide_eq_true_eq, n2, not_false_eq_true, ne_eq, iff_true]
          omega
        · simp only [l2]
      · simp only [z0, hu, a1, Bool.false_eq_true, if_false]
        simp only [Bool.or_eq_true, Bool.and_eq_true, decide_eq_true_eq] at hu
        refine ⟨trivial, by omega, fun _ => ⟨by omega, fun h => by omega⟩, by simp, by simp, by simp, ?_, ?_⟩
        · simp only [decide_eq_true_eq, n1]
        · simp only [false_iff, not_lt, l1]
    · have z1 : (1 : BitVec 2).toNat = 1 := rfl
      simp only [z1, a1, Bool.false_eq_true, if_false]
      refine ⟨trivial, by omega, by simp, fun _ => l1, by simp, by simp, ?_, ?_⟩
      · simp only [decide_eq_true_eq, n1]
      · simp only [false_iff, not_lt, l1]
    · have z2 : (2 : BitVec 2).toNat = 2 := rfl
      by_cases hu : (decide (r ≠ 0) && !sign) = true
      · simp only [z2, hu, if_true, a2]
        simp only [Bool.and_eq_true, decide_eq_true_eq, Bool.not_eq_true'] at hu
        refine ⟨trivial, by omega, by simp, by simp, fun _ => ?_, by simp, ?_, ?_⟩
        · simp only [hu.2, Bool.false_eq_true, if_false, l2.le]
        · simp only [decide_eq_true_eq, hu.1, n2, ne_eq, not_false_eq_true]
        · simp only [l2]
      · simp only [z2, hu, a1, Bool.false_eq_true, if_false]
        simp only [Bool.and_eq_true, decide_eq_true_eq, Bool.not_eq_true', not_and] at hu
        refine ⟨trivial, by omega, by simp, by simp, fun _ => ?_, by simp, ?_, ?_⟩
        · cases sign
          · have : r = 0 := by
              by_contra hr0
              exact hu hr0 rfl
            simp [this]
          · simp only [if_true, l1]
        · simp only [decide_eq_true_eq, n1]
        · simp only [false_iff, not_lt, l1]
    · have z3 : (3 : BitVec 2).toNat = 3 := rfl
      by_cases hu : (decide (r ≠ 0) && sign) = true
      · simp only [z3, hu, if_true, a2]
        simp only [Bool.and_eq_true, decide_eq_true_eq] at hu
        refine ⟨trivial, by omega, by simp, by simp, by simp, fun _ => ?_, ?_, ?_⟩
        · simp only [hu.2, if_true, l2.le]
        · simp only [decide_eq_true_eq, hu.1, n2, ne_eq, not_false_eq_true]
        · simp only [l2]
      · simp only [z3, hu, a1, Bool.false_eq_true, if_false]
        simp only [Bool.and_eq_true, decide_eq_true_eq, not_and, Bool.not_eq_true] at hu
        refine ⟨trivial, by omega, by simp, by simp, by simp, fun _ => ?_, ?_, ?_⟩
        · cases sign
          · simp only [Bool.false_eq_true, if_false, l1]
          · have : r = 0 := by
              by_contra hr0
              exact absurd (hu hr0) (by decide)
            simp [this]
        · simp only [decide_eq_true_eq, n1]
        · simp only [false_iff, not_lt, l1]

/-- A multiple of the unit is rounded to itself. -/
theorem roundsTo_exact (rn : BitVec 2) {u v : ℚ} {n : ℤ} (hu : 0 < u) (h : n * u = v) : RoundsTo rn u v n := by
  unfold RoundsTo
  rw [h]
  simp [hu, hu.le, hu.ne]

/-- Rounding m * 2^e to a multiple of 2^t, as numbers. -/
theorem roundAt_rounds (rn : BitVec 2) (sign : Bool) (m : ℕ) (e t : ℤ) :
    let r := roundAt rn sign m e t
    let u : ℚ := 2 ^ t
    let x : ℚ := m * 2 ^ e
    r.t = t ∧ RoundsTo rn u (withSign sign x) (if sign then -(r.q : ℤ) else r.q) ∧
      (r.inexact = true ↔ r.q * u ≠ x) ∧ (r.up = true ↔ x < r.q * u) := by
  intro r u x
  have hu : 0 < u := zpow_pos two_pos t
  have hx : (((if sign then -(r.q : ℤ) else r.q) : ℤ) : ℚ) * u = withSign sign (r.q * u) := by
    unfold withSign
    split <;> push_cast <;> ring
  by_cases h : t ≤ e
  · have hr : r = { q := m <<< (e - t).toNat, t := t, inexact := false, up := false } := by
      show roundAt rn sign m e t = _
      unfold roundAt
      rw [if_pos h]
    have hq : (r.q : ℚ) * u = x := by
      rw [hr]
      simp only [Nat.shiftLeft_eq]
      push_cast
      rw [mul_assoc, ← zpow_natCast, ← zpow_add₀ (two_ne_zero' ℚ), show ((e - t).toNat : ℤ) + t = e by omega]
    refine ⟨by rw [hr], roundsTo_exact rn hu (hx.trans (by rw [hq])), ?_, ?_⟩
    · rw [hq, hr]
      simp
    · rw [hq, hr]
      simp
  · obtain ⟨k, hk⟩ : ∃ k : ℕ, t = e + k := ⟨(t - e).toNat, by omega⟩
    obtain ⟨h1, h2, h3, h4, h5, h6, h7, h8⟩ := roundAt_nat rn sign m k e t hk
    have hc : (0 : ℚ) < 2 ^ e := zpow_pos two_pos e
    have hd : u = (((2 : ℤ) ^ k : ℤ) : ℚ) * 2 ^ e := by
      show (2 : ℚ) ^ t = _
      rw [hk, zpow_add₀ (two_ne_zero' ℚ), zpow_natCast]
      push_cast
      ring
    have hqu : (r.q : ℚ) * u = ((r.q * 2 ^ k : ℤ) : ℚ) * 2 ^ e := by
      rw [hd]
      push_cast
      ring
    have hxz : x = ((m : ℤ) : ℚ) * 2 ^ e := by push_cast; rfl
    have hle (a b : ℤ) : ((a : ℚ) * 2 ^ e ≤ b * 2 ^ e) ↔ a ≤ b := by
      rw [mul_le_mul_iff_left₀ hc, Int.cast_le]
    have hlt (a b : ℤ) : ((a : ℚ) * 2 ^ e < b * 2 ^ e) ↔ a < b := by
      rw [mul_lt_mul_iff_left₀ hc, Int.cast_lt]
    have heq (a b : ℤ) : ((a : ℚ) * 2 ^ e = b * 2 ^ e) ↔ a = b := by
      rw [mul_left_inj' hc.ne', Int.cast_inj]
    have habs : |withSign sign (r.q * u) - withSign sign x| = ((|r.q * 2 ^ k - m| : ℤ) : ℚ) * 2 ^ e := by
      have : |withSign sign (r.q * u) - withSign sign x| = |r.q * u - x| := by
        unfold withSign
        split
        · rw [← abs_neg]
          congr 1
          ring
        · rfl
      rw [this, hqu, hxz, ← sub_mul, abs_mul, abs_of_pos hc, ← Int.cast_sub, Int.cast_abs]
    refine ⟨h1, ⟨?_, ?_, ?_, ?_, ?_⟩, ?_, ?_⟩
    · rw [hx, habs, hd, hlt]
      exact h2
    · intro hrn
      have h2z (z : ℤ) : 2 * ((z : ℚ) * 2 ^ e) = ((2 * z : ℤ) : ℚ) * 2 ^ e := by
        push_cast
        ring
      rw [hx, habs, hd, h2z, hle, heq]
      obtain ⟨g1, g2⟩ := h3 hrn
      refine ⟨g1, fun g => ?_⟩
      have h2r : (2 : ℤ) ∣ r.q := Int.natCast_dvd_natCast.2 (g2 g)
      split
      · exact (dvd_neg).2 h2r
      · exact h2r
    · intro hrn
      rw [hx, abs_withSign, abs_withSign, abs_of_nonneg (by positivity), abs_of_nonneg (by positivity), hqu, hxz, hle]
      exact h4 hrn
    · intro hrn
      rw [hx]
      have := h5 hrn
      unfold withSign
      cases sign
      · simp only [Bool.false_eq_true, if_false] at this ⊢
        rw [hqu, hxz, hle]
        exact this
      · simp only [if_true] at this ⊢
        rw [neg_le_neg_iff, hqu, hxz, hle]
        exact this
    · intro hrn
      rw [hx]
      have := h6 hrn
      unfold withSign
      cases sign
      · simp only [Bool.false_eq_true, if_false] at this ⊢
        rw [hqu, hxz, hle]
        exact this
      · simp only [if_true] at this ⊢
        rw [neg_le_neg_iff, hqu, hxz, hle]
        exact this
    · rw [hqu, hxz, Ne, heq]
      exact h7
    · rw [hqu, hxz, hlt]
      exact h8

/-! ### Delivering a finite result -/

/-- The exponent of a number. -/
theorem log2_bounds {m : ℕ} (hm : m ≠ 0) (e : ℤ) :
    (2 : ℚ) ^ (e + Nat.log2 m) ≤ m * 2 ^ e ∧ (m : ℚ) * 2 ^ e < 2 ^ (e + Nat.log2 m + 1) := by
  have hc : (0 : ℚ) < 2 ^ e := zpow_pos two_pos e
  have hl : (2 : ℚ) ^ Nat.log2 m ≤ m := by exact_mod_cast Nat.log2_self_le hm
  have hu : (m : ℚ) < 2 ^ (Nat.log2 m + 1) := by exact_mod_cast Nat.lt_log2_self
  constructor
  · rw [zpow_add₀ (two_ne_zero' ℚ), zpow_natCast, mul_comm]
    exact mul_le_mul_of_nonneg_right hl hc.le
  · rw [add_assoc, zpow_add₀ (two_ne_zero' ℚ), mul_comm]
    have : ((2 : ℚ) ^ ((Nat.log2 m : ℤ) + 1)) = 2 ^ (Nat.log2 m + 1) := by
      rw [← zpow_natCast]
      push_cast
      rfl
    rw [this]
    exact mul_lt_mul_of_pos_left hu hc

/-- The model's format and the format of the claims. -/
structure FpFormat.Is (fmt : FpFormat) (g : FloatFormat) : Prop where
  p    : fmt.p = g.p
  emin : fmt.emin = g.emin
  emax : fmt.emax = g.emax
  bits : 2 ≤ g.p ∧ g.p ≤ 53
  low  : -1022 ≤ g.emin
  high : g.emax ≤ 1023

theorem fpDouble_is : fpDouble.Is doubleFormat := ⟨rfl, rfl, rfl, by decide, by decide, by decide⟩
theorem fpSingle_is : fpSingle.Is singleFormat := ⟨rfl, rfl, rfl, by decide, by decide, by decide⟩

/-- A number in the normal range is delivered rounded, and raises no exception but inexact. -/
theorem deliver_rounds {fmt : FpFormat} {g : FloatFormat} (hg : fmt.Is g) (f : Word) (sign : Bool) {m : ℕ} (hm : m ≠ 0)
    (e : ℤ) (hv : InRange g ((m : ℚ) * 2 ^ e)) :
    ∃ d inexact up, deliver fmt f sign m e =
        { exc := if inexact then fpXX else 0, res := some d, kind := .normal, fr := some up, fi := inexact } ∧
      isFinite d ∧ d.msb = sign ∧ RoundsToBits g.p (f.setWidth 2) (withSign sign (m * 2 ^ e)) (valueOf d) ∧
      (inexact = true ↔ valueOf d ≠ withSign sign (m * 2 ^ e)) ∧
      (up = true ↔ |withSign sign ((m : ℚ) * 2 ^ e)| < |valueOf d|) := by
  obtain ⟨hp2, hp53⟩ := hg.bits
  obtain ⟨hv1, hv2⟩ := hv
  obtain ⟨hb1, hb2⟩ := log2_bounds hm e
  have hpos : (0 : ℚ) < m * 2 ^ e := lt_of_lt_of_le (zpow_pos two_pos _) hb1
  rw [abs_of_pos hpos] at hv1 hv2
  set x : ℤ := e + Nat.log2 m with hx
  have hxmin : g.emin ≤ x := by
    have := lt_of_le_of_lt hv1 hb2
    rw [zpow_lt_zpow_iff_right₀ one_lt_two] at this
    omega
  obtain ⟨p, hpp⟩ : ∃ p, g.p = p + 1 := ⟨g.p - 1, by omega⟩
  have hunit : x - ((g.p : ℤ) - 1) = x - p := by omega
  set u : ℚ := 2 ^ (x - p : ℤ) with hu
  have hupos : 0 < u := zpow_pos two_pos _
  have hxu : (2 : ℚ) ^ x = 2 ^ p * u := by
    rw [hu, ← zpow_natCast, ← zpow_add₀ (two_ne_zero' ℚ)]
    congr 1
    omega
  obtain ⟨ht, hr, hin, hup⟩ := roundAt_rounds (f.setWidth 2) sign m e (x - p)
  set r := roundAt (f.setWidth 2) sign m e (x - p) with hrdef
  have hdist : |(r.q : ℚ) * u - m * 2 ^ e| < u := by
    have := hr.1
    rw [show (((if sign then -(r.q : ℤ) else r.q) : ℤ) : ℚ) * u - withSign sign (m * 2 ^ e) =
      withSign sign (r.q * u - m * 2 ^ e) by unfold withSign; split <;> push_cast <;> ring, abs_withSign] at this
    exact this
  rw [abs_lt] at hdist
  have hqlo : 2 ^ p ≤ r.q := by
    have : (2 ^ p : ℚ) * u < (r.q + 1) * u := by linarith
    have := lt_of_mul_lt_mul_right this hupos.le
    have : 2 ^ p < r.q + 1 := by exact_mod_cast this
    omega
  have hqhi : r.q ≤ 2 ^ (p + 1) := by
    have h2 : (2 : ℚ) ^ (x + 1) = 2 ^ (p + 1) * u := by
      rw [zpow_add₀ (two_ne_zero' ℚ), hxu, zpow_one, pow_succ]
      ring
    have : (r.q : ℚ) * u < (2 ^ (p + 1) + 1) * u := by linarith
    have := lt_of_mul_lt_mul_right this hupos.le
    have : r.q < 2 ^ (p + 1) + 1 := by exact_mod_cast this
    omega
  have hq0 : r.q ≠ 0 := by
    have : 0 < 2 ^ p := by positivity
    omega
  have hlog1 : p ≤ Nat.log2 r.q := (Nat.le_log2 hq0).2 hqlo
  have hlog2 : Nat.log2 r.q ≤ p + 1 := by
    have h1 := Nat.log2_self_le hq0
    by_contra hc
    have : 2 ^ (p + 2) ≤ 2 ^ Nat.log2 r.q := Nat.pow_le_pow_right (by decide) (by omega)
    have : 2 ^ (p + 1) < 2 ^ (p + 2) := Nat.pow_lt_pow_right (by decide) (by omega)
    omega
  have hxmax : r.t + Nat.log2 r.q ≤ g.emax := by
    have hlt : (m : ℚ) * 2 ^ e < 2 ^ (g.emax + 1) := by
      have h1 : (0 : ℚ) < 2 ^ (1 - (g.p : ℤ)) := zpow_pos two_pos _
      have h2 : (0 : ℚ) < 2 ^ g.emax := zpow_pos two_pos _
      calc (m : ℚ) * 2 ^ e ≤ (2 - 2 ^ (1 - (g.p : ℤ))) * 2 ^ g.emax := hv2
        _ < 2 * 2 ^ g.emax := by
          apply mul_lt_mul_of_pos_right _ h2
          linarith
        _ = 2 ^ (g.emax + 1) := by rw [zpow_add₀ (two_ne_zero' ℚ), zpow_one, mul_comm]
    have hxle : x ≤ g.emax := by
      have := lt_of_le_of_lt hb1 hlt
      rw [zpow_lt_zpow_iff_right₀ one_lt_two] at this
      omega
    rw [ht]
    by_contra hc
    have hxe : x = g.emax := by omega
    have hl : Nat.log2 r.q = p + 1 := by omega
    have hqe : r.q = 2 ^ (p + 1) := by
      have := Nat.log2_self_le hq0
      rw [hl] at this
      omega
    have hmax : (2 - 2 ^ (1 - (g.p : ℤ))) * (2 : ℚ) ^ g.emax = 2 ^ (p + 1) * u - u := by
      rw [← hxe, hxu, show (1 - (g.p : ℤ)) = -(p : ℤ) by omega, zpow_neg, zpow_natCast]
      field_simp
      ring
    have : (2 ^ (p + 1) : ℚ) * u - m * 2 ^ e < u := by
      have := hdist.2
      rw [hqe] at this
      push_cast at this
      exact this
    linarith
  have hq53 : r.q ≤ 2 ^ 53 := le_trans hqhi (Nat.pow_le_pow_right (by decide) (by omega))
  obtain ⟨hval, hfin, hmsb⟩ := valueOf_packDouble sign (t := r.t) hq0 hq53 (by have := hg.low; omega)
    (by have := hg.high; omega)
  refine ⟨packDouble sign r.q r.t, r.inexact, r.up, ?_, hfin, hmsb, ?_, ?_, ?_⟩
  · unfold deliver
    simp only
    rw [hg.p, hg.emax, hg.emin, ← hx, hunit, ← hrdef, if_neg (by omega), if_neg (by omega)]
  · refine ⟨x, if sign then -(r.q : ℤ) else r.q, ?_, ?_, ?_, ?_⟩
    · rw [abs_withSign, abs_of_pos hpos]
      exact hb1
    · rw [abs_withSign, abs_of_pos hpos]
      exact hb2
    · rw [hval, ht, hunit]
      unfold withSign
      split <;> push_cast <;> ring
    · rw [hunit]
      exact hr
  · rw [hin, hval, ht]
    unfold withSign
    split
    · rw [Ne, Ne, neg_inj]
    · rfl
  · rw [hup, hval, ht, abs_withSign, abs_withSign, abs_of_pos hpos, abs_of_nonneg (by positivity)]

end Sys2Proof.Machine
end

