-- ==== Sys2Proof/Laws/Integer.lean ====
section
/-! SUPPORT. The ends that integer instructions share: the state that each leaves, said once. -/

namespace Sys2Proof.Machine

/-! ### Updates of XER and CR in a state -/

@[simp] theorem State.setCa_eq (c : Bool) (s : State) : s.setCa c = s.setXer (withCa c s.xer) := rfl

@[simp] theorem State.setOv_xer (oe v : Bool) (s : State) :
    (s.setOv oe v).xer = if oe then withOv v s.xer else s.xer := by cases oe <;> rfl

theorem State.setOv_eq (oe v : Bool) (s : State) : s.setOv oe v = s.setXer (s.setOv oe v).xer := by cases oe <;> rfl

theorem State.record_eq (rc : Bool) (res : Word) (s : State) : s.record rc res = s.setCr (s.record rc res).cr := by
  cases rc <;> rfl

/-- The state that a completed instruction leaves when it wrote a register, XER and CR. -/
def State.wrote (rD : BitVec 5) (v xer cr : Word) (s : State) : State :=
  { s with gpr := s.gpr.set rD.toNat v rD.isLt, xer := xer, cr := cr, pc := s.pc + 4,
           log := { s.log with completed := true } }

/-- CR after a record form. -/
def recordedCr (rc : Bool) (res xer cr : Word) : Word :=
  if rc then withCrField 0 (compareSigned res 0 (bit xer 32)) cr else cr

/-- XER after OE. -/
def overflowedXer (oe ov : Bool) (xer : Word) : Word := if oe then withOv ov xer else xer

/-- What the end of an arithmetic instruction leaves. -/
theorem State.arith_eq (rD : BitVec 5) (res : Word) (ov oe rc : Bool) (s : State) :
    s.arith rD res ov oe rc =
      .next (s.wrote rD res (overflowedXer oe ov s.xer) (recordedCr rc res (overflowedXer oe ov s.xer) s.cr)) := by
  cases oe <;> cases rc <;> rfl

/-- What the end of an instruction that records a carry leaves. -/
theorem State.sumCa_eq (rD : BitVec 5) (x : Sum) (oe rc : Bool) (s : State) :
    s.sumCa rD x oe rc =
      .next (s.wrote rD x.res (overflowedXer oe x.ov (withCa x.ca s.xer))
        (recordedCr rc x.res (overflowedXer oe x.ov (withCa x.ca s.xer)) s.cr)) := by
  cases oe <;> cases rc <;> rfl

/-- What the end of a logical instruction leaves. -/
theorem State.logical_eq (rA : BitVec 5) (res : Word) (rc : Bool) (s : State) :
    s.logical rA res rc = .next (s.wrote rA res s.xer (recordedCr rc res s.xer s.cr)) := by
  cases rc <;> rfl

/-- What the end of an algebraic right shift leaves. -/
theorem State.shiftAlgebraic_eq (rA : BitVec 5) (v : Word) (n : Nat) (rc : Bool) (s : State) :
    s.shiftAlgebraic rA v n rc =
      .next (s.wrote rA (v.sshiftRight n) (withCa (shiftCa v n) s.xer)
        (recordedCr rc (v.sshiftRight n) (withCa (shiftCa v n) s.xer) s.cr)) := by
  cases rc <;> rfl

@[simp] theorem State.wrote_getGpr (rD q : BitVec 5) (v xer cr : Word) (s : State) :
    (s.wrote rD v xer cr).getGpr q = if q = rD then v else s.getGpr q := State.getGpr_setGpr s rD q v

/-- An instruction that wrote one register and some bits of XER and CR kept everything else. -/
theorem State.wrote_keeps {rD : BitVec 5} {v xer cr mx mc : Word} {s : State} (hx : agreeBut mx xer s.xer)
    (hc : agreeBut mc cr s.cr) : Keeps { gprs := [rD], xer := mx, cr := mc } s (s.wrote rD v xer cr) where
  gprs r hr := by
    rw [State.wrote_getGpr, if_neg]
    simpa using hr
  fprs _ _ := rfl
  cr := hc
  xer := hx
  fpscr := rfl
  lr _ := rfl
  ctr _ := rfl
  msr _ := rfl
  cache _ := rfl
  mmu _ := rfl
  hid _ := rfl
  pm _ := rfl
  ctl := rfl
  int := rfl
  sprgs := rfl
  tim := rfl
  dbg := rfl
  env := rfl
  map := rfl

/-! ### The flags that those ends leave -/

theorem agreeBut_recordedCr (rc : Bool) (res xer cr : Word) : agreeBut (rcMask rc) (recordedCr rc res xer cr) cr := by
  cases rc
  · exact agreeBut_refl _ _
  · exact agreeBut_withCrField 0 _ _

theorem agreeBut_overflowedXer (oe ov : Bool) (xer : Word) : agreeBut (oeMask oe) (overflowedXer oe ov xer) xer := by
  cases oe
  · exact agreeBut_refl _ _
  · exact agreeBut_withOv _ _

/-- CR0 after a record form. -/
theorem records_wrote (rc : Bool) (rD : BitVec 5) (v xer : Word) (s : State) :
    Records rc v (s.wrote rD v xer (recordedCr rc v xer s.cr)) := by
  rintro rfl
  have h := fun k => bit_withCrField 0 (compareSigned v 0 (bit xer 32)) s.cr k
  obtain ⟨h3, h2, h1, h0⟩ := compareBits_bits (v.slt 0) ((0 : Word).slt v) (v == 0) (bit xer 32)
  refine ⟨?_, ?_, ?_, ?_⟩
  · exact (congrArg (· = true) ((h 0).trans h3)).to_iff.trans (by simp [BitVec.slt])
  · exact (congrArg (· = true) ((h 1).trans h2)).to_iff.trans (by simp [BitVec.slt])
  · exact (congrArg (· = true) ((h 2).trans h1)).to_iff.trans (by simp [← BitVec.toInt_inj])
  · exact (congrArg (· = true) ((h 3).trans h0)).to_iff

/-- OV and SO after an instruction with OE. -/
theorem overflows_wrote (oe ov : Bool) (rD : BitVec 5) (v xer cr : Word) (s : State) (h : bit xer 32 = bit s.xer 32) :
    Overflows oe (ov = true) s (s.wrote rD v (overflowedXer oe ov xer) cr) := by
  rintro rfl
  constructor
  · show bit (withOv ov xer) 33 = true ↔ _
    rw [ov_withOv]
  · show bit (withOv ov xer) 32 = true ↔ _
    rw [so_withOv, h]
    simp

end Sys2Proof.Machine
end

