-- ==== Sys2Proof/Laws/PerInstr.lean ====
section
/-! SUPPORT. The family Opcode: every instruction encodes under the primary opcode that its row of the table has
(30_encoding.md). -/

namespace Sys2Proof.Laws.Opcode

/-- The primary opcode, bits 0 to 5 of the word, of each row of the opcode table. -/
def primary : Instr → BitVec 6
  | .twi .. => 3
  | .mulli .. => 7
  | .subfic .. => 8
  | .cmpli .. => 10
  | .cmpi .. => 11
  | .addic .. => 12
  | .addicDot .. => 13
  | .addi .. => 14
  | .addis .. => 15
  | .bc .. => 16
  | .sc .. => 17
  | .b .. => 18
  | .mcrf .. | .bclr .. | .crnor .. | .rfmci | .rfdi | .rfi | .rfci | .rfgi | .crandc .. | .isync | .crxor ..
  | .dnh .. | .crnand .. | .crand .. | .creqv .. | .crorc .. | .cror .. | .bcctr .. => 19
  | .rlwimi .. => 20
  | .rlwinm .. => 21
  | .rlwnm .. => 23
  | .ori .. => 24
  | .oris .. => 25
  | .xori .. => 26
  | .xoris .. => 27
  | .andiDot .. => 28
  | .andisDot .. => 29
  | .cmp .. | .tw .. | .subfc .. | .addc .. | .mulhwu .. | .isel .. | .tlbilx .. | .mfcr .. | .mfocrf ..
  | .lwarx .. | .icbt .. | .lwzx .. | .slw .. | .cntlzw .. | .and .. | .lwepx .. | .cmpl .. | .subf ..
  | .dcbst .. | .lwzux .. | .andc .. | .wait .. | .dcbstep .. | .mulhw .. | .mfmsr .. | .dcbf .. | .lbzx ..
  | .lbepx .. | .neg .. | .lbzux .. | .nor .. | .dcbfep .. | .wrtee .. | .dcbtstls .. | .subfe .. | .adde ..
  | .mtcrf .. | .mtocrf .. | .mtmsr .. | .stwcxDot .. | .stwx .. | .stwepx .. | .wrteei .. | .dcbtls ..
  | .stwux .. | .subfze .. | .addze .. | .msgsnd .. | .stbx .. | .stbepx .. | .icblc .. | .subfme ..
  | .addme .. | .mullw .. | .msgclr .. | .dcbtst .. | .stbux .. | .dcbtstep .. | .add .. | .ehpriv ..
  | .dcbt .. | .lhzx .. | .eqv .. | .lhepx .. | .lhzux .. | .xor .. | .dcbtep .. | .mfpmr .. | .mfspr ..
  | .lhax .. | .mftb .. | .lhaux .. | .dcblc .. | .sthx .. | .orc .. | .sthepx .. | .sthux .. | .or ..
  | .divwu .. | .mtpmr .. | .mtspr .. | .dcbi .. | .nand .. | .dsn .. | .icbtls .. | .divw .. | .mcrxr ..
  | .lbdx .. | .lwbrx .. | .lfsx .. | .srw .. | .lhdx .. | .tlbsync | .lfsux .. | .lwdx .. | .sync ..
  | .lfdx .. | .lfdepx .. | .lfdux .. | .stbdx .. | .stwbrx .. | .stfsx .. | .sthdx .. | .stfsux .. | .stwdx ..
  | .stfdx .. | .stfdepx .. | .dcba .. | .dcbal .. | .stfdux .. | .tlbivax .. | .lhbrx .. | .sraw ..
  | .lfddx .. | .srawi .. | .mbar .. | .tlbsx .. | .sthbrx .. | .extsh .. | .stfddx .. | .tlbre | .extsb ..
  | .tlbwe | .icbi .. | .stfiwx .. | .icbiep .. | .dcbz .. | .dcbzl .. | .dcbzep .. | .dcbzlep .. => 31
  | .lwz .. => 32
  | .lwzu .. => 33
  | .lbz .. => 34
  | .lbzu .. => 35
  | .stw .. => 36
  | .stwu .. => 37
  | .stb .. => 38
  | .stbu .. => 39
  | .lhz .. => 40
  | .lhzu .. => 41
  | .lha .. => 42
  | .lhau .. => 43
  | .sth .. => 44
  | .sthu .. => 45
  | .lmw .. => 46
  | .stmw .. => 47
  | .lfs .. => 48
  | .lfsu .. => 49
  | .lfd .. => 50
  | .lfdu .. => 51
  | .stfs .. => 52
  | .stfsu .. => 53
  | .stfd .. => 54
  | .stfdu .. => 55
  | .fdivs .. | .fsubs .. | .fadds .. | .fres .. | .fmuls .. | .fmsubs .. | .fmadds .. | .fnmsubs ..
  | .fnmadds .. => 59
  | .fcmpu .. | .frsp .. | .fctiw .. | .fctiwz .. | .fdiv .. | .fsub .. | .fadd .. | .fsel .. | .fmul ..
  | .frsqrte .. | .fmsub .. | .fmadd .. | .fnmsub .. | .fnmadd .. | .fcmpo .. | .mtfsb1 .. | .fneg ..
  | .mcrfs .. | .mtfsb0 .. | .fmr .. | .mtfsfi .. | .fnabs .. | .fabs .. | .mffs .. | .mtfsf .. => 63

/-- The primary opcode of an encoded instruction is the table's. -/
def Statement (i : Instr) : Prop := fldOp (encode i) = primary i

theorem twi (tO : BitVec 5) (rA : Gpr) (simm : BitVec 16) : Statement (.twi tO rA simm) := fldOp_encD ..
theorem mulli (rD : Gpr) (rA : Gpr) (simm : BitVec 16) : Statement (.mulli rD rA simm) := fldOp_encD ..
theorem subfic (rD : Gpr) (rA : Gpr) (simm : BitVec 16) : Statement (.subfic rD rA simm) := fldOp_encD ..
theorem cmpli (crfD : BitVec 3) (l : BitVec 1) (rA : Gpr) (uimm : BitVec 16) : Statement (.cmpli crfD l rA uimm) := fldOp_encD ..
theorem cmpi (crfD : BitVec 3) (l : BitVec 1) (rA : Gpr) (simm : BitVec 16) : Statement (.cmpi crfD l rA simm) := fldOp_encD ..
theorem addic (rD : Gpr) (rA : Gpr) (simm : BitVec 16) : Statement (.addic rD rA simm) := fldOp_encD ..
theorem addicDot (rD : Gpr) (rA : Gpr) (simm : BitVec 16) : Statement (.addicDot rD rA simm) := fldOp_encD ..
theorem addi (rD : Gpr) (rA : Gpr) (simm : BitVec 16) : Statement (.addi rD rA simm) := fldOp_encD ..
theorem addis (rD : Gpr) (rA : Gpr) (simm : BitVec 16) : Statement (.addis rD rA simm) := fldOp_encD ..
theorem bc (bo : BitVec 5) (bi : BitVec 5) (bd : BitVec 14) (aa : Bool) (lk : Bool) : Statement (.bc bo bi bd aa lk) := fldOp_encB ..
theorem sc (lev : BitVec 7) : Statement (.sc lev) := fldOp_encSc ..
theorem b (li : BitVec 24) (aa : Bool) (lk : Bool) : Statement (.b li aa lk) := fldOp_encI ..
theorem mcrf (crfD : BitVec 3) (crfS : BitVec 3) : Statement (.mcrf crfD crfS) := fldOp_encX ..
theorem bclr (bo : BitVec 5) (bi : BitVec 5) (bh : BitVec 2) (lk : Bool) : Statement (.bclr bo bi bh lk) := fldOp_encX ..
theorem crnor (crbD : BitVec 5) (crbA : BitVec 5) (crbB : BitVec 5) : Statement (.crnor crbD crbA crbB) := fldOp_encX ..
theorem rfmci : Statement .rfmci := fldOp_encX ..
theorem rfdi : Statement .rfdi := fldOp_encX ..
theorem rfi : Statement .rfi := fldOp_encX ..
theorem rfci : Statement .rfci := fldOp_encX ..
theorem rfgi : Statement .rfgi := fldOp_encX ..
theorem crandc (crbD : BitVec 5) (crbA : BitVec 5) (crbB : BitVec 5) : Statement (.crandc crbD crbA crbB) := fldOp_encX ..
theorem isync : Statement .isync := fldOp_encX ..
theorem crxor (crbD : BitVec 5) (crbA : BitVec 5) (crbB : BitVec 5) : Statement (.crxor crbD crbA crbB) := fldOp_encX ..
theorem dnh (dui : BitVec 5) (duis : BitVec 10) : Statement (.dnh dui duis) := fldOp_encDnh ..
theorem crnand (crbD : BitVec 5) (crbA : BitVec 5) (crbB : BitVec 5) : Statement (.crnand crbD crbA crbB) := fldOp_encX ..
theorem crand (crbD : BitVec 5) (crbA : BitVec 5) (crbB : BitVec 5) : Statement (.crand crbD crbA crbB) := fldOp_encX ..
theorem creqv (crbD : BitVec 5) (crbA : BitVec 5) (crbB : BitVec 5) : Statement (.creqv crbD crbA crbB) := fldOp_encX ..
theorem crorc (crbD : BitVec 5) (crbA : BitVec 5) (crbB : BitVec 5) : Statement (.crorc crbD crbA crbB) := fldOp_encX ..
theorem cror (crbD : BitVec 5) (crbA : BitVec 5) (crbB : BitVec 5) : Statement (.cror crbD crbA crbB) := fldOp_encX ..
theorem bcctr (bo : BitVec 5) (bi : BitVec 5) (bh : BitVec 2) (lk : Bool) : Statement (.bcctr bo bi bh lk) := fldOp_encX ..
theorem rlwimi (rS : Gpr) (rA : Gpr) (sh : BitVec 5) (mb : BitVec 5) (me : BitVec 5) (rc : Bool) : Statement (.rlwimi rS rA sh mb me rc) := fldOp_encA ..
theorem rlwinm (rS : Gpr) (rA : Gpr) (sh : BitVec 5) (mb : BitVec 5) (me : BitVec 5) (rc : Bool) : Statement (.rlwinm rS rA sh mb me rc) := fldOp_encA ..
theorem rlwnm (rS : Gpr) (rA : Gpr) (rB : Gpr) (mb : BitVec 5) (me : BitVec 5) (rc : Bool) : Statement (.rlwnm rS rA rB mb me rc) := fldOp_encA ..
theorem ori (rS : Gpr) (rA : Gpr) (uimm : BitVec 16) : Statement (.ori rS rA uimm) := fldOp_encD ..
theorem oris (rS : Gpr) (rA : Gpr) (uimm : BitVec 16) : Statement (.oris rS rA uimm) := fldOp_encD ..
theorem xori (rS : Gpr) (rA : Gpr) (uimm : BitVec 16) : Statement (.xori rS rA uimm) := fldOp_encD ..
theorem xoris (rS : Gpr) (rA : Gpr) (uimm : BitVec 16) : Statement (.xoris rS rA uimm) := fldOp_encD ..
theorem andiDot (rS : Gpr) (rA : Gpr) (uimm : BitVec 16) : Statement (.andiDot rS rA uimm) := fldOp_encD ..
theorem andisDot (rS : Gpr) (rA : Gpr) (uimm : BitVec 16) : Statement (.andisDot rS rA uimm) := fldOp_encD ..
theorem cmp (crfD : BitVec 3) (l : BitVec 1) (rA : Gpr) (rB : Gpr) : Statement (.cmp crfD l rA rB) := fldOp_encX ..
theorem tw (tO : BitVec 5) (rA : Gpr) (rB : Gpr) : Statement (.tw tO rA rB) := fldOp_encX ..
theorem subfc (rD : Gpr) (rA : Gpr) (rB : Gpr) (oe : Bool) (rc : Bool) : Statement (.subfc rD rA rB oe rc) := fldOp_encXo ..
theorem addc (rD : Gpr) (rA : Gpr) (rB : Gpr) (oe : Bool) (rc : Bool) : Statement (.addc rD rA rB oe rc) := fldOp_encXo ..
theorem mulhwu (rD : Gpr) (rA : Gpr) (rB : Gpr) (rc : Bool) : Statement (.mulhwu rD rA rB rc) := fldOp_encXo ..
theorem isel (rD : Gpr) (rA : Gpr) (rB : Gpr) (crbC : BitVec 5) : Statement (.isel rD rA rB crbC) := fldOp_encA ..
theorem tlbilx (t : BitVec 2) (rA : Gpr) (rB : Gpr) : Statement (.tlbilx t rA rB) := fldOp_encX ..
theorem mfcr (rD : Gpr) : Statement (.mfcr rD) := fldOp_encCrm ..
theorem mfocrf (rD : Gpr) (crm : BitVec 8) : Statement (.mfocrf rD crm) := fldOp_encCrm ..
theorem lwarx (rD : Gpr) (rA : Gpr) (rB : Gpr) : Statement (.lwarx rD rA rB) := fldOp_encX ..
theorem icbt (ct : BitVec 4) (rA : Gpr) (rB : Gpr) : Statement (.icbt ct rA rB) := fldOp_encX ..
theorem lwzx (rD : Gpr) (rA : Gpr) (rB : Gpr) : Statement (.lwzx rD rA rB) := fldOp_encX ..
theorem slw (rS : Gpr) (rA : Gpr) (rB : Gpr) (rc : Bool) : Statement (.slw rS rA rB rc) := fldOp_encX ..
theorem cntlzw (rS : Gpr) (rA : Gpr) (rc : Bool) : Statement (.cntlzw rS rA rc) := fldOp_encX ..
theorem and (rS : Gpr) (rA : Gpr) (rB : Gpr) (rc : Bool) : Statement (.and rS rA rB rc) := fldOp_encX ..
theorem lwepx (rD : Gpr) (rA : Gpr) (rB : Gpr) : Statement (.lwepx rD rA rB) := fldOp_encX ..
theorem cmpl (crfD : BitVec 3) (l : BitVec 1) (rA : Gpr) (rB : Gpr) : Statement (.cmpl crfD l rA rB) := fldOp_encX ..
theorem subf (rD : Gpr) (rA : Gpr) (rB : Gpr) (oe : Bool) (rc : Bool) : Statement (.subf rD rA rB oe rc) := fldOp_encXo ..
theorem dcbst (rA : Gpr) (rB : Gpr) : Statement (.dcbst rA rB) := fldOp_encX ..
theorem lwzux (rD : Gpr) (rA : Gpr) (rB : Gpr) : Statement (.lwzux rD rA rB) := fldOp_encX ..
theorem andc (rS : Gpr) (rA : Gpr) (rB : Gpr) (rc : Bool) : Statement (.andc rS rA rB rc) := fldOp_encX ..
theorem wait (wc : BitVec 2) : Statement (.wait wc) := fldOp_encX ..
theorem dcbstep (rA : Gpr) (rB : Gpr) : Statement (.dcbstep rA rB) := fldOp_encX ..
theorem mulhw (rD : Gpr) (rA : Gpr) (rB : Gpr) (rc : Bool) : Statement (.mulhw rD rA rB rc) := fldOp_encXo ..
theorem mfmsr (rD : Gpr) : Statement (.mfmsr rD) := fldOp_encX ..
theorem dcbf (rA : Gpr) (rB : Gpr) : Statement (.dcbf rA rB) := fldOp_encX ..
theorem lbzx (rD : Gpr) (rA : Gpr) (rB : Gpr) : Statement (.lbzx rD rA rB) := fldOp_encX ..
theorem lbepx (rD : Gpr) (rA : Gpr) (rB : Gpr) : Statement (.lbepx rD rA rB) := fldOp_encX ..
theorem neg (rD : Gpr) (rA : Gpr) (oe : Bool) (rc : Bool) : Statement (.neg rD rA oe rc) := fldOp_encXo ..
theorem lbzux (rD : Gpr) (rA : Gpr) (rB : Gpr) : Statement (.lbzux rD rA rB) := fldOp_encX ..
theorem nor (rS : Gpr) (rA : Gpr) (rB : Gpr) (rc : Bool) : Statement (.nor rS rA rB rc) := fldOp_encX ..
theorem dcbfep (rA : Gpr) (rB : Gpr) : Statement (.dcbfep rA rB) := fldOp_encX ..
theorem wrtee (rS : Gpr) : Statement (.wrtee rS) := fldOp_encX ..
theorem dcbtstls (ct : BitVec 4) (rA : Gpr) (rB : Gpr) : Statement (.dcbtstls ct rA rB) := fldOp_encX ..
theorem subfe (rD : Gpr) (rA : Gpr) (rB : Gpr) (oe : Bool) (rc : Bool) : Statement (.subfe rD rA rB oe rc) := fldOp_encXo ..
theorem adde (rD : Gpr) (rA : Gpr) (rB : Gpr) (oe : Bool) (rc : Bool) : Statement (.adde rD rA rB oe rc) := fldOp_encXo ..
theorem mtcrf (rS : Gpr) (crm : BitVec 8) : Statement (.mtcrf rS crm) := fldOp_encCrm ..
theorem mtocrf (rS : Gpr) (crm : BitVec 8) : Statement (.mtocrf rS crm) := fldOp_encCrm ..
theorem mtmsr (rS : Gpr) : Statement (.mtmsr rS) := fldOp_encX ..
theorem stwcxDot (rS : Gpr) (rA : Gpr) (rB : Gpr) : Statement (.stwcxDot rS rA rB) := fldOp_encX ..
theorem stwx (rS : Gpr) (rA : Gpr) (rB : Gpr) : Statement (.stwx rS rA rB) := fldOp_encX ..
theorem stwepx (rS : Gpr) (rA : Gpr) (rB : Gpr) : Statement (.stwepx rS rA rB) := fldOp_encX ..
theorem wrteei (e : Bool) : Statement (.wrteei e) := fldOp_encX ..
theorem dcbtls (ct : BitVec 4) (rA : Gpr) (rB : Gpr) : Statement (.dcbtls ct rA rB) := fldOp_encX ..
theorem stwux (rS : Gpr) (rA : Gpr) (rB : Gpr) : Statement (.stwux rS rA rB) := fldOp_encX ..
theorem subfze (rD : Gpr) (rA : Gpr) (oe : Bool) (rc : Bool) : Statement (.subfze rD rA oe rc) := fldOp_encXo ..
theorem addze (rD : Gpr) (rA : Gpr) (oe : Bool) (rc : Bool) : Statement (.addze rD rA oe rc) := fldOp_encXo ..
theorem msgsnd (rB : Gpr) : Statement (.msgsnd rB) := fldOp_encX ..
theorem stbx (rS : Gpr) (rA : Gpr) (rB : Gpr) : Statement (.stbx rS rA rB) := fldOp_encX ..
theorem stbepx (rS : Gpr) (rA : Gpr) (rB : Gpr) : Statement (.stbepx rS rA rB) := fldOp_encX ..
theorem icblc (ct : BitVec 4) (rA : Gpr) (rB : Gpr) : Statement (.icblc ct rA rB) := fldOp_encX ..
theorem subfme (rD : Gpr) (rA : Gpr) (oe : Bool) (rc : Bool) : Statement (.subfme rD rA oe rc) := fldOp_encXo ..
theorem addme (rD : Gpr) (rA : Gpr) (oe : Bool) (rc : Bool) : Statement (.addme rD rA oe rc) := fldOp_encXo ..
theorem mullw (rD : Gpr) (rA : Gpr) (rB : Gpr) (oe : Bool) (rc : Bool) : Statement (.mullw rD rA rB oe rc) := fldOp_encXo ..
theorem msgclr (rB : Gpr) : Statement (.msgclr rB) := fldOp_encX ..
theorem dcbtst (th : BitVec 4) (rA : Gpr) (rB : Gpr) : Statement (.dcbtst th rA rB) := fldOp_encX ..
theorem stbux (rS : Gpr) (rA : Gpr) (rB : Gpr) : Statement (.stbux rS rA rB) := fldOp_encX ..
theorem dcbtstep (th : BitVec 4) (rA : Gpr) (rB : Gpr) : Statement (.dcbtstep th rA rB) := fldOp_encX ..
theorem add (rD : Gpr) (rA : Gpr) (rB : Gpr) (oe : Bool) (rc : Bool) : Statement (.add rD rA rB oe rc) := fldOp_encXo ..
theorem ehpriv (oc : BitVec 15) : Statement (.ehpriv oc) := fldOp_encOc ..
theorem dcbt (th : BitVec 4) (rA : Gpr) (rB : Gpr) : Statement (.dcbt th rA rB) := fldOp_encX ..
theorem lhzx (rD : Gpr) (rA : Gpr) (rB : Gpr) : Statement (.lhzx rD rA rB) := fldOp_encX ..
theorem eqv (rS : Gpr) (rA : Gpr) (rB : Gpr) (rc : Bool) : Statement (.eqv rS rA rB rc) := fldOp_encX ..
theorem lhepx (rD : Gpr) (rA : Gpr) (rB : Gpr) : Statement (.lhepx rD rA rB) := fldOp_encX ..
theorem lhzux (rD : Gpr) (rA : Gpr) (rB : Gpr) : Statement (.lhzux rD rA rB) := fldOp_encX ..
theorem xor (rS : Gpr) (rA : Gpr) (rB : Gpr) (rc : Bool) : Statement (.xor rS rA rB rc) := fldOp_encX ..
theorem dcbtep (th : BitVec 4) (rA : Gpr) (rB : Gpr) : Statement (.dcbtep th rA rB) := fldOp_encX ..
theorem mfpmr (rD : Gpr) (pmrn : BitVec 10) : Statement (.mfpmr rD pmrn) := fldOp_encSpr ..
theorem mfspr (rD : Gpr) (spr : BitVec 10) : Statement (.mfspr rD spr) := fldOp_encSpr ..
theorem lhax (rD : Gpr) (rA : Gpr) (rB : Gpr) : Statement (.lhax rD rA rB) := fldOp_encX ..
theorem mftb (rD : Gpr) (tbr : BitVec 10) : Statement (.mftb rD tbr) := fldOp_encSpr ..
theorem lhaux (rD : Gpr) (rA : Gpr) (rB : Gpr) : Statement (.lhaux rD rA rB) := fldOp_encX ..
theorem dcblc (ct : BitVec 4) (rA : Gpr) (rB : Gpr) : Statement (.dcblc ct rA rB) := fldOp_encX ..
theorem sthx (rS : Gpr) (rA : Gpr) (rB : Gpr) : Statement (.sthx rS rA rB) := fldOp_encX ..
theorem orc (rS : Gpr) (rA : Gpr) (rB : Gpr) (rc : Bool) : Statement (.orc rS rA rB rc) := fldOp_encX ..
theorem sthepx (rS : Gpr) (rA : Gpr) (rB : Gpr) : Statement (.sthepx rS rA rB) := fldOp_encX ..
theorem sthux (rS : Gpr) (rA : Gpr) (rB : Gpr) : Statement (.sthux rS rA rB) := fldOp_encX ..
theorem or (rS : Gpr) (rA : Gpr) (rB : Gpr) (rc : Bool) : Statement (.or rS rA rB rc) := fldOp_encX ..
theorem divwu (rD : Gpr) (rA : Gpr) (rB : Gpr) (oe : Bool) (rc : Bool) : Statement (.divwu rD rA rB oe rc) := fldOp_encXo ..
theorem mtpmr (rS : Gpr) (pmrn : BitVec 10) : Statement (.mtpmr rS pmrn) := fldOp_encSpr ..
theorem mtspr (rS : Gpr) (spr : BitVec 10) : Statement (.mtspr rS spr) := fldOp_encSpr ..
theorem dcbi (rA : Gpr) (rB : Gpr) : Statement (.dcbi rA rB) := fldOp_encX ..
theorem nand (rS : Gpr) (rA : Gpr) (rB : Gpr) (rc : Bool) : Statement (.nand rS rA rB rc) := fldOp_encX ..
theorem dsn (rA : Gpr) (rB : Gpr) : Statement (.dsn rA rB) := fldOp_encX ..
theorem icbtls (ct : BitVec 4) (rA : Gpr) (rB : Gpr) : Statement (.icbtls ct rA rB) := fldOp_encX ..
theorem divw (rD : Gpr) (rA : Gpr) (rB : Gpr) (oe : Bool) (rc : Bool) : Statement (.divw rD rA rB oe rc) := fldOp_encXo ..
theorem mcrxr (crfD : BitVec 3) : Statement (.mcrxr crfD) := fldOp_encX ..
theorem lbdx (rD : Gpr) (rA : Gpr) (rB : Gpr) : Statement (.lbdx rD rA rB) := fldOp_encX ..
theorem lwbrx (rD : Gpr) (rA : Gpr) (rB : Gpr) : Statement (.lwbrx rD rA rB) := fldOp_encX ..
theorem lfsx (frD : Fpr) (rA : Gpr) (rB : Gpr) : Statement (.lfsx frD rA rB) := fldOp_encX ..
theorem srw (rS : Gpr) (rA : Gpr) (rB : Gpr) (rc : Bool) : Statement (.srw rS rA rB rc) := fldOp_encX ..
theorem lhdx (rD : Gpr) (rA : Gpr) (rB : Gpr) : Statement (.lhdx rD rA rB) := fldOp_encX ..
theorem tlbsync : Statement .tlbsync := fldOp_encX ..
theorem lfsux (frD : Fpr) (rA : Gpr) (rB : Gpr) : Statement (.lfsux frD rA rB) := fldOp_encX ..
theorem lwdx (rD : Gpr) (rA : Gpr) (rB : Gpr) : Statement (.lwdx rD rA rB) := fldOp_encX ..
theorem sync (l : BitVec 2) : Statement (.sync l) := fldOp_encX ..
theorem lfdx (frD : Fpr) (rA : Gpr) (rB : Gpr) : Statement (.lfdx frD rA rB) := fldOp_encX ..
theorem lfdepx (frD : Fpr) (rA : Gpr) (rB : Gpr) : Statement (.lfdepx frD rA rB) := fldOp_encX ..
theorem lfdux (frD : Fpr) (rA : Gpr) (rB : Gpr) : Statement (.lfdux frD rA rB) := fldOp_encX ..
theorem stbdx (rS : Gpr) (rA : Gpr) (rB : Gpr) : Statement (.stbdx rS rA rB) := fldOp_encX ..
theorem stwbrx (rS : Gpr) (rA : Gpr) (rB : Gpr) : Statement (.stwbrx rS rA rB) := fldOp_encX ..
theorem stfsx (frS : Fpr) (rA : Gpr) (rB : Gpr) : Statement (.stfsx frS rA rB) := fldOp_encX ..
theorem sthdx (rS : Gpr) (rA : Gpr) (rB : Gpr) : Statement (.sthdx rS rA rB) := fldOp_encX ..
theorem stfsux (frS : Fpr) (rA : Gpr) (rB : Gpr) : Statement (.stfsux frS rA rB) := fldOp_encX ..
theorem stwdx (rS : Gpr) (rA : Gpr) (rB : Gpr) : Statement (.stwdx rS rA rB) := fldOp_encX ..
theorem stfdx (frS : Fpr) (rA : Gpr) (rB : Gpr) : Statement (.stfdx frS rA rB) := fldOp_encX ..
theorem stfdepx (frS : Fpr) (rA : Gpr) (rB : Gpr) : Statement (.stfdepx frS rA rB) := fldOp_encX ..
theorem dcba (rA : Gpr) (rB : Gpr) : Statement (.dcba rA rB) := fldOp_encX ..
theorem dcbal (rA : Gpr) (rB : Gpr) : Statement (.dcbal rA rB) := fldOp_encX ..
theorem stfdux (frS : Fpr) (rA : Gpr) (rB : Gpr) : Statement (.stfdux frS rA rB) := fldOp_encX ..
theorem tlbivax (rA : Gpr) (rB : Gpr) : Statement (.tlbivax rA rB) := fldOp_encX ..
theorem lhbrx (rD : Gpr) (rA : Gpr) (rB : Gpr) : Statement (.lhbrx rD rA rB) := fldOp_encX ..
theorem sraw (rS : Gpr) (rA : Gpr) (rB : Gpr) (rc : Bool) : Statement (.sraw rS rA rB rc) := fldOp_encX ..
theorem lfddx (frD : Fpr) (rA : Gpr) (rB : Gpr) : Statement (.lfddx frD rA rB) := fldOp_encX ..
theorem srawi (rS : Gpr) (rA : Gpr) (sh : BitVec 5) (rc : Bool) : Statement (.srawi rS rA sh rc) := fldOp_encX ..
theorem mbar (mo : BitVec 5) : Statement (.mbar mo) := fldOp_encX ..
theorem tlbsx (rA : Gpr) (rB : Gpr) : Statement (.tlbsx rA rB) := fldOp_encX ..
theorem sthbrx (rS : Gpr) (rA : Gpr) (rB : Gpr) : Statement (.sthbrx rS rA rB) := fldOp_encX ..
theorem extsh (rS : Gpr) (rA : Gpr) (rc : Bool) : Statement (.extsh rS rA rc) := fldOp_encX ..
theorem stfddx (frS : Fpr) (rA : Gpr) (rB : Gpr) : Statement (.stfddx frS rA rB) := fldOp_encX ..
theorem tlbre : Statement .tlbre := fldOp_encX ..
theorem extsb (rS : Gpr) (rA : Gpr) (rc : Bool) : Statement (.extsb rS rA rc) := fldOp_encX ..
theorem tlbwe : Statement .tlbwe := fldOp_encX ..
theorem icbi (rA : Gpr) (rB : Gpr) : Statement (.icbi rA rB) := fldOp_encX ..
theorem stfiwx (frS : Fpr) (rA : Gpr) (rB : Gpr) : Statement (.stfiwx frS rA rB) := fldOp_encX ..
theorem icbiep (rA : Gpr) (rB : Gpr) : Statement (.icbiep rA rB) := fldOp_encX ..
theorem dcbz (rA : Gpr) (rB : Gpr) : Statement (.dcbz rA rB) := fldOp_encX ..
theorem dcbzl (rA : Gpr) (rB : Gpr) : Statement (.dcbzl rA rB) := fldOp_encX ..
theorem dcbzep (rA : Gpr) (rB : Gpr) : Statement (.dcbzep rA rB) := fldOp_encX ..
theorem dcbzlep (rA : Gpr) (rB : Gpr) : Statement (.dcbzlep rA rB) := fldOp_encX ..
theorem lwz (rD : Gpr) (rA : Gpr) (d : BitVec 16) : Statement (.lwz rD rA d) := fldOp_encD ..
theorem lwzu (rD : Gpr) (rA : Gpr) (d : BitVec 16) : Statement (.lwzu rD rA d) := fldOp_encD ..
theorem lbz (rD : Gpr) (rA : Gpr) (d : BitVec 16) : Statement (.lbz rD rA d) := fldOp_encD ..
theorem lbzu (rD : Gpr) (rA : Gpr) (d : BitVec 16) : Statement (.lbzu rD rA d) := fldOp_encD ..
theorem stw (rS : Gpr) (rA : Gpr) (d : BitVec 16) : Statement (.stw rS rA d) := fldOp_encD ..
theorem stwu (rS : Gpr) (rA : Gpr) (d : BitVec 16) : Statement (.stwu rS rA d) := fldOp_encD ..
theorem stb (rS : Gpr) (rA : Gpr) (d : BitVec 16) : Statement (.stb rS rA d) := fldOp_encD ..
theorem stbu (rS : Gpr) (rA : Gpr) (d : BitVec 16) : Statement (.stbu rS rA d) := fldOp_encD ..
theorem lhz (rD : Gpr) (rA : Gpr) (d : BitVec 16) : Statement (.lhz rD rA d) := fldOp_encD ..
theorem lhzu (rD : Gpr) (rA : Gpr) (d : BitVec 16) : Statement (.lhzu rD rA d) := fldOp_encD ..
theorem lha (rD : Gpr) (rA : Gpr) (d : BitVec 16) : Statement (.lha rD rA d) := fldOp_encD ..
theorem lhau (rD : Gpr) (rA : Gpr) (d : BitVec 16) : Statement (.lhau rD rA d) := fldOp_encD ..
theorem sth (rS : Gpr) (rA : Gpr) (d : BitVec 16) : Statement (.sth rS rA d) := fldOp_encD ..
theorem sthu (rS : Gpr) (rA : Gpr) (d : BitVec 16) : Statement (.sthu rS rA d) := fldOp_encD ..
theorem lmw (rD : Gpr) (rA : Gpr) (d : BitVec 16) : Statement (.lmw rD rA d) := fldOp_encD ..
theorem stmw (rS : Gpr) (rA : Gpr) (d : BitVec 16) : Statement (.stmw rS rA d) := fldOp_encD ..
theorem lfs (frD : Fpr) (rA : Gpr) (d : BitVec 16) : Statement (.lfs frD rA d) := fldOp_encD ..
theorem lfsu (frD : Fpr) (rA : Gpr) (d : BitVec 16) : Statement (.lfsu frD rA d) := fldOp_encD ..
theorem lfd (frD : Fpr) (rA : Gpr) (d : BitVec 16) : Statement (.lfd frD rA d) := fldOp_encD ..
theorem lfdu (frD : Fpr) (rA : Gpr) (d : BitVec 16) : Statement (.lfdu frD rA d) := fldOp_encD ..
theorem stfs (frS : Fpr) (rA : Gpr) (d : BitVec 16) : Statement (.stfs frS rA d) := fldOp_encD ..
theorem stfsu (frS : Fpr) (rA : Gpr) (d : BitVec 16) : Statement (.stfsu frS rA d) := fldOp_encD ..
theorem stfd (frS : Fpr) (rA : Gpr) (d : BitVec 16) : Statement (.stfd frS rA d) := fldOp_encD ..
theorem stfdu (frS : Fpr) (rA : Gpr) (d : BitVec 16) : Statement (.stfdu frS rA d) := fldOp_encD ..
theorem fdivs (frD : Fpr) (frA : Fpr) (frB : Fpr) (rc : Bool) : Statement (.fdivs frD frA frB rc) := fldOp_encA ..
theorem fsubs (frD : Fpr) (frA : Fpr) (frB : Fpr) (rc : Bool) : Statement (.fsubs frD frA frB rc) := fldOp_encA ..
theorem fadds (frD : Fpr) (frA : Fpr) (frB : Fpr) (rc : Bool) : Statement (.fadds frD frA frB rc) := fldOp_encA ..
theorem fres (frD : Fpr) (frB : Fpr) (rc : Bool) : Statement (.fres frD frB rc) := fldOp_encA ..
theorem fmuls (frD : Fpr) (frA : Fpr) (frC : Fpr) (rc : Bool) : Statement (.fmuls frD frA frC rc) := fldOp_encA ..
theorem fmsubs (frD : Fpr) (frA : Fpr) (frC : Fpr) (frB : Fpr) (rc : Bool) : Statement (.fmsubs frD frA frC frB rc) := fldOp_encA ..
theorem fmadds (frD : Fpr) (frA : Fpr) (frC : Fpr) (frB : Fpr) (rc : Bool) : Statement (.fmadds frD frA frC frB rc) := fldOp_encA ..
theorem fnmsubs (frD : Fpr) (frA : Fpr) (frC : Fpr) (frB : Fpr) (rc : Bool) : Statement (.fnmsubs frD frA frC frB rc) := fldOp_encA ..
theorem fnmadds (frD : Fpr) (frA : Fpr) (frC : Fpr) (frB : Fpr) (rc : Bool) : Statement (.fnmadds frD frA frC frB rc) := fldOp_encA ..
theorem fcmpu (crfD : BitVec 3) (frA : Fpr) (frB : Fpr) : Statement (.fcmpu crfD frA frB) := fldOp_encX ..
theorem frsp (frD : Fpr) (frB : Fpr) (rc : Bool) : Statement (.frsp frD frB rc) := fldOp_encX ..
theorem fctiw (frD : Fpr) (frB : Fpr) (rc : Bool) : Statement (.fctiw frD frB rc) := fldOp_encX ..
theorem fctiwz (frD : Fpr) (frB : Fpr) (rc : Bool) : Statement (.fctiwz frD frB rc) := fldOp_encX ..
theorem fdiv (frD : Fpr) (frA : Fpr) (frB : Fpr) (rc : Bool) : Statement (.fdiv frD frA frB rc) := fldOp_encA ..
theorem fsub (frD : Fpr) (frA : Fpr) (frB : Fpr) (rc : Bool) : Statement (.fsub frD frA frB rc) := fldOp_encA ..
theorem fadd (frD : Fpr) (frA : Fpr) (frB : Fpr) (rc : Bool) : Statement (.fadd frD frA frB rc) := fldOp_encA ..
theorem fsel (frD : Fpr) (frA : Fpr) (frC : Fpr) (frB : Fpr) (rc : Bool) : Statement (.fsel frD frA frC frB rc) := fldOp_encA ..
theorem fmul (frD : Fpr) (frA : Fpr) (frC : Fpr) (rc : Bool) : Statement (.fmul frD frA frC rc) := fldOp_encA ..
theorem frsqrte (frD : Fpr) (frB : Fpr) (rc : Bool) : Statement (.frsqrte frD frB rc) := fldOp_encA ..
theorem fmsub (frD : Fpr) (frA : Fpr) (frC : Fpr) (frB : Fpr) (rc : Bool) : Statement (.fmsub frD frA frC frB rc) := fldOp_encA ..
theorem fmadd (frD : Fpr) (frA : Fpr) (frC : Fpr) (frB : Fpr) (rc : Bool) : Statement (.fmadd frD frA frC frB rc) := fldOp_encA ..
theorem fnmsub (frD : Fpr) (frA : Fpr) (frC : Fpr) (frB : Fpr) (rc : Bool) : Statement (.fnmsub frD frA frC frB rc) := fldOp_encA ..
theorem fnmadd (frD : Fpr) (frA : Fpr) (frC : Fpr) (frB : Fpr) (rc : Bool) : Statement (.fnmadd frD frA frC frB rc) := fldOp_encA ..
theorem fcmpo (crfD : BitVec 3) (frA : Fpr) (frB : Fpr) : Statement (.fcmpo crfD frA frB) := fldOp_encX ..
theorem mtfsb1 (crbD : BitVec 5) (rc : Bool) : Statement (.mtfsb1 crbD rc) := fldOp_encX ..
theorem fneg (frD : Fpr) (frB : Fpr) (rc : Bool) : Statement (.fneg frD frB rc) := fldOp_encX ..
theorem mcrfs (crfD : BitVec 3) (crfS : BitVec 3) : Statement (.mcrfs crfD crfS) := fldOp_encX ..
theorem mtfsb0 (crbD : BitVec 5) (rc : Bool) : Statement (.mtfsb0 crbD rc) := fldOp_encX ..
theorem fmr (frD : Fpr) (frB : Fpr) (rc : Bool) : Statement (.fmr frD frB rc) := fldOp_encX ..
theorem mtfsfi (crfD : BitVec 3) (imm : BitVec 4) (rc : Bool) : Statement (.mtfsfi crfD imm rc) := fldOp_encX ..
theorem fnabs (frD : Fpr) (frB : Fpr) (rc : Bool) : Statement (.fnabs frD frB rc) := fldOp_encX ..
theorem fabs (frD : Fpr) (frB : Fpr) (rc : Bool) : Statement (.fabs frD frB rc) := fldOp_encX ..
theorem mffs (frD : Fpr) (rc : Bool) : Statement (.mffs frD rc) := fldOp_encX ..
theorem mtfsf (fm : BitVec 8) (frB : Fpr) (rc : Bool) : Statement (.mtfsf fm frB rc) := fldOp_encFm ..

end Sys2Proof.Laws.Opcode
end

