-- ==== Sys2Proof/Laws/Spr.lean ====
section
/-! SUPPORT. The SPR map, row by row, and what the access rules answer for a row. -/

namespace Sys2Proof.Machine

/-! ### Rows -/

section
set_option Elab.async false

@[simp] theorem sprRow_1 : sprRow 1 = some (.rw 1 .xer .user) := by decide +kernel
@[simp] theorem sprRow_8 : sprRow 8 = some (.rw 8 .lr .user) := by decide +kernel
@[simp] theorem sprRow_9 : sprRow 9 = some (.rw 9 .ctr .user) := by decide +kernel
@[simp] theorem sprRow_256 : sprRow 256 = some (.rw 256 .usprg0 .user) := by decide +kernel
@[simp] theorem sprRow_259 : sprRow 259 = some (.ro 259 .sprg3User .user) := by decide +kernel
@[simp] theorem sprRow_260 : sprRow 260 = some (.ro 260 (.sprg 4) .user) := by decide +kernel
@[simp] theorem sprRow_261 : sprRow 261 = some (.ro 261 (.sprg 5) .user) := by decide +kernel
@[simp] theorem sprRow_262 : sprRow 262 = some (.ro 262 (.sprg 6) .user) := by decide +kernel
@[simp] theorem sprRow_263 : sprRow 263 = some (.ro 263 (.sprg 7) .user) := by decide +kernel
@[simp] theorem sprRow_268 : sprRow 268 = some (.ro 268 .tbl .user) := by decide +kernel
@[simp] theorem sprRow_269 : sprRow 269 = some (.ro 269 .tbu .user) := by decide +kernel
@[simp] theorem sprRow_515 : sprRow 515 = some (.ro 515 .l1cfg0 .user) := by decide +kernel
@[simp] theorem sprRow_516 : sprRow 516 = some (.ro 516 .l1cfg1 .user) := by decide +kernel
@[simp] theorem sprRow_517 : sprRow 517 = some (.rw 517 .npidr .user) := by decide +kernel
@[simp] theorem sprRow_519 : sprRow 519 = some (.ro 519 .l2cfg0 .user) := by decide +kernel
@[simp] theorem sprRow_526 : sprRow 526 = some (.ro 526 .atbl .user) := by decide +kernel
@[simp] theorem sprRow_527 : sprRow 527 = some (.ro 527 .atbu .user) := by decide +kernel
@[simp] theorem sprRow_576 : sprRow 576 = some (.rw 576 .ddam .user) := by decide +kernel
@[simp] theorem sprRow_975 : sprRow 975 = some (.rw 975 .devent .user) := by decide +kernel
@[simp] theorem sprRow_26 : sprRow 26 = some (.rw 26 .srr0 .guest) := by decide +kernel
@[simp] theorem sprRow_27 : sprRow 27 = some (.rw 27 .srr1 .guest) := by decide +kernel
@[simp] theorem sprRow_48 : sprRow 48 = some (.rw 48 .pid .guest) := by decide +kernel
@[simp] theorem sprRow_61 : sprRow 61 = some (.rw 61 .dear .guest) := by decide +kernel
@[simp] theorem sprRow_62 : sprRow 62 = some (.rw 62 .esr .guest) := by decide +kernel
@[simp] theorem sprRow_272 : sprRow 272 = some (.rw 272 (.sprg 0) .guest) := by decide +kernel
@[simp] theorem sprRow_273 : sprRow 273 = some (.rw 273 (.sprg 1) .guest) := by decide +kernel
@[simp] theorem sprRow_274 : sprRow 274 = some (.rw 274 (.sprg 2) .guest) := by decide +kernel
@[simp] theorem sprRow_275 : sprRow 275 = some (.rw 275 (.sprg 3) .guest) := by decide +kernel
@[simp] theorem sprRow_276 : sprRow 276 = some (.rw 276 (.sprg 4) .guest) := by decide +kernel
@[simp] theorem sprRow_277 : sprRow 277 = some (.rw 277 (.sprg 5) .guest) := by decide +kernel
@[simp] theorem sprRow_278 : sprRow 278 = some (.rw 278 (.sprg 6) .guest) := by decide +kernel
@[simp] theorem sprRow_279 : sprRow 279 = some (.rw 279 (.sprg 7) .guest) := by decide +kernel
@[simp] theorem sprRow_286 : sprRow 286 = some (.rw 286 .pir .guestRead) := by decide +kernel
@[simp] theorem sprRow_287 : sprRow 287 = some (.ro 287 .pvr .guest) := by decide +kernel
@[simp] theorem sprRow_368 : sprRow 368 = some (.rw 368 (.gsprg 0) .guest) := by decide +kernel
@[simp] theorem sprRow_369 : sprRow 369 = some (.rw 369 (.gsprg 1) .guest) := by decide +kernel
@[simp] theorem sprRow_370 : sprRow 370 = some (.rw 370 (.gsprg 2) .guest) := by decide +kernel
@[simp] theorem sprRow_371 : sprRow 371 = some (.rw 371 (.gsprg 3) .guest) := by decide +kernel
@[simp] theorem sprRow_378 : sprRow 378 = some (.rw 378 .gsrr0 .guest) := by decide +kernel
@[simp] theorem sprRow_379 : sprRow 379 = some (.rw 379 .gsrr1 .guest) := by decide +kernel
@[simp] theorem sprRow_380 : sprRow 380 = some (.rw 380 .gepr .guest) := by decide +kernel
@[simp] theorem sprRow_381 : sprRow 381 = some (.rw 381 .gdear .guest) := by decide +kernel
@[simp] theorem sprRow_382 : sprRow 382 = some (.rw 382 .gpir .guestRead) := by decide +kernel
@[simp] theorem sprRow_383 : sprRow 383 = some (.rw 383 .gesr .guest) := by decide +kernel
@[simp] theorem sprRow_605 : sprRow 605 = some (.rw 605 (.sprg 9) .guest) := by decide +kernel
@[simp] theorem sprRow_624 : sprRow 624 = some (.rw 624 .mas0 .guest) := by decide +kernel
@[simp] theorem sprRow_625 : sprRow 625 = some (.rw 625 .mas1 .guest) := by decide +kernel
@[simp] theorem sprRow_626 : sprRow 626 = some (.rw 626 .mas2 .guest) := by decide +kernel
@[simp] theorem sprRow_627 : sprRow 627 = some (.rw 627 .mas3 .guest) := by decide +kernel
@[simp] theorem sprRow_628 : sprRow 628 = some (.rw 628 .mas4 .guest) := by decide +kernel
@[simp] theorem sprRow_630 : sprRow 630 = some (.rw 630 .mas6 .guest) := by decide +kernel
@[simp] theorem sprRow_702 : sprRow 702 = some (.ro 702 .epr .guest) := by decide +kernel
@[simp] theorem sprRow_944 : sprRow 944 = some (.rw 944 .mas7 .guest) := by decide +kernel
@[simp] theorem sprRow_947 : sprRow 947 = some (.rw 947 .eplc .guest) := by decide +kernel
@[simp] theorem sprRow_948 : sprRow 948 = some (.rw 948 .epsc .guest) := by decide +kernel
@[simp] theorem sprRow_1023 : sprRow 1023 = some (.ro 1023 .svr .guest) := by decide +kernel
@[simp] theorem sprRow_63 : sprRow 63 = some (.rw 63 .ivpr .hypervisor) := by decide +kernel
@[simp] theorem sprRow_400 : sprRow 400 = some (.rw 400 (.ivor 0) .hypervisor) := by decide +kernel
@[simp] theorem sprRow_401 : sprRow 401 = some (.rw 401 (.ivor 1) .hypervisor) := by decide +kernel
@[simp] theorem sprRow_402 : sprRow 402 = some (.rw 402 (.ivor 2) .hypervisor) := by decide +kernel
@[simp] theorem sprRow_403 : sprRow 403 = some (.rw 403 (.ivor 3) .hypervisor) := by decide +kernel
@[simp] theorem sprRow_404 : sprRow 404 = some (.rw 404 (.ivor 4) .hypervisor) := by decide +kernel
@[simp] theorem sprRow_405 : sprRow 405 = some (.rw 405 (.ivor 5) .hypervisor) := by decide +kernel
@[simp] theorem sprRow_406 : sprRow 406 = some (.rw 406 (.ivor 6) .hypervisor) := by decide +kernel
@[simp] theorem sprRow_407 : sprRow 407 = some (.rw 407 (.ivor 7) .hypervisor) := by decide +kernel
@[simp] theorem sprRow_408 : sprRow 408 = some (.rw 408 (.ivor 8) .hypervisor) := by decide +kernel
@[simp] theorem sprRow_409 : sprRow 409 = some (.rw 409 (.ivor 9) .hypervisor) := by decide +kernel
@[simp] theorem sprRow_410 : sprRow 410 = some (.rw 410 (.ivor 10) .hypervisor) := by decide +kernel
@[simp] theorem sprRow_411 : sprRow 411 = some (.rw 411 (.ivor 11) .hypervisor) := by decide +kernel
@[simp] theorem sprRow_412 : sprRow 412 = some (.rw 412 (.ivor 12) .hypervisor) := by decide +kernel
@[simp] theorem sprRow_413 : sprRow 413 = some (.rw 413 (.ivor 13) .hypervisor) := by decide +kernel
@[simp] theorem sprRow_414 : sprRow 414 = some (.rw 414 (.ivor 14) .hypervisor) := by decide +kernel
@[simp] theorem sprRow_415 : sprRow 415 = some (.rw 415 (.ivor 15) .hypervisor) := by decide +kernel
@[simp] theorem sprRow_531 : sprRow 531 = some (.rw 531 (.ivor 16) .hypervisor) := by decide +kernel
@[simp] theorem sprRow_532 : sprRow 532 = some (.rw 532 (.ivor 17) .hypervisor) := by decide +kernel
@[simp] theorem sprRow_533 : sprRow 533 = some (.rw 533 (.ivor 18) .hypervisor) := by decide +kernel
@[simp] theorem sprRow_432 : sprRow 432 = some (.rw 432 (.ivor 19) .hypervisor) := by decide +kernel
@[simp] theorem sprRow_433 : sprRow 433 = some (.rw 433 (.ivor 20) .hypervisor) := by decide +kernel
@[simp] theorem sprRow_434 : sprRow 434 = some (.rw 434 (.ivor 21) .hypervisor) := by decide +kernel
@[simp] theorem sprRow_435 : sprRow 435 = some (.rw 435 (.ivor 22) .hypervisor) := by decide +kernel
@[simp] theorem sprRow_440 : sprRow 440 = some (.rw 440 (.givor 0) .guestRead) := by decide +kernel
@[simp] theorem sprRow_441 : sprRow 441 = some (.rw 441 (.givor 1) .guestRead) := by decide +kernel
@[simp] theorem sprRow_442 : sprRow 442 = some (.rw 442 (.givor 2) .guestRead) := by decide +kernel
@[simp] theorem sprRow_443 : sprRow 443 = some (.rw 443 (.givor 3) .guestRead) := by decide +kernel
@[simp] theorem sprRow_444 : sprRow 444 = some (.rw 444 (.givor 4) .guestRead) := by decide +kernel
@[simp] theorem sprRow_445 : sprRow 445 = some (.rw 445 (.givor 5) .guestRead) := by decide +kernel
@[simp] theorem sprRow_447 : sprRow 447 = some (.rw 447 .givpr .guestRead) := by decide +kernel
@[simp] theorem sprRow_22 : sprRow 22 = some (.rw 22 .dec .hypervisor) := by decide +kernel
@[simp] theorem sprRow_54 : sprRow 54 = some (.rw 54 .decar .hypervisor) := by decide +kernel
@[simp] theorem sprRow_58 : sprRow 58 = some (.rw 58 .csrr0 .hypervisor) := by decide +kernel
@[simp] theorem sprRow_59 : sprRow 59 = some (.rw 59 .csrr1 .hypervisor) := by decide +kernel
@[simp] theorem sprRow_284 : sprRow 284 = some (.rw 284 .tbl .hypervisor) := by decide +kernel
@[simp] theorem sprRow_285 : sprRow 285 = some (.rw 285 .tbu .hypervisor) := by decide +kernel
@[simp] theorem sprRow_304 : sprRow 304 = some (.rw 304 .dbsr .hypervisor) := by decide +kernel
@[simp] theorem sprRow_306 : sprRow 306 = some (.wo 306 .dbsrwr .hypervisor) := by decide +kernel
@[simp] theorem sprRow_307 : sprRow 307 = some (.rw 307 .epcr .hypervisor) := by decide +kernel
@[simp] theorem sprRow_308 : sprRow 308 = some (.rw 308 .dbcr0 .hypervisor) := by decide +kernel
@[simp] theorem sprRow_309 : sprRow 309 = some (.rw 309 .dbcr1 .hypervisor) := by decide +kernel
@[simp] theorem sprRow_310 : sprRow 310 = some (.rw 310 .dbcr2 .hypervisor) := by decide +kernel
@[simp] theorem sprRow_311 : sprRow 311 = some (.rw 311 .msrp .hypervisor) := by decide +kernel
@[simp] theorem sprRow_312 : sprRow 312 = some (.rw 312 .iac1 .hypervisor) := by decide +kernel
@[simp] theorem sprRow_313 : sprRow 313 = some (.rw 313 .iac2 .hypervisor) := by decide +kernel
@[simp] theorem sprRow_316 : sprRow 316 = some (.rw 316 .dac1 .hypervisor) := by decide +kernel
@[simp] theorem sprRow_317 : sprRow 317 = some (.rw 317 .dac2 .hypervisor) := by decide +kernel
@[simp] theorem sprRow_336 : sprRow 336 = some (.rw 336 .tsr .hypervisor) := by decide +kernel
@[simp] theorem sprRow_338 : sprRow 338 = some (.rw 338 .lpidr .hypervisor) := by decide +kernel
@[simp] theorem sprRow_339 : sprRow 339 = some (.rw 339 .mas5 .hypervisor) := by decide +kernel
@[simp] theorem sprRow_340 : sprRow 340 = some (.rw 340 .tcr .hypervisor) := by decide +kernel
@[simp] theorem sprRow_341 : sprRow 341 = some (.rw 341 .mas8 .hypervisor) := by decide +kernel
@[simp] theorem sprRow_563 : sprRow 563 = some (.rw 563 .dbcr4 .hypervisor) := by decide +kernel
@[simp] theorem sprRow_569 : sprRow 569 = some (.ro 569 .mcaru .hypervisor) := by decide +kernel
@[simp] theorem sprRow_570 : sprRow 570 = some (.rw 570 .mcsrr0 .hypervisor) := by decide +kernel
@[simp] theorem sprRow_571 : sprRow 571 = some (.rw 571 .mcsrr1 .hypervisor) := by decide +kernel
@[simp] theorem sprRow_572 : sprRow 572 = some (.rw 572 .mcsr .hypervisor) := by decide +kernel
@[simp] theorem sprRow_573 : sprRow 573 = some (.ro 573 .mcar .hypervisor) := by decide +kernel
@[simp] theorem sprRow_574 : sprRow 574 = some (.rw 574 .dsrr0 .hypervisor) := by decide +kernel
@[simp] theorem sprRow_575 : sprRow 575 = some (.rw 575 .dsrr1 .hypervisor) := by decide +kernel
@[simp] theorem sprRow_604 : sprRow 604 = some (.rw 604 (.sprg 8) .hypervisor) := by decide +kernel
@[simp] theorem sprRow_606 : sprRow 606 = some (.rw 606 .l1csr2 .hypervisor) := by decide +kernel
@[simp] theorem sprRow_688 : sprRow 688 = some (.ro 688 .tlb0cfg .hypervisor) := by decide +kernel
@[simp] theorem sprRow_689 : sprRow 689 = some (.ro 689 .tlb1cfg .hypervisor) := by decide +kernel
@[simp] theorem sprRow_696 : sprRow 696 = some (.rw 696 .cdcsr0 .hypervisor) := by decide +kernel
@[simp] theorem sprRow_720 : sprRow 720 = some (.rw 720 .l2errinten .hypervisor) := by decide +kernel
@[simp] theorem sprRow_721 : sprRow 721 = some (.rw 721 .l2errattr .hypervisor) := by decide +kernel
@[simp] theorem sprRow_722 : sprRow 722 = some (.rw 722 .l2erraddr .hypervisor) := by decide +kernel
@[simp] theorem sprRow_723 : sprRow 723 = some (.rw 723 .l2erreaddr .hypervisor) := by decide +kernel
@[simp] theorem sprRow_724 : sprRow 724 = some (.rw 724 .l2errctl .hypervisor) := by decide +kernel
@[simp] theorem sprRow_725 : sprRow 725 = some (.rw 725 .l2errdis .hypervisor) := by decide +kernel
@[simp] theorem sprRow_983 : sprRow 983 = some (.rw 983 .nspd .hypervisor) := by decide +kernel
@[simp] theorem sprRow_984 : sprRow 984 = some (.rw 984 .nspc .hypervisor) := by decide +kernel
@[simp] theorem sprRow_985 : sprRow 985 = some (.rw 985 .l2errinjhi .hypervisor) := by decide +kernel
@[simp] theorem sprRow_986 : sprRow 986 = some (.rw 986 .l2errinjlo .hypervisor) := by decide +kernel
@[simp] theorem sprRow_987 : sprRow 987 = some (.rw 987 .l2errinjctl .hypervisor) := by decide +kernel
@[simp] theorem sprRow_988 : sprRow 988 = some (.rw 988 .l2captdatahi .hypervisor) := by decide +kernel
@[simp] theorem sprRow_989 : sprRow 989 = some (.rw 989 .l2captdatalo .hypervisor) := by decide +kernel
@[simp] theorem sprRow_990 : sprRow 990 = some (.rw 990 .l2captecc .hypervisor) := by decide +kernel
@[simp] theorem sprRow_991 : sprRow 991 = some (.rw 991 .l2errdet .hypervisor) := by decide +kernel
@[simp] theorem sprRow_1008 : sprRow 1008 = some (.rw 1008 .hid0 .hypervisor) := by decide +kernel
@[simp] theorem sprRow_1010 : sprRow 1010 = some (.rw 1010 .l1csr0 .hypervisor) := by decide +kernel
@[simp] theorem sprRow_1011 : sprRow 1011 = some (.rw 1011 .l1csr1 .hypervisor) := by decide +kernel
@[simp] theorem sprRow_1012 : sprRow 1012 = some (.rw 1012 .mmucsr0 .hypervisor) := by decide +kernel
@[simp] theorem sprRow_1013 : sprRow 1013 = some (.rw 1013 .bucsr .hypervisor) := by decide +kernel
@[simp] theorem sprRow_1015 : sprRow 1015 = some (.ro 1015 .mmucfg .hypervisor) := by decide +kernel
@[simp] theorem sprRow_1017 : sprRow 1017 = some (.rw 1017 .l2csr0 .hypervisor) := by decide +kernel
@[simp] theorem sprRow_1018 : sprRow 1018 = some (.rw 1018 .l2csr1 .hypervisor) := by decide +kernel

end

/-! ### The access rules -/

/-- User state may read a register of the user class, whatever the state. -/
theorem sprAccess_user {s : State} {n : BitVec 10} {row : SprRow} (h : sprRow n = some row) (hc : row.cls = .user)
    (hr : row.readable = true) : s.sprAccess n false = .ok (s.guestMapped row.reg) := by
  unfold State.sprAccess
  rw [h]
  simp [hc, hr, SprClass.hvOnly]

/-- Supervisor state may read what is not the hypervisor's. -/
theorem sprAccess_supervisor {s : State} {n : BitVec 10} {row : SprRow} (hp : s.pr = false) (h : sprRow n = some row)
    (hc : row.cls.hvOnly false = false) (hr : row.readable = true) :
    s.sprAccess n false = .ok (s.guestMapped row.reg) := by
  unfold State.sprAccess
  rw [h]
  simp [hc, hr, hp]

/-- Hypervisor state may read every readable register. -/
theorem sprAccess_hypervisor {s : State} {n : BitVec 10} {row : SprRow} (hp : s.pr = false) (hg : s.gs = false)
    (h : sprRow n = some row) (hr : row.readable = true) : s.sprAccess n false = .ok (s.guestMapped row.reg) := by
  unfold State.sprAccess
  rw [h]
  simp [hr, hp, hg]

/-- User state may write a register of the user class. -/
theorem sprAccess_user_write {s : State} {n : BitVec 10} {row : SprRow} (h : sprRow n = some row)
    (hc : row.cls = .user) (hr : row.writable = true) :
    s.sprAccess n true = .ok (s.guestMapped row.reg) := by
  unfold State.sprAccess
  rw [h]
  simp [hc, hr, SprClass.hvOnly]

/-- Supervisor state may write what the hypervisor does not keep. -/
theorem sprAccess_supervisor_write {s : State} {n : BitVec 10} {row : SprRow} (hp : s.pr = false)
    (h : sprRow n = some row) (hc : row.cls.hvOnly true = false) (hr : row.writable = true) :
    s.sprAccess n true = .ok (s.guestMapped row.reg) := by
  unfold State.sprAccess
  rw [h]
  simp [hc, hr, hp]

/-- Hypervisor state may write every writable register. -/
theorem sprAccess_hypervisor_write {s : State} {n : BitVec 10} {row : SprRow} (hp : s.pr = false) (hg : s.gs = false)
    (h : sprRow n = some row) (hr : row.writable = true) : s.sprAccess n true = .ok (s.guestMapped row.reg) := by
  unfold State.sprAccess
  rw [h]
  simp [hr, hp, hg]

end Sys2Proof.Machine
end

