-- ==== Sys2Proof/Laws/Timers.lean ====
section
/-! SUPPORT. The timers in the terms of the claims: the selected bits of the time base, by number, and what a new value of
the time base does to TSR. -/

namespace Sys2Proof.Machine

/-- A bit of the time base goes from 0 to 1, by number. -/
theorem tbRises_eq (old new : DWord) (k : Nat) :
    tbRises old new k = decide (old.toNat / 2 ^ (63 - k) % 2 = 0 ∧ new.toNat / 2 ^ (63 - k) % 2 = 1) := by
  unfold tbRises tbBit
  rw [BitVec.getLsbD, BitVec.getLsbD, Nat.testBit_eq_decide_div_mod_eq, Nat.testBit_eq_decide_div_mod_eq]
  rcases Nat.mod_two_eq_zero_or_one (old.toNat / 2 ^ (63 - k)) with h | h <;> simp [h]

/-- The fixed-interval selector is TCR[FPEXT] and TCR[FP], by number. -/
theorem fsel_eq (t : Timers) : t.fsel = t.tcr.toNat / 2 ^ 13 % 16 * 4 + t.tcr.toNat / 2 ^ 24 % 4 := by
  unfold Timers.fsel
  rw [BitVec.toNat_append, BitVec.extractLsb'_toNat, BitVec.extractLsb'_toNat, Nat.shiftRight_eq_div_pow,
    Nat.shiftRight_eq_div_pow, ← Nat.shiftLeft_add_eq_or_of_lt (by omega), Nat.shiftLeft_eq]

/-- The watchdog selector is TCR[WPEXT] and TCR[WP], by number. -/
theorem wsel_eq (t : Timers) : t.wsel = t.tcr.toNat / 2 ^ 17 % 16 * 4 + t.tcr.toNat / 2 ^ 30 := by
  unfold Timers.wsel
  have := t.tcr.isLt
  rw [BitVec.toNat_append, BitVec.extractLsb'_toNat, BitVec.extractLsb'_toNat, Nat.shiftRight_eq_div_pow,
    Nat.shiftRight_eq_div_pow, ← Nat.shiftLeft_add_eq_or_of_lt (by omega), Nat.shiftLeft_eq]
  omega

/-- A new value of the time base changes TSR alone: a stage of the watchdog, and FIS, where their selected bits rise. -/
theorem onChange_eq (old new : DWord) (t : Timers) :
    t.onChange old new =
      { t with
        tsr :=
          (if !tbRises old new t.wsel then t.tsr
            else if !bit t.tsr 32 then t.tsr ||| 0x80000000
            else if !bit t.tsr 33 then t.tsr ||| 0x40000000
            else (t.tsr &&& 0xCFFFFFFF) ||| (t.tcr &&& 0x30000000)) |||
          if tbRises old new t.fsel then 0x04000000 else 0 } := by
  have hu : (if tbRises old new t.fsel then { t with tsr := t.tsr ||| 0x04000000 } else t) =
      { t with tsr := t.tsr ||| if tbRises old new t.fsel then 0x04000000 else 0 } := by
    split
    · rfl
    · rw [BitVec.ofNat_eq_ofNat, BitVec.or_zero]
  have hf : ∀ f : Word, f = 0x04000000 ∨ f = 0 →
      f &&& 0xCFFFFFFF = f ∧ ∀ w, bit (w ||| f) 32 = bit w 32 ∧ bit (w ||| f) 33 = bit w 33 := by
    rintro f (rfl | rfl) <;> exact ⟨rfl, fun w => by simp [bit]⟩
  unfold Timers.onChange
  simp only [hu]
  obtain ⟨h1, h2⟩ := hf (if tbRises old new t.fsel then 0x04000000 else 0) (by split <;> simp)
  generalize (if tbRises old new t.fsel then (0x04000000 : Word) else 0) = f at h1 h2
  have hm : mix (t.tsr ||| f) t.tcr 0x30000000 = ((t.tsr &&& 0xCFFFFFFF) ||| (t.tcr &&& 0x30000000)) ||| f := by
    have hn : ~~~(0x30000000 : Word) = 0xCFFFFFFF := rfl
    have hd : (t.tsr ||| f) &&& 0xCFFFFFFF = (t.tsr &&& 0xCFFFFFFF) ||| f := by
      rw [BitVec.and_or_distrib_right, h1]
    unfold mix
    rw [hn, hd, BitVec.or_assoc, BitVec.or_comm f, BitVec.or_assoc]
  have hc (m : Word) : t.tsr ||| f ||| m = t.tsr ||| m ||| f := by
    rw [BitVec.or_assoc, BitVec.or_comm f, BitVec.or_assoc]
  cases tbRises old new t.wsel
  · rfl
  · unfold Timers.watchdogEvent
    simp only [(h2 _).1, (h2 _).2, if_true, Bool.not_true, Bool.false_eq_true, if_false, hm, hc]
    split
    · rfl
    · split <;> rfl

end Sys2Proof.Machine
end

