-- ==== Sys2Proof/WellFormed.lean ====
section
/-! DEFINITION. Well-formed instructions. Every operand is a bit field of its own width, so every term of
`Instr` has an encoding; an instruction is well formed when it is not one of the invalid forms of
30_encoding.md R385, and no operand has a value that the rule of the instruction leaves undefined. An
ill-formed instruction still decodes and still runs (R385: boundedly undefined, no exception). -/

namespace Sys2Proof

/-- An update-form load names a base other than r0 and other than its target (41 R481). -/
def updateLoadOk (rD rA : Gpr) : Bool := rA != 0 && rA != rD

/-- An update-form store, or floating-point load, names a base other than r0 (41 R481). -/
def updateOk (rA : Gpr) : Bool := rA != 0

/-- lmw does not load its own base (41 R515). -/
def multipleOk (rD rA : Gpr) : Bool := decide (rA.toNat < rD.toNat)

/-- The L operand of the compares is 0 (D21). -/
def compareOk (l : BitVec 1) : Bool := l == 0

/-- The instruction is a valid form. -/
def Instr.wellFormed : Instr → Bool
  | .twi _ _ _ => true
  | .mulli _ _ _ => true
  | .subfic _ _ _ => true
  | .cmpli _ l _ _ => compareOk l
  | .cmpi _ l _ _ => compareOk l
  | .addic _ _ _ => true
  | .addicDot _ _ _ => true
  | .addi _ _ _ => true
  | .addis _ _ _ => true
  | .bc _ _ _ _ _ => true
  | .sc lev => decide (lev.toNat < 2)
  | .b _ _ _ => true
  | .mcrf _ _ => true
  | .bclr _ _ _ _ => true
  | .crnor _ _ _ => true
  | .rfmci => true
  | .rfdi => true
  | .rfi => true
  | .rfci => true
  | .rfgi => true
  | .crandc _ _ _ => true
  | .isync => true
  | .crxor _ _ _ => true
  | .dnh _ _ => true
  | .crnand _ _ _ => true
  | .crand _ _ _ => true
  | .creqv _ _ _ => true
  | .crorc _ _ _ => true
  | .cror _ _ _ => true
  | .bcctr bo _ _ _ => bo.getLsbD 2
  | .rlwimi _ _ _ _ _ _ => true
  | .rlwinm _ _ _ _ _ _ => true
  | .rlwnm _ _ _ _ _ _ => true
  | .ori _ _ _ => true
  | .oris _ _ _ => true
  | .xori _ _ _ => true
  | .xoris _ _ _ => true
  | .andiDot _ _ _ => true
  | .andisDot _ _ _ => true
  | .cmp _ l _ _ => compareOk l
  | .tw _ _ _ => true
  | .subfc _ _ _ _ _ => true
  | .addc _ _ _ _ _ => true
  | .mulhwu _ _ _ _ => true
  | .isel _ _ _ _ => true
  | .tlbilx t _ _ => t != 2
  | .mfcr _ => true
  | .mfocrf _ _ => true
  | .lwarx _ _ _ => true
  | .icbt _ _ _ => true
  | .lwzx _ _ _ => true
  | .slw _ _ _ _ => true
  | .cntlzw _ _ _ => true
  | .and _ _ _ _ => true
  | .lwepx _ _ _ => true
  | .cmpl _ l _ _ => compareOk l
  | .subf _ _ _ _ _ => true
  | .dcbst _ _ => true
  | .lwzux rD rA _ => updateLoadOk rD rA
  | .andc _ _ _ _ => true
  | .wait _ => true
  | .dcbstep _ _ => true
  | .mulhw _ _ _ _ => true
  | .mfmsr _ => true
  | .dcbf _ _ => true
  | .lbzx _ _ _ => true
  | .lbepx _ _ _ => true
  | .neg _ _ _ _ => true
  | .lbzux rD rA _ => updateLoadOk rD rA
  | .nor _ _ _ _ => true
  | .dcbfep _ _ => true
  | .wrtee _ => true
  | .dcbtstls _ _ _ => true
  | .subfe _ _ _ _ _ => true
  | .adde _ _ _ _ _ => true
  | .mtcrf _ _ => true
  | .mtocrf _ _ => true
  | .mtmsr _ => true
  | .stwcxDot _ _ _ => true
  | .stwx _ _ _ => true
  | .stwepx _ _ _ => true
  | .wrteei _ => true
  | .dcbtls _ _ _ => true
  | .stwux _ rA _ => updateOk rA
  | .subfze _ _ _ _ => true
  | .addze _ _ _ _ => true
  | .msgsnd _ => true
  | .stbx _ _ _ => true
  | .stbepx _ _ _ => true
  | .icblc _ _ _ => true
  | .subfme _ _ _ _ => true
  | .addme _ _ _ _ => true
  | .mullw _ _ _ _ _ => true
  | .msgclr _ => true
  | .dcbtst _ _ _ => true
  | .stbux _ rA _ => updateOk rA
  | .dcbtstep _ _ _ => true
  | .add _ _ _ _ _ => true
  | .ehpriv _ => true
  | .dcbt _ _ _ => true
  | .lhzx _ _ _ => true
  | .eqv _ _ _ _ => true
  | .lhepx _ _ _ => true
  | .lhzux rD rA _ => updateLoadOk rD rA
  | .xor _ _ _ _ => true
  | .dcbtep _ _ _ => true
  | .mfpmr _ _ => true
  | .mfspr _ _ => true
  | .lhax _ _ _ => true
  | .mftb _ _ => true
  | .lhaux rD rA _ => updateLoadOk rD rA
  | .dcblc _ _ _ => true
  | .sthx _ _ _ => true
  | .orc _ _ _ _ => true
  | .sthepx _ _ _ => true
  | .sthux _ rA _ => updateOk rA
  | .or _ _ _ _ => true
  | .divwu _ _ _ _ _ => true
  | .mtpmr _ _ => true
  | .mtspr _ _ => true
  | .dcbi _ _ => true
  | .nand _ _ _ _ => true
  | .dsn _ _ => true
  | .icbtls _ _ _ => true
  | .divw _ _ _ _ _ => true
  | .mcrxr _ => true
  | .lbdx _ _ _ => true
  | .lwbrx _ _ _ => true
  | .lfsx _ _ _ => true
  | .srw _ _ _ _ => true
  | .lhdx _ _ _ => true
  | .tlbsync => true
  | .lfsux _ rA _ => updateOk rA
  | .lwdx _ _ _ => true
  | .sync l => decide (l.toNat < 2)
  | .lfdx _ _ _ => true
  | .lfdepx _ _ _ => true
  | .lfdux _ rA _ => updateOk rA
  | .stbdx _ _ _ => true
  | .stwbrx _ _ _ => true
  | .stfsx _ _ _ => true
  | .sthdx _ _ _ => true
  | .stfsux _ rA _ => updateOk rA
  | .stwdx _ _ _ => true
  | .stfdx _ _ _ => true
  | .stfdepx _ _ _ => true
  | .dcba _ _ => true
  | .dcbal _ _ => true
  | .stfdux _ rA _ => updateOk rA
  | .tlbivax _ _ => true
  | .lhbrx _ _ _ => true
  | .sraw _ _ _ _ => true
  | .lfddx _ _ _ => true
  | .srawi _ _ _ _ => true
  | .mbar mo => decide (mo.toNat < 2)
  | .tlbsx _ _ => true
  | .sthbrx _ _ _ => true
  | .extsh _ _ _ => true
  | .stfddx _ _ _ => true
  | .tlbre => true
  | .extsb _ _ _ => true
  | .tlbwe => true
  | .icbi _ _ => true
  | .stfiwx _ _ _ => true
  | .icbiep _ _ => true
  | .dcbz _ _ => true
  | .dcbzl _ _ => true
  | .dcbzep _ _ => true
  | .dcbzlep _ _ => true
  | .lwz _ _ _ => true
  | .lwzu rD rA _ => updateLoadOk rD rA
  | .lbz _ _ _ => true
  | .lbzu rD rA _ => updateLoadOk rD rA
  | .stw _ _ _ => true
  | .stwu _ rA _ => updateOk rA
  | .stb _ _ _ => true
  | .stbu _ rA _ => updateOk rA
  | .lhz _ _ _ => true
  | .lhzu rD rA _ => updateLoadOk rD rA
  | .lha _ _ _ => true
  | .lhau rD rA _ => updateLoadOk rD rA
  | .sth _ _ _ => true
  | .sthu _ rA _ => updateOk rA
  | .lmw rD rA _ => multipleOk rD rA
  | .stmw _ _ _ => true
  | .lfs _ _ _ => true
  | .lfsu _ rA _ => updateOk rA
  | .lfd _ _ _ => true
  | .lfdu _ rA _ => updateOk rA
  | .stfs _ _ _ => true
  | .stfsu _ rA _ => updateOk rA
  | .stfd _ _ _ => true
  | .stfdu _ rA _ => updateOk rA
  | .fdivs _ _ _ _ => true
  | .fsubs _ _ _ _ => true
  | .fadds _ _ _ _ => true
  | .fres _ _ _ => true
  | .fmuls _ _ _ _ => true
  | .fmsubs _ _ _ _ _ => true
  | .fmadds _ _ _ _ _ => true
  | .fnmsubs _ _ _ _ _ => true
  | .fnmadds _ _ _ _ _ => true
  | .fcmpu _ _ _ => true
  | .frsp _ _ _ => true
  | .fctiw _ _ _ => true
  | .fctiwz _ _ _ => true
  | .fdiv _ _ _ _ => true
  | .fsub _ _ _ _ => true
  | .fadd _ _ _ _ => true
  | .fsel _ _ _ _ _ => true
  | .fmul _ _ _ _ => true
  | .frsqrte _ _ _ => true
  | .fmsub _ _ _ _ _ => true
  | .fmadd _ _ _ _ _ => true
  | .fnmsub _ _ _ _ _ => true
  | .fnmadd _ _ _ _ _ => true
  | .fcmpo _ _ _ => true
  | .mtfsb1 _ _ => true
  | .fneg _ _ _ => true
  | .mcrfs _ _ => true
  | .mtfsb0 _ _ => true
  | .fmr _ _ _ => true
  | .mtfsfi _ _ _ => true
  | .fnabs _ _ _ => true
  | .fabs _ _ _ => true
  | .mffs _ _ => true
  | .mtfsf _ _ _ => true

end Sys2Proof
end

