-- ==== Sys2Proof/Tests/Slice0.lean ====
section
/-! SUPPORT. The tests of the model: ill-formed terms, words of every encoding, the worked vectors of
96_test_vectors_instructions.md and 97_test_vectors_system.md, and a state that meets the hypotheses of each statement. -/

namespace Sys2Proof.Tests

open Sys2Proof.Machine

section
set_option Elab.async false

/-! ### Ill-formed terms: one or more for each check of WellFormed -/

theorem test_ill_formed_compare : (Instr.cmp 0 1 4 5).wellFormed = false ∧ (Instr.cmpli 0 1 4 0).wellFormed = false := by
  decide
theorem test_ill_formed_load_update : (Instr.lwzu 3 0 4).wellFormed = false ∧ (Instr.lwzu 5 5 4).wellFormed = false := by
  decide
theorem test_ill_formed_update : (Instr.stwu 3 0 4).wellFormed = false ∧ (Instr.lfdu 3 0 4).wellFormed = false := by
  decide
theorem test_ill_formed_multiple : (Instr.lmw 29 30 0).wellFormed = false ∧ (Instr.lmw 29 29 0).wellFormed = false := by
  decide
theorem test_ill_formed_bcctr : (Instr.bcctr 0b00000 0 0 false).wellFormed = false := by decide
theorem test_ill_formed_sc : (Instr.sc 2).wellFormed = false := by decide
theorem test_ill_formed_tlbilx : (Instr.tlbilx 2 0 3).wellFormed = false := by decide
theorem test_ill_formed_barrier : (Instr.sync 2).wellFormed = false ∧ (Instr.mbar 2).wellFormed = false := by decide
theorem test_well_formed : (Instr.lmw 29 28 0).wellFormed = true ∧ (Instr.lwzu 3 4 4).wellFormed = true ∧
    (Instr.bcctr 0b00100 0 0 false).wellFormed = true ∧ (Instr.cmp 0 0 4 5).wellFormed = true := by decide

/-! ### Words, the fields of each counting up from 3 in the order of the table -/

theorem test_decode_mmu :
    decode 0x7C442824 = .ok (.tlbilx 2 4 5) ∧ decode 0x7C00046C = .ok .tlbsync ∧
    decode 0x7C032624 = .ok (.tlbivax 3 4) ∧ decode 0x7C032724 = .ok (.tlbsx 3 4) ∧ decode 0x7C000764 = .ok .tlbre ∧
    decode 0x7C0007A4 = .ok .tlbwe := by decide +kernel

theorem test_decode_integer_1 :
    decode 0x1C648005 = .ok (.mulli 3 4 0x8005) ∧ decode 0x20648005 = .ok (.subfic 3 4 0x8005) ∧
    decode 0x29A58005 = .ok (.cmpli 3 1 5 0x8005) ∧ decode 0x2DA58005 = .ok (.cmpi 3 1 5 0x8005) ∧
    decode 0x30648005 = .ok (.addic 3 4 0x8005) ∧ decode 0x34648005 = .ok (.addicDot 3 4 0x8005) ∧
    decode 0x38648005 = .ok (.addi 3 4 0x8005) ∧ decode 0x3C648005 = .ok (.addis 3 4 0x8005) ∧
    decode 0x5064298F = .ok (.rlwimi 3 4 5 6 7 true) ∧ decode 0x5464298F = .ok (.rlwinm 3 4 5 6 7 true) ∧
    decode 0x5C64298F = .ok (.rlwnm 3 4 5 6 7 true) ∧ decode 0x60648005 = .ok (.ori 3 4 0x8005) ∧
    decode 0x64648005 = .ok (.oris 3 4 0x8005) ∧ decode 0x68648005 = .ok (.xori 3 4 0x8005) ∧
    decode 0x6C648005 = .ok (.xoris 3 4 0x8005) ∧ decode 0x70648005 = .ok (.andiDot 3 4 0x8005) := by decide +kernel

theorem test_decode_integer_2 :
    decode 0x74648005 = .ok (.andisDot 3 4 0x8005) ∧ decode 0x7DA53000 = .ok (.cmp 3 1 5 6) ∧
    decode 0x7C642C11 = .ok (.subfc 3 4 5 true true) ∧ decode 0x7C642C15 = .ok (.addc 3 4 5 true true) ∧
    decode 0x7C642817 = .ok (.mulhwu 3 4 5 true) ∧ decode 0x7C642831 = .ok (.slw 3 4 5 true) ∧
    decode 0x7C640035 = .ok (.cntlzw 3 4 true) ∧ decode 0x7C642839 = .ok (.and 3 4 5 true) ∧
    decode 0x7DA53040 = .ok (.cmpl 3 1 5 6) ∧ decode 0x7C642C51 = .ok (.subf 3 4 5 true true) ∧
    decode 0x7C642879 = .ok (.andc 3 4 5 true) ∧ decode 0x7C642897 = .ok (.mulhw 3 4 5 true) ∧
    decode 0x7C6404D1 = .ok (.neg 3 4 true true) ∧ decode 0x7C6428F9 = .ok (.nor 3 4 5 true) ∧
    decode 0x7C642D11 = .ok (.subfe 3 4 5 true true) ∧ decode 0x7C642D15 = .ok (.adde 3 4 5 true true) := by decide +kernel

theorem test_decode_integer_3 :
    decode 0x7C640591 = .ok (.subfze 3 4 true true) ∧ decode 0x7C640595 = .ok (.addze 3 4 true true) ∧
    decode 0x7C6405D1 = .ok (.subfme 3 4 true true) ∧ decode 0x7C6405D5 = .ok (.addme 3 4 true true) ∧
    decode 0x7C642DD7 = .ok (.mullw 3 4 5 true true) ∧ decode 0x7C642E15 = .ok (.add 3 4 5 true true) ∧
    decode 0x7C642A39 = .ok (.eqv 3 4 5 true) ∧ decode 0x7C642A79 = .ok (.xor 3 4 5 true) ∧
    decode 0x7C642B39 = .ok (.orc 3 4 5 true) ∧ decode 0x7C642B79 = .ok (.or 3 4 5 true) ∧
    decode 0x7C642F97 = .ok (.divwu 3 4 5 true true) ∧ decode 0x7C642BB9 = .ok (.nand 3 4 5 true) ∧
    decode 0x7C642FD7 = .ok (.divw 3 4 5 true true) ∧ decode 0x7C642C31 = .ok (.srw 3 4 5 true) ∧
    decode 0x7C642E31 = .ok (.sraw 3 4 5 true) ∧ decode 0x7C642E71 = .ok (.srawi 3 4 5 true) := by decide +kernel

theorem test_decode_integer_4 :
    decode 0x7C640735 = .ok (.extsh 3 4 true) ∧ decode 0x7C640775 = .ok (.extsb 3 4 true) := by decide +kernel

theorem test_decode_load_store_1 :
    decode 0x7C64282E = .ok (.lwzx 3 4 5) ∧ decode 0x7C64283E = .ok (.lwepx 3 4 5) ∧
    decode 0x7C64286E = .ok (.lwzux 3 4 5) ∧ decode 0x7C6428AE = .ok (.lbzx 3 4 5) ∧
    decode 0x7C6428BE = .ok (.lbepx 3 4 5) ∧ decode 0x7C6428EE = .ok (.lbzux 3 4 5) ∧
    decode 0x7C64292E = .ok (.stwx 3 4 5) ∧ decode 0x7C64293E = .ok (.stwepx 3 4 5) ∧
    decode 0x7C64296E = .ok (.stwux 3 4 5) ∧ decode 0x7C6429AE = .ok (.stbx 3 4 5) ∧
    decode 0x7C6429BE = .ok (.stbepx 3 4 5) ∧ decode 0x7C6429EE = .ok (.stbux 3 4 5) ∧
    decode 0x7C642A2E = .ok (.lhzx 3 4 5) ∧ decode 0x7C642A3E = .ok (.lhepx 3 4 5) ∧
    decode 0x7C642A6E = .ok (.lhzux 3 4 5) ∧ decode 0x7C642AAE = .ok (.lhax 3 4 5) := by decide +kernel

theorem test_decode_load_store_2 :
    decode 0x7C642AEE = .ok (.lhaux 3 4 5) ∧ decode 0x7C642B2E = .ok (.sthx 3 4 5) ∧
    decode 0x7C642B3E = .ok (.sthepx 3 4 5) ∧ decode 0x7C642B6E = .ok (.sthux 3 4 5) ∧
    decode 0x7C0323C6 = .ok (.dsn 3 4) ∧ decode 0x7C642C06 = .ok (.lbdx 3 4 5) ∧
    decode 0x7C642C2C = .ok (.lwbrx 3 4 5) ∧ decode 0x7C642C2E = .ok (.lfsx 3 4 5) ∧
    decode 0x7C642C46 = .ok (.lhdx 3 4 5) ∧ decode 0x7C642C6E = .ok (.lfsux 3 4 5) ∧
    decode 0x7C642C86 = .ok (.lwdx 3 4 5) ∧ decode 0x7C642CAE = .ok (.lfdx 3 4 5) ∧
    decode 0x7C642CBE = .ok (.lfdepx 3 4 5) ∧ decode 0x7C642CEE = .ok (.lfdux 3 4 5) ∧
    decode 0x7C642D06 = .ok (.stbdx 3 4 5) ∧ decode 0x7C642D2C = .ok (.stwbrx 3 4 5) := by decide +kernel

theorem test_decode_load_store_3 :
    decode 0x7C642D2E = .ok (.stfsx 3 4 5) ∧ decode 0x7C642D46 = .ok (.sthdx 3 4 5) ∧
    decode 0x7C642D6E = .ok (.stfsux 3 4 5) ∧ decode 0x7C642D86 = .ok (.stwdx 3 4 5) ∧
    decode 0x7C642DAE = .ok (.stfdx 3 4 5) ∧ decode 0x7C642DBE = .ok (.stfdepx 3 4 5) ∧
    decode 0x7C642DEE = .ok (.stfdux 3 4 5) ∧ decode 0x7C642E2C = .ok (.lhbrx 3 4 5) ∧
    decode 0x7C642E46 = .ok (.lfddx 3 4 5) ∧ decode 0x7C642F2C = .ok (.sthbrx 3 4 5) ∧
    decode 0x7C642F46 = .ok (.stfddx 3 4 5) ∧ decode 0x7C642FAE = .ok (.stfiwx 3 4 5) ∧
    decode 0x80648005 = .ok (.lwz 3 4 0x8005) ∧ decode 0x84648005 = .ok (.lwzu 3 4 0x8005) ∧
    decode 0x88648005 = .ok (.lbz 3 4 0x8005) ∧ decode 0x8C648005 = .ok (.lbzu 3 4 0x8005) := by decide +kernel

theorem test_decode_load_store_4 :
    decode 0x90648005 = .ok (.stw 3 4 0x8005) ∧ decode 0x94648005 = .ok (.stwu 3 4 0x8005) ∧
    decode 0x98648005 = .ok (.stb 3 4 0x8005) ∧ decode 0x9C648005 = .ok (.stbu 3 4 0x8005) ∧
    decode 0xA0648005 = .ok (.lhz 3 4 0x8005) ∧ decode 0xA4648005 = .ok (.lhzu 3 4 0x8005) ∧
    decode 0xA8648005 = .ok (.lha 3 4 0x8005) ∧ decode 0xAC648005 = .ok (.lhau 3 4 0x8005) ∧
    decode 0xB0648005 = .ok (.sth 3 4 0x8005) ∧ decode 0xB4648005 = .ok (.sthu 3 4 0x8005) ∧
    decode 0xB8648005 = .ok (.lmw 3 4 0x8005) ∧ decode 0xBC648005 = .ok (.stmw 3 4 0x8005) ∧
    decode 0xC0648005 = .ok (.lfs 3 4 0x8005) ∧ decode 0xC4648005 = .ok (.lfsu 3 4 0x8005) ∧
    decode 0xC8648005 = .ok (.lfd 3 4 0x8005) ∧ decode 0xCC648005 = .ok (.lfdu 3 4 0x8005) := by decide +kernel

theorem test_decode_load_store_5 :
    decode 0xD0648005 = .ok (.stfs 3 4 0x8005) ∧ decode 0xD4648005 = .ok (.stfsu 3 4 0x8005) ∧
    decode 0xD8648005 = .ok (.stfd 3 4 0x8005) ∧ decode 0xDC648005 = .ok (.stfdu 3 4 0x8005) := by decide +kernel

theorem test_decode_float_1 :
    decode 0xEC642825 = .ok (.fdivs 3 4 5 true) ∧ decode 0xEC642829 = .ok (.fsubs 3 4 5 true) ∧
    decode 0xEC64282B = .ok (.fadds 3 4 5 true) ∧ decode 0xEC602031 = .ok (.fres 3 4 true) ∧
    decode 0xEC640173 = .ok (.fmuls 3 4 5 true) ∧ decode 0xEC643179 = .ok (.fmsubs 3 4 5 6 true) ∧
    decode 0xEC64317B = .ok (.fmadds 3 4 5 6 true) ∧ decode 0xEC64317D = .ok (.fnmsubs 3 4 5 6 true) ∧
    decode 0xEC64317F = .ok (.fnmadds 3 4 5 6 true) ∧ decode 0xFD842800 = .ok (.fcmpu 3 4 5) ∧
    decode 0xFC602019 = .ok (.frsp 3 4 true) ∧ decode 0xFC60201D = .ok (.fctiw 3 4 true) ∧
    decode 0xFC60201F = .ok (.fctiwz 3 4 true) ∧ decode 0xFC642825 = .ok (.fdiv 3 4 5 true) ∧
    decode 0xFC642829 = .ok (.fsub 3 4 5 true) ∧ decode 0xFC64282B = .ok (.fadd 3 4 5 true) := by decide +kernel

theorem test_decode_float_2 :
    decode 0xFC64316F = .ok (.fsel 3 4 5 6 true) ∧ decode 0xFC640173 = .ok (.fmul 3 4 5 true) ∧
    decode 0xFC602035 = .ok (.frsqrte 3 4 true) ∧ decode 0xFC643179 = .ok (.fmsub 3 4 5 6 true) ∧
    decode 0xFC64317B = .ok (.fmadd 3 4 5 6 true) ∧ decode 0xFC64317D = .ok (.fnmsub 3 4 5 6 true) ∧
    decode 0xFC64317F = .ok (.fnmadd 3 4 5 6 true) ∧ decode 0xFD842840 = .ok (.fcmpo 3 4 5) ∧
    decode 0xFC60004D = .ok (.mtfsb1 3 true) ∧ decode 0xFC602051 = .ok (.fneg 3 4 true) ∧
    decode 0xFD900080 = .ok (.mcrfs 3 4) ∧ decode 0xFC60008D = .ok (.mtfsb0 3 true) ∧
    decode 0xFC602091 = .ok (.fmr 3 4 true) ∧ decode 0xFD80910D = .ok (.mtfsfi 3 9 true) ∧
    decode 0xFC602111 = .ok (.fnabs 3 4 true) ∧ decode 0xFC602211 = .ok (.fabs 3 4 true) := by decide +kernel

theorem test_decode_float_3 :
    decode 0xFC60048F = .ok (.mffs 3 true) ∧ decode 0xFD22258F = .ok (.mtfsf 0x91 4 true) := by decide +kernel

theorem test_decode_branch_1 :
    decode 0x0C648005 = .ok (.twi 3 4 0x8005) ∧ decode 0x40648017 = .ok (.bc 3 4 0x2005 true true) ∧
    decode 0x44000822 = .ok (.sc 65) ∧ decode 0x4A00000F = .ok (.b 0x800003 true true) ∧
    decode 0x4D900000 = .ok (.mcrf 3 4) ∧ decode 0x4C641021 = .ok (.bclr 3 4 2 true) ∧
    decode 0x4C642842 = .ok (.crnor 3 4 5) ∧ decode 0x4C642902 = .ok (.crandc 3 4 5) ∧
    decode 0x4C642982 = .ok (.crxor 3 4 5) ∧ decode 0x4C6429C2 = .ok (.crnand 3 4 5) ∧
    decode 0x4C642A02 = .ok (.crand 3 4 5) ∧ decode 0x4C642A42 = .ok (.creqv 3 4 5) ∧
    decode 0x4C642B42 = .ok (.crorc 3 4 5) ∧ decode 0x4C642B82 = .ok (.cror 3 4 5) ∧
    decode 0x4C641421 = .ok (.bcctr 3 4 2 true) ∧ decode 0x7C642808 = .ok (.tw 3 4 5) := by decide +kernel

theorem test_decode_branch_2 :
    decode 0x7C64299E = .ok (.isel 3 4 5 6) ∧ decode 0x7C600026 = .ok (.mfcr 3) ∧
    decode 0x7C791026 = .ok (.mfocrf 3 0x91) ∧ decode 0x7C40007C = .ok (.wait 2) ∧
    decode 0x7C691120 = .ok (.mtcrf 3 0x91) ∧ decode 0x7C791120 = .ok (.mtocrf 3 0x91) ∧
    decode 0x7E001A1C = .ok (.ehpriv 0x4003) ∧ decode 0x7C7352A6 = .ok (.mfspr 3 0x153) ∧
    decode 0x7C7352E6 = .ok (.mftb 3 0x153) ∧ decode 0x7C7353A6 = .ok (.mtspr 3 0x153) ∧
    decode 0x7D800400 = .ok (.mcrxr 3) := by decide +kernel

theorem test_decode_sync_cache_1 :
    decode 0x4C00012C = .ok .isync ∧ decode 0x7C642828 = .ok (.lwarx 3 4 5) ∧ decode 0x7D24282C = .ok (.icbt 9 4 5) ∧
    decode 0x7C03206C = .ok (.dcbst 3 4) ∧ decode 0x7C03207E = .ok (.dcbstep 3 4) ∧
    decode 0x7C0320AC = .ok (.dcbf 3 4) ∧ decode 0x7C0320FE = .ok (.dcbfep 3 4) ∧
    decode 0x7D24290C = .ok (.dcbtstls 9 4 5) ∧ decode 0x7C64292D = .ok (.stwcxDot 3 4 5) ∧
    decode 0x7D24294C = .ok (.dcbtls 9 4 5) ∧ decode 0x7D2429CC = .ok (.icblc 9 4 5) ∧
    decode 0x7D2429EC = .ok (.dcbtst 9 4 5) ∧ decode 0x7D2429FE = .ok (.dcbtstep 9 4 5) ∧
    decode 0x7D242A2C = .ok (.dcbt 9 4 5) ∧ decode 0x7D242A7E = .ok (.dcbtep 9 4 5) ∧
    decode 0x7D242B0C = .ok (.dcblc 9 4 5) := by decide +kernel

theorem test_decode_sync_cache_2 :
    decode 0x7C0323AC = .ok (.dcbi 3 4) ∧ decode 0x7D242BCC = .ok (.icbtls 9 4 5) ∧
    decode 0x7C4004AC = .ok (.sync 2) ∧ decode 0x7C0325EC = .ok (.dcba 3 4) ∧ decode 0x7C2325EC = .ok (.dcbal 3 4) ∧
    decode 0x7C6006AC = .ok (.mbar 3) ∧ decode 0x7C0327AC = .ok (.icbi 3 4) ∧ decode 0x7C0327BE = .ok (.icbiep 3 4) ∧
    decode 0x7C0327EC = .ok (.dcbz 3 4) ∧ decode 0x7C2327EC = .ok (.dcbzl 3 4) ∧
    decode 0x7C0327FE = .ok (.dcbzep 3 4) ∧ decode 0x7C2327FE = .ok (.dcbzlep 3 4) := by decide +kernel

theorem test_decode_supervisor :
    decode 0x4C00004C = .ok .rfmci ∧ decode 0x4C00004E = .ok .rfdi ∧ decode 0x4C000064 = .ok .rfi ∧
    decode 0x4C000066 = .ok .rfci ∧ decode 0x4C0000CC = .ok .rfgi ∧ decode 0x4C6A998C = .ok (.dnh 3 0x153) ∧
    decode 0x7C6000A6 = .ok (.mfmsr 3) ∧ decode 0x7C600106 = .ok (.wrtee 3) ∧ decode 0x7C600124 = .ok (.mtmsr 3) ∧
    decode 0x7C008146 = .ok (.wrteei true) ∧ decode 0x7C00199C = .ok (.msgsnd 3) ∧
    decode 0x7C0019DC = .ok (.msgclr 3) ∧ decode 0x7C73529C = .ok (.mfpmr 3 0x153) ∧
    decode 0x7C73539C = .ok (.mtpmr 3 0x153) := by decide +kernel

/-- stwcx. has bit 31 set; the word without it matches no row (30 R376, U24). -/
theorem test_refuses_stwcx_without_bit_31 : decode 0x7C64292C = .error (.extended 31 150) := by decide +kernel

/-! ### Vectors: the comment of each names its row in 96_test_vectors_instructions.md or 97_test_vectors_system.md -/

/-- One page for the whole address space, each permission given. -/
def page : TlbEntry :=
  { TlbEntry.boot with epn := 0, rpn := 0, tsize := 11, perm := 0x3F, wimge := 0b00100 }

/-- Hypervisor state with MSR[FP] = 1, the effective addresses the real ones, the bytes 00, 11 to FF from 0x2000 on. -/
def flat : State :=
  { State.reset with
    pc := 0x1000
    msr := 0x2000
    gpr := State.reset.gpr.set 4 0x2000
    mmu := { State.reset.mmu with tlb1 := (State.reset.mmu.tlb1.set 0 page).set 1 { page with tgs := true } }
    mem := { cells := (List.range 15).map fun i => (0x2001 + i, BitVec.ofNat 8 (0x11 * (i + 1))) } }

/-- A state with general registers, with floating-point registers replaced. -/
def withG (s : State) (l : List (BitVec 5 × Word)) : State := l.foldl (fun s x => s.setGpr x.1 x.2) s
def withF (s : State) (l : List (BitVec 5 × DWord)) : State := l.foldl (fun s x => s.setFpr x.1 x.2) s

/-- Vectors as in the head of 97_test_vectors_system.md, at places of this test's own. -/
def vectors : IntRegs :=
  { flat.int with
    ivpr := 0xFFF00000, ivor := (Vector.replicate 23 0x700), givpr := 0x00200000, givor := Vector.replicate 6 0xC00 }

/-- A reservation of the granule at 0x2000. -/
def reserved : Hidden := { flat.hid with reserve := some { granule := 0x80, coherent := false } }

/-- A word decodes, and its instruction reaches a next state with a property. -/
def run (w : Word) (s : State) (p : State → Bool) : Bool :=
  match decode w with
  | .ok i =>
    match exec i s with
    | .next t => p t
    | .fault _ | .refused _ => false
  | .error _ => false

/-- I1. -/
theorem test_addi_zero_base : run 0x3860FFFF (withG flat [(0, 0x1234)])
    (fun t => t.getGpr 3 == 0xFFFFFFFF) = true := by decide +kernel
/-- I4. -/
theorem test_addis : run 0x3C64FFFF (withG flat [(4, 0x10000)])
    (fun t => t.getGpr 3 == 0) = true := by decide +kernel
/-- I6. -/
theorem test_addo_dot_overflow : run 0x7C642E15 (withG flat [(4, 0x7FFFFFFF), (5, 1)])
    (fun t => t.getGpr 3 == 0x80000000 && t.cr == 0x90000000 && t.xer == 0xC0000000) = true := by decide +kernel
/-- I7. -/
theorem test_addo_sticky : run 0x7C642E14 { withG flat [(4, 1), (5, 2)] with xer := 0xC0000000 }
    (fun t => t.getGpr 3 == 3 && t.xer == 0x80000000) = true := by decide +kernel
/-- I12. -/
theorem test_addeo_dot : run 0x7C642D15 { withG flat [(4, 0x7FFFFFFF), (5, 0)] with xer := 0x20000000 }
    (fun t => t.getGpr 3 == 0x80000000 && t.cr == 0x90000000 && t.xer == 0xC0000000) = true := by decide +kernel
/-- I20. -/
theorem test_subf_order : run 0x7C642850 (withG flat [(4, 7), (5, 5)])
    (fun t => t.getGpr 3 == 0xFFFFFFFE) = true := by decide +kernel
/-- I23. -/
theorem test_subfc_borrow : run 0x7C642810 { withG flat [(4, 5), (5, 4)] with xer := 0x20000000 }
    (fun t => t.getGpr 3 == 0xFFFFFFFF && t.xer == 0) = true := by decide +kernel
/-- I30. -/
theorem test_subfic_sign : run 0x2064FFFF (withG flat [(4, 0xFFFFFFFF)])
    (fun t => t.getGpr 3 == 0 && t.xer == 0x20000000) = true := by decide +kernel
/-- I33. -/
theorem test_nego_dot : run 0x7C6404D1 (withG flat [(4, 0x80000000)])
    (fun t => t.getGpr 3 == 0x80000000 && t.cr == 0x90000000 && t.xer == 0xC0000000) = true := by decide +kernel
/-- I34. -/
theorem test_mulli : run 0x1C64FFFD (withG flat [(4, 0x40000000)])
    (fun t => t.getGpr 3 == 0x40000000) = true := by decide +kernel
/-- I36. -/
theorem test_mullwo_dot : run 0x7C642DD7 (withG flat [(4, 0x10000), (5, 0x10000)])
    (fun t => t.getGpr 3 == 0 && t.cr == 0x30000000 && t.xer == 0xC0000000) = true := by decide +kernel
/-- I39. -/
theorem test_mulhw : run 0x7C642896 (withG flat [(4, 0xFFFFFFFF), (5, 1)])
    (fun t => t.getGpr 3 == 0xFFFFFFFF) = true := by decide +kernel
/-- I40. -/
theorem test_mulhwu : run 0x7C642816 (withG flat [(4, 0xFFFFFFFF), (5, 0xFFFFFFFF)])
    (fun t => t.getGpr 3 == 0xFFFFFFFE) = true := by decide +kernel
/-- I42. -/
theorem test_divw_toward_zero : run 0x7C642BD6 (withG flat [(4, 7), (5, 0xFFFFFFFE)])
    (fun t => t.getGpr 3 == 0xFFFFFFFD) = true := by decide +kernel
/-- I47. -/
theorem test_divwo_undefined : run 0x7C642FD6 (withG flat [(4, 0x80000000), (5, 0xFFFFFFFF)])
    (fun t => t.xer == 0xC0000000 && t.pc == 0x1004) = true := by decide +kernel
/-- I52. -/
theorem test_cmp_one_field : run 0x7F842800 { withG flat [(4, 3), (5, 3)] with xer := 0x80000000, cr := 0xFFFFFFFF }
    (fun t => t.cr == 0xFFFFFFF3) = true := by decide +kernel
/-- I51. -/
theorem test_cmpl_unsigned : run 0x7C042840 (withG flat [(4, 0xFFFFFFFF), (5, 1)])
    (fun t => t.cr == 0x40000000) = true := by decide +kernel
/-- I57. -/
theorem test_andi_dot : run 0x70838000 (withG flat [(4, 0x7FFF)])
    (fun t => t.getGpr 3 == 0 && t.cr == 0x20000000) = true := by decide +kernel
/-- I66. -/
theorem test_orc : run 0x7C832B38 (withG flat [(4, 0), (5, 0xFFFF)])
    (fun t => t.getGpr 3 == 0xFFFF0000) = true := by decide +kernel
/-- I71. -/
theorem test_extsb : run 0x7C830774 (withG flat [(4, 0x12345680)])
    (fun t => t.getGpr 3 == 0xFFFFFF80) = true := by decide +kernel
/-- I74. -/
theorem test_cntlzw_zero : run 0x7C830034 (withG flat [(4, 0)])
    (fun t => t.getGpr 3 == 32) = true := by decide +kernel
/-- I77. -/
theorem test_rlwinm_wrapped : run 0x54830706 (withG flat [(4, 0xFFFFFFFF)])
    (fun t => t.getGpr 3 == 0xF000000F) = true := by decide +kernel
/-- I80. -/
theorem test_rlwnm_five_bits : run 0x5C83283E (withG flat [(4, 0x80000001), (5, 0x21)])
    (fun t => t.getGpr 3 == 3) = true := by decide +kernel
/-- I82. -/
theorem test_rlwimi : run 0x5083442E (withG flat [(4, 0xAB), (3, 0x11223344)])
    (fun t => t.getGpr 3 == 0x1122AB44) = true := by decide +kernel
/-- I85. -/
theorem test_slw_by_32 : run 0x7C832830 (withG flat [(4, 0xFFFFFFFF), (5, 0x20), (3, 7)])
    (fun t => t.getGpr 3 == 0) = true := by decide +kernel
/-- I92. -/
theorem test_sraw_by_32 : run 0x7C832E30 (withG flat [(4, 0x80000000), (5, 0x20)])
    (fun t => t.getGpr 3 == 0xFFFFFFFF && t.xer == 0x20000000) = true := by decide +kernel
/-- I95. -/
theorem test_srawi_dot : run 0x7C832671 (withG flat [(4, 0xFFFFFF00)])
    (fun t => t.getGpr 3 == 0xFFFFFFF0 && t.cr == 0x80000000 && t.xer == 0) = true := by decide +kernel
/-- L4. -/
theorem test_lha : run 0xA8640008 flat
    (fun t => t.getGpr 3 == 0xFFFF8899) = true := by decide +kernel
/-- L7. -/
theorem test_lwz_misaligned : run 0x80640001 flat
    (fun t => t.getGpr 3 == 0x11223344) = true := by decide +kernel
/-- L8. -/
theorem test_lwz_zero_base : run 0x80602008 flat
    (fun t => t.getGpr 3 == 0x8899AABB) = true := by decide +kernel
/-- L14 (no word placed there: it reads 0). -/
theorem test_lwzx_wraps : run 0x7C64282E (withG flat [(5, 0xFFFFFFFC)])
    (fun t => t.getGpr 3 == 0) = true := by decide +kernel
/-- L15. -/
theorem test_lwbrx : run 0x7C642C2C (withG flat [(5, 0)])
    (fun t => t.getGpr 3 == 0x33221100) = true := by decide +kernel
/-- F10. -/
theorem test_stfs_denormal : run 0xD0240000 (withF flat [(1, 0x36A0000000000000)])
    (fun t => t.readByte 0x2003 == 1 && t.readByte 0x2000 == 0) = true := by decide +kernel
/-- F14. -/
theorem test_fadd_tie : run 0xFC22182A (withF flat [(2, 0x3FF0000000000000), (3, 0x3CA0000000000000)])
    (fun t => t.getFpr 1 == 0x3FF0000000000000 && t.fpscr == 0x82024000) = true := by decide +kernel
/-- F15. -/
theorem test_fadd_up :
    run 0xFC22182A
      { withF flat [(2, 0x3FF0000000000000), (3, 0x3CA0000000000000)] with fpscr := 2 }
    (fun t => t.getFpr 1 == 0x3FF0000000000001 && t.fpscr == 0x82064002) = true := by decide +kernel
/-- F19. -/
theorem test_fadd_enabled_invalid :
    run 0xFC22182A
      { withF flat [(1, 5), (2, 0x7FF0000000000000), (3, 0xFFF0000000000000)] with fpscr := 0x80 }
    (fun t => t.getFpr 1 == 5 && t.fpscr == 0xE0800080) = true := by decide +kernel
/-- F20. -/
theorem test_fadd_dot_snan : run 0xFC22182B (withF flat [(2, 0x7FF4000000000000), (3, 0x3FF0000000000000)])
    (fun t => t.getFpr 1 == 0x7FFC000000000000 && t.fpscr == 0xA1011000 &&
      t.cr == 0x0A000000) = true := by decide +kernel
/-- F24. -/
theorem test_fadds : run 0xEC22182A (withF flat [(2, 0x3FF0000000000000), (3, 0x3E80000000000000)])
    (fun t => t.getFpr 1 == 0x3FF0000020000000 && t.fpscr == 0x4000) = true := by decide +kernel
/-- F27. -/
theorem test_fsubs_denormal : run 0xEC221828 (withF flat [(2, 0x3810000000000000), (3, 0x3800000000000000)])
    (fun t => t.getFpr 1 == 0x3800000000000000 && t.fpscr == 0x14000) = true := by decide +kernel
/-- F30. -/
theorem test_fmul_underflow : run 0xFC220132 (withF flat [(2, 0x1A70000000000000), (4, 0x1A70000000000000)])
    (fun t => t.getFpr 1 == 0 && t.fpscr == 0x8A022000) = true := by decide +kernel
/-- F34. -/
theorem test_fdiv_by_zero : run 0xFC221824 (withF flat [(2, 0xBFF0000000000000), (3, 0)])
    (fun t => t.getFpr 1 == 0xFFF0000000000000 && t.fpscr == 0x84009000) = true := by decide +kernel
/-- F38. -/
theorem test_fdivs : run 0xEC221824 (withF flat [(2, 0x3FF0000000000000), (3, 0x4008000000000000)])
    (fun t => t.getFpr 1 == 0x3FD5555560000000 && t.fpscr == 0x82064000) = true := by decide +kernel
/-- F39. -/
theorem test_fmadd_once :
    run 0xFC22193A
      (withF flat [(2, 0x3FF0000000000001), (3, 0xBFF0000000000000), (4, 0x3FEFFFFFFFFFFFFF)])
    (fun t => t.getFpr 1 == 0x3C9FFFFFFFFFFFFE && t.fpscr == 0x4000) = true := by decide +kernel
/-- F43. -/
theorem test_fnmsub_zero :
    run 0xFC22193C
      (withF flat [(2, 0x4000000000000000), (3, 0x4018000000000000), (4, 0x4008000000000000)])
    (fun t => t.getFpr 1 == 0x8000000000000000 && t.fpscr == 0x12000) = true := by decide +kernel
/-- F47. -/
theorem test_frsp_up : run 0xFC201818 (withF flat [(3, 0x3FF0000010000001)])
    (fun t => t.getFpr 1 == 0x3FF0000020000000 && t.fpscr == 0x82064000) = true := by decide +kernel
/-- F66. -/
theorem test_fcmpu_snan : run 0xFD021800 (withF flat [(2, 0x7FF4000000000000), (3, 0x3FF0000000000000)])
    (fun t => t.cr == 0x00100000 && t.fpscr == 0xA1001000) = true := by decide +kernel
/-- F72. -/
theorem test_fcmpo_enabled :
    run 0xFD021840
      { withF flat [(2, 0x7FF4000000000000), (3, 0x3FF0000000000000)] with fpscr := 0x80 }
    (fun t => t.cr == 0x00100000 && t.fpscr == 0xE1001080) = true := by decide +kernel
/-- F79. -/
theorem test_mtfsb1 : run 0xFEE0004C { withF flat [] with fpscr := 0x80 }
    (fun t => t.fpscr == 0xE0000180) = true := by decide +kernel
/-- F83. -/
theorem test_mtfsf : run 0xFD021D8E { withF flat [(3, 0xFFFFFFFF)] with fpscr := 0 }
    (fun t => t.fpscr == 0x9000000F) = true := by decide +kernel
/-- F84. -/
theorem test_mcrfs : run 0xFD840080 { withF flat [] with fpscr := 0xEF000080 }
    (fun t => t.cr == 0x000F0000 && t.fpscr == 0x80000080) = true := by decide +kernel
/-- B13. -/
theorem test_bdnz : run 0x4200FFF8 { flat with ctr := 2 }
    (fun t => t.ctr == 1 && t.pc == 0xFF8) = true := by decide +kernel
/-- B21. -/
theorem test_bclrl : run 0x4E800021 { flat with lr := 0x2000 }
    (fun t => t.lr == 0x1004 && t.pc == 0x2000) = true := by decide +kernel
/-- B25. -/
theorem test_bcctrl : run 0x4D860421 { flat with ctr := 0x3000, cr := 0x02000000 }
    (fun t => t.lr == 0x1004 && t.pc == 0x3000) = true := by decide +kernel
/-- B33. -/
theorem test_crandc : run 0x4C011102 { flat with cr := 0x40000000 }
    (fun t => t.cr == 0xC0000000) = true := by decide +kernel
/-- B41. -/
theorem test_mcrxr : run 0x7D000400 { flat with xer := 0xE0000045, cr := 0xFFFFFFFF }
    (fun t => t.cr == 0xFFEFFFFF && t.xer == 0x45) = true := by decide +kernel
/-- B57. -/
theorem test_isel_zero_base : run 0x7C60281E { withG flat [(0, 0x99), (5, 0x22)] with cr := 0x80000000 }
    (fun t => t.getGpr 3 == 0) = true := by decide +kernel
/-- B61. -/
theorem test_twi_traps : run 0x0D03FFFF { withG flat [(3, 0)] with msr := 0, int := vectors }
    (fun t => t.int.srr0 == 0x1000 && t.int.esr == 0x02000000 &&
      t.msr == 0 && t.pc == 0xFFF00700) = true := by decide +kernel
/-- B65. -/
theorem test_mftb : run 0x7C6C42E6 { flat with tim := { flat.tim with tb := 0x100001234 } }
    (fun t => t.getGpr 3 == 0x1234) = true := by decide +kernel
/-- B69. -/
theorem test_sc_guest : run 0x44000002 { flat with msr := 0x1000C002, int := vectors }
    (fun t => t.int.gsrr0 == 0x1004 && t.int.gsrr1 == 0x1000C002 && t.msr == 0x10000002 &&
      t.pc == 0x00200C00 && t.int.srr0 == 0) = true := by decide +kernel
/-- B73. -/
theorem test_ehpriv : run 0x7C000A1C { flat with msr := 0x10004000 }
    (fun t => t.int.srr0 == 0x1000 && t.int.srr1 == 0x10004000 && t.msr == 0) = true := by decide +kernel
/-- K2. -/
theorem test_lwarx_moves : run 0x7CA41828 { (withG flat [(4, 0x2000), (3, 4)]) with hid := reserved }
    (fun t => t.getGpr 5 == 0x44556677 &&
      t.hid.reserve == some { granule := 0x80, coherent := true }) = true := by decide +kernel
/-- K6. -/
theorem test_stwcx_same_granule : run 0x7CC0192D { (withG flat [(3, 0x203C), (6, 0xCAFEF00D)]) with hid := reserved }
    (fun t => t.cr == 0x20000000 && t.hid.reserve == none &&
      t.readByte 0x203C == 0xCA && t.readByte 0x203F == 0x0D) = true := by decide +kernel
/-- K18. -/
theorem test_dcbz_32 : run 0x7C001FEC { (withG flat [(3, 0x2008)]) with cache := { flat.cache with l1csr0 := 8 } }
    (fun t => t.mem.cells == []) = true := by decide +kernel
/-- K30. -/
theorem test_dcbi_user : run 0x7C001BAC { withG flat [(3, 0x2000)] with msr := 0x4000, int := vectors }
    (fun t => t.int.srr0 == 0x1000 && t.int.esr == 0x04000000 &&
      t.msr == 0 && t.pc == 0xFFF00700) = true := by decide +kernel
/-- S4. -/
theorem test_mtmsr_hypervisor : run 0x7C800124 { withG flat [(4, 0xFFFFFFFF)] with msr := 0x1000 }
    (fun t => t.msr == 0x1402FB36) = true := by decide +kernel
/-- S7. -/
theorem test_mtmsr_guest :
    run 0x7C800124
      { withG flat [(4, 0x04028200)] with msr := 0x10001002, ctl := { flat.ctl with msrp := 0x200 } }
    (fun t => t.msr == 0x14029000) = true := by decide +kernel
/-- S13. -/
theorem test_wrteei : run 0x7C000146 { flat with msr := 0x9000 }
    (fun t => t.msr == 0x1000) = true := by decide +kernel
/-- S19. -/
theorem test_rfgi_guest :
    run 0x4C0000CC
      { flat with msr := 0x10001000, int := { flat.int with gsrr0 := 0x10000, gsrr1 := 0xC200 } }
    (fun t => t.msr == 0x1000D200 && t.pc == 0x10000) = true := by decide +kernel
/-- S25. -/
theorem test_rfdi_guest : run 0x4C00004E { flat with msr := 0x10000000 }
    (fun t => t.int.srr0 == 0x1000 && t.log.interrupts == [.hvPrivilege]) = true := by decide +kernel
/-- S40. -/
theorem test_mfpmr_user_shut :
    run 0x7C60629C
      { flat with msr := 0x10004000, ctl := { flat.ctl with msrp := 4 }, pm := { flat.pm with pmgc0 := 0x80000000 } }
    (fun t => t.getGpr 3 == 0) = true := by decide +kernel
/-- A3. -/
theorem test_mtspr_pvr : run 0x7C7F43A6 flat
    (fun t => t.int.srr0 == 0x1000 && t.int.esr == 0x08000000) = true := by decide +kernel
/-- A15. -/
theorem test_mfspr_sprg3_guest_user :
    run 0x7C6342A6
      { flat with msr := 0x10004000, sprgs := { flat.sprgs with sprg := flat.sprgs.sprg.set 3 0xAAAA0000, gsprg := flat.sprgs.gsprg.set 3 0xBBBB0000 } }
    (fun t => t.getGpr 3 == 0xBBBB0000) = true := by decide +kernel
/-- A21. -/
theorem test_mtspr_eplc_guest :
    run 0x7C73EBA6
      { withG flat [(3, 0xFFFFFFFF)] with msr := 0x10000000, mmu := { flat.mmu with eplc := 0x20050000 } }
    (fun t => t.mmu.eplc == 0xE00500FF) = true := by decide +kernel
/-- A24. -/
theorem test_mtspr_dec : run 0x7C7603A6 (withG flat [(3, 0)])
    (fun t => t.tim.dec == 0 && t.tim.tsr == 0) = true := by decide +kernel
/-- Y7. -/
theorem test_mfmsr_reserved_bits : run 0x7CBFF8A6 { flat with msr := 0x9000 }
    (fun t => t.getGpr 5 == 0x9000) = true := by decide +kernel
/-- Y10. -/
theorem test_tlbsx_rA : run 0x7C041F24 flat
    (fun t => t.int.esr == 0x08000000) = true := by decide +kernel
/-- M11. -/
theorem test_tlbsx_miss :
    run 0x7C001F24
      { (withG State.reset [(3, 0x00405678)]) with mmu := { State.reset.mmu with mas4 := 0x104, mas6 := 0x50000, nv := State.reset.mmu.nv.set 5 2 } }
    (fun t => t.mmu.mas0 == 0x00020003 && t.mmu.mas1 == 0x00050100 &&
      t.mmu.mas2 == 0x00405004 && t.mmu.mas3 == 0) = true := by decide +kernel
/-- X2. -/
theorem test_fp_unavailable_guest : run 0xC8230000 { flat with msr := 0x10008002, int := vectors }
    (fun t => t.int.srr0 == 0x1000 && t.int.srr1 == 0x10008002 &&
      t.msr == 2 && t.pc == 0xFFF00700) = true := by decide +kernel
/-- X5. -/
theorem test_lmw_alignment : run 0xBBA30000 { (withG flat [(3, 0x2002)]) with msr := 0x1000 }
    (fun t => t.int.dear == 0x2002 && t.int.esr == 0 && t.getGpr 29 == 0) = true := by decide +kernel
/-- H2. -/
theorem test_trap_recorded :
    run 0x7C831808
      { flat with msr := 0x9002, dbg := { flat.dbg with dbcr0 := 0x41000000, dbsr := 0 } }
    (fun t => t.int.esr == 0x02000000 && t.msr == 0x1002 && t.dbg.dbsr == 0x81000000) = true := by decide +kernel
/-- H5. -/
theorem test_branch_event :
    run 0x48000100
      { flat with msr := 0x9202, dbg := { flat.dbg with dbcr0 := 0x44000000, dbsr := 0 } }
    (fun t => t.int.dsrr0 == 0x1000 && t.int.dsrr1 == 0x9202 &&
      t.dbg.dbsr == 0x04000000 && t.msr == 0x1002) = true := by decide +kernel

/-! ### One step each, from the rule that each names -/

/-- A device at the eight bytes from 0x2000. -/
def withDevice : State := { flat with physMap := [{ base := 0x2000, size := 8, kind := .device }] }

/-- 41 R541, R534: the device receives the address, the data and, from a caching-inhibited page, the decoration 1. -/
theorem test_stwdx_to_device :
    run 0x7C642D86
      { withG withDevice [(3, 0xAABBCCDD), (4, 0xF1), (5, 0x2000)] with
        mmu := { flat.mmu with tlb1 := flat.mmu.tlb1.set 0 { page with wimge := 0b01110 } } }
    (fun t => t.mem.cells == flat.mem.cells && t.log.devices ==
      [{ op := .write, addrs := [0x2000, 0x2001, 0x2002, 0x2003], data := [0xAA, 0xBB, 0xCC, 0xDD],
         decoration := some 1 }]) = true := by decide +kernel
/-- 10 R49, 30 R382, 60 R627: a write of a read-only number is illegal, in user state too. -/
theorem test_sprAccess_read_only :
    ({ flat with msr := 0x6000 } : State).sprAccess 268 true = .illegal ∧
    ({ flat with msr := 0x6000 } : State).sprAccess 259 true = .illegal ∧
    flat.sprAccess 259 true = .illegal := by decide +kernel
/-- 20 R286, R287: a store that crosses a doubleword boundary is two accesses, the lower part first. -/
theorem test_store_parts :
    ({ flat with physMap := [{ base := 0x2000, size := 64, kind := .device }] }.storePlaced none
      { bytes := realRange 0x2004 8, wimge := 0b01010, upper := 0b01010 } 0x0102030405060708).log.devices =
    [{ op := .write, addrs := realRange 0x2004 4, data := [1, 2, 3, 4], decoration := none },
     { op := .write, addrs := realRange 0x2008 4, data := [5, 6, 7, 8], decoration := none }] := by decide +kernel
/-- 20 R292: a caching-inhibited fetch from a device reads the 64 bytes of its line. -/
theorem test_fetch_burst :
    ((({ flat with physMap := [{ base := 0x2000, size := 64, kind := .device }] } : State).fetchPlaced
      { bytes := realRange 0x2004 4, wimge := 0b01000, upper := 0b01000 }).2.log.devices.map (·.addrs)) = [realRange 0x2000 64] := by
  decide +kernel
/-- flat with nothing at 0x2000 to 0x2007, and the L2 cache as L2CSR0 has it. -/
def withAbsent (l2csr0 : Word) : State :=
  { flat with
    physMap := [{ base := 0x2000, size := 8, kind := .absent }], cache := { flat.cache with l2csr0 := l2csr0 } }
/-- 20 R280, 11 R136, 41 R482: a store to an absent address is followed by a machine check with L2CSR0[L2E] = 1; with
L2E = 0 it completes and MCSR stays 0. -/
theorem test_absent_store :
    ((withAbsent 0x80000000).storePlaced none { bytes := realRange 0x2000 4, wimge := 0b00100, upper := 0b00100 } 0).int.mcsr =
      1 ∧
    run 0x90640000 (withG (withAbsent 0) [(3, 1), (4, 0x2000)])
      (fun t => t.int.mcsr == 0 && t.log.completed && t.log.interrupts == []) = true := by decide +kernel
/-- 14 R252, 63 R791: in the inclusive range mode there is an IAC1 condition alone, which events 140 and 141 both count and
trigger source 0011 alone sees. -/
theorem test_iac_range :
    let t := ({ flat with
      dbg := { flat.dbg with dbcr0 := 0x00C00000, dbcr1 := 0x00800000, iac1 := 0x1000, iac2 := 0x2000 } } : State).noteIac
    t.iacConditions = (true, false) ∧ tally none t 140 = 1 ∧ tally none t 141 = 1 ∧
      triggerSource t 0 true 3 = true ∧ triggerSource t 0 true 4 = false := by decide +kernel
/-- 60 R626 (c): an IAC event whose halt is masked is recorded, but not with an error report of the fetch. -/
theorem test_masked_iac :
    let watched (s : State) : State :=
      { s with
        pc := 0x2000
        dbg := { s.dbg with dbcr0 := 0x00800000, iac1 := 0x2000, edbcr0 := 0x80000000, edbsrmsk0 := 0x00800000 } }
    (match (watched (withAbsent 0)).runInstr.2 with
      | .next t => t.log.interrupts == [.errorReport] && t.dbg.edbsr0 == 0
      | _ => false) = true ∧
    (match (watched flat).runInstr.2 with
      | .next t => !t.hid.dbgHalted && t.dbg.edbsr0 == 0x00800000
      | _ => false) = true := by decide +kernel
/-- 60 R625: an error report of the fetch comes before an enabled IAC event, which comes before all else. -/
theorem test_fetch_report_before_iac :
    let watched (s : State) : State :=
      { s with pc := 0x2000, msr := 0x2200, dbg := { s.dbg with dbcr0 := 0x40800000, iac1 := 0x2000 } }
    (match (watched (withAbsent 0)).runInstr.2 with
      | .next t => t.log.interrupts == [.errorReport] && t.int.mcsrr0 == 0x2000 && t.dbg.dbsr == 0x20000000
      | _ => false) = true ∧
    (match (watched flat).runInstr.2 with
      | .next t => t.log.interrupts == [.debug] && t.int.dsrr0 == 0x2000 && t.dbg.dbsr == 0x20800000
      | _ => false) = true := by decide +kernel
/-- 62 R700, D37: mtspr TBU that makes bit 0 of the time base rise, which TCR = 0 selects: TSR[FIS] and TSR[ENW]. -/
theorem test_mtspr_tbu :
    run 0x7C7D43A6 (withG flat [(3, 0x80000000)])
      (fun t => t.tim.tb == 0x8000000000000000 && t.tim.tsr == 0x84000000) = true := by decide +kernel
/-- 62 R733, 44 R1080: an icbi of another core drops a lock, with the instruction cache disabled too. -/
theorem test_snoopIcbi_disabled :
    let t := ({ flat with cache := { flat.cache with lockI := [0x80, 0x81] } } : State).snoopIcbi 0x2004
    t.cache.lockI = [0x81] ∧ t.cache.l1csr1 = 0x800 := by decide +kernel
/-- 20 R286, R289: each part of an access that crosses a page boundary goes by its own page: here the upper page alone is
caching-inhibited, so that part alone carries the decoration. -/
theorem test_parts_by_page :
    (({ flat with physMap := [{ base := 0x2000, size := 0x2000, kind := .device }] } : State).loadPlaced (some 5)
      { bytes := realRange 0x2FFE 4, wimge := 0b00000, upper := 0b01000 }).2.log.devices.map (·.decoration) =
    [none, some 5] := by decide +kernel
/-- 71 R845, 20 R292: the second of two instructions of one fetch group brings no read of its own; that of the next group
does. -/
theorem test_fetch_group :
    let s : State := { flat with physMap := [{ base := 0x2000, size := 64, kind := .device }] }
    let p (a : BitVec 36) : Placed := { bytes := realRange a 4, wimge := 0b01000, upper := 0b01000 }
    (((s.setFetched (some 0x2008)).fetchPlaced (p 0x2008)).2.log.devices = [] ∧
      ((s.setFetched (some 0x2008)).fetchPlaced (p 0x200C)).2.log.devices.map (·.addrs) = [realRange 0x2000 64]) ∧
    (let u : State :=
       { s with pc := 0x2008, mmu := { s.mmu with tlb1 := s.mmu.tlb1.set 0 { page with wimge := 0b01000 } } }
     u.groupLeft (some (.addi 3 0 1)) { u with pc := 0x200C } = some 0x200C ∧
     u.groupLeft (some .isync) { u with pc := 0x200C } = none ∧
     u.groupLeft (some (.b 0x20 false false)) { u with pc := 0x2028 } = none) := by decide +kernel
/-- 62 R703: its example, FSEL = 61; R704: its example, WSEL = 62 and WRC = 0b10, ticks 2, 6 and 10. -/
theorem test_fixed_interval :
    let t (tb : DWord) : State :=
      { flat with env := { flat.env with tben := true }, tim := { flat.tim with tb := tb, tcr := 0x0101E000 } }
    (t 2).timerTick.tim.tsr = 0 ∧ (t 3).timerTick.tim.tsr = 0x04000000 := by decide +kernel
theorem test_watchdog :
    let t (tb : DWord) (tsr : Word) : State :=
      { flat with
        env := { flat.env with tben := true }, tim := { flat.tim with tb := tb, tsr := tsr, tcr := 0xA01E0000 } }
    (t 1 0).timerTick.tim.tsr = 0x80000000 ∧ (t 5 0x80000000).timerTick.tim.tsr = 0xC0000000 ∧
    (t 9 0xC0000000).timerTick.tim.tsr = 0xE0000000 := by decide +kernel
/-- 42 R909: with NI = 1 a denormal operand counts as zero before anything else. -/
theorem test_fadds_flushes_operand : run 0xEC22182A { withF flat [(2, 1), (3, 0x3FF0000000000000)] with fpscr := 4 }
    (fun t => t.getFpr 1 == 0x3FF0000000000000) = true := by decide +kernel
/-- 61 R655: each assertion of nmi causes one interrupt. -/
theorem test_nmi_counts :
    (({ flat with env := { flat.env with nmi := 2 } } : State).takeAsync .nmi).env.nmi = 1 := by decide +kernel
/-- 14 R268: with TRIGONCTL = 0 a counter that is not frozen is ON, whatever it was. -/
theorem test_trigger_on :
    nextTrigger { flat with pm := { flat.pm with pmgc0 := 0, trig := Vector.replicate 4 false } } 0 = true := by
  decide +kernel

/-! ### States that meet the hypotheses of the statements -/

/-- An outcome that is a value, as a truth value and as a fact. -/
theorem ok_of {ε α : Type} {x : Except ε α} (h : (match x with | .ok _ => true | .error _ => false) = true) :
    ∃ a, x = .ok a := by
  cases x with
  | ok a => exact ⟨a, rfl⟩
  | error e => exact absurd h (by simp)
theorem ok_eq_of {ε α : Type} [DecidableEq α] {x : Except ε α} {a : α}
    (h : (match x with | .ok b => decide (b = a) | .error _ => false) = true) : x = .ok a := by
  cases x with
  | ok b => exact congrArg Except.ok (of_decide_eq_true h)
  | error e => exact absurd h (by simp)
theorem error_eq_of {ε α : Type} [DecidableEq ε] {x : Except ε α} {e : ε}
    (h : (match x with | .ok _ => false | .error d => decide (d = e)) = true) : x = .error e := by
  cases x with
  | ok b => exact absurd h (by simp)
  | error d => exact congrArg Except.error (of_decide_eq_true h)
theorem next_of {x : Out} (h : (match x with | .next _ => true | _ => false) = true) : ∃ t, x = .next t := by
  cases x with
  | next t => exact ⟨t, rfl⟩
  | fault f => exact absurd h (by simp)
  | refused f => exact absurd h (by simp)

/-- An access goes through. -/
def reachesAt (s : State) (a : Access) (ea : Word) (n : Nat) : Bool :=
  match s.place a ea n with
  | .ok p => decide (s.regionOf p.bytes = none) && decide (s.debugAction (s.partEvents a.dacWrite ea n) s.de = .ignore)
  | .error _ => false
theorem reaches_of {s : State} {a : Access} {ea : Word} {n : Nat} (h : reachesAt s a ea n = true) :
    ∃ p, Reaches s a ea n p := by
  unfold reachesAt at h
  split at h
  · rename_i p hp
    rw [Bool.and_eq_true, decide_eq_true_eq, decide_eq_true_eq] at h
    exact ⟨p, hp, h.1, h.2⟩
  · cases h

/-- A cache-block instruction reaches its byte. -/
def blockAt (s : State) (a : Access) (ea : Word) (q : Placed → Bool) : Bool :=
  match s.place a ea 1 with
  | .ok p => decide (s.debugAction (s.dacEvents a.dacWrite ea) s.de = .ignore) && q p
  | .error _ => false
theorem block_of {s : State} {a : Access} {ea : Word} {q : Placed → Bool} (h : blockAt s a ea q = true) :
    ∃ p, ReachesBlock s a ea p ∧ q p = true := by
  unfold blockAt at h
  split at h
  · rename_i p hp
    rw [Bool.and_eq_true, decide_eq_true_eq] at h
    exact ⟨p, ⟨hp, h.1⟩, h.2⟩
  · cases h

theorem flat_wf : flat.mem.wf := by decide +kernel

/-- flat in user state, in guest supervisor state, with other pages, with flags. -/
def user : State := { flat with msr := 0x6000 }
def guest : State := { flat with msr := 0x10002000 }
def withPage (e : TlbEntry) : State := { flat with mmu := { flat.mmu with tlb1 := flat.mmu.tlb1.set 0 e } }
def fpArgs (x y : DWord) : State := withF flat [(2, x), (3, y)]

/-- Quotients: a divisor other than 0 with quotients at both ends of the range, a divisor 0, and the one that
overflows. -/
theorem witness_Quotients :
    ((withG flat [(3, 0x80000000), (5, 1)]).getGpr 5 ≠ 0 ∧
      ¬notInt32 (((withG flat [(3, 0x80000000), (5, 1)]).getGpr 3).toInt.tdiv
        ((withG flat [(3, 0x80000000), (5, 1)]).getGpr 5).toInt)) ∧
    ((withG flat [(3, 0x80000001), (5, 0xFFFFFFFF)]).getGpr 5 ≠ 0 ∧
      ¬notInt32 (((withG flat [(3, 0x80000001), (5, 0xFFFFFFFF)]).getGpr 3).toInt.tdiv
        ((withG flat [(3, 0x80000001), (5, 0xFFFFFFFF)]).getGpr 5).toInt)) ∧
    flat.getGpr 5 = 0 ∧
    ((withG flat [(3, 0x80000000), (5, 0xFFFFFFFF)]).getGpr 3 = 0x80000000 ∧
      (withG flat [(3, 0x80000000), (5, 0xFFFFFFFF)]).getGpr 5 = 0xFFFFFFFF) := by
  unfold notInt32
  decide +kernel

/-- BranchResults: a taken branch that is no debug event, and both values of BO[2] in bcctr. -/
theorem witness_BranchResults :
    branchTaken 0b10100 0 flat.ctr flat.cr = true ∧ flat.debugAction (flat.enabledBit 37 dbBrt) flat.de = .ignore ∧
    (0b00100 : BitVec 5).getLsbD 2 = true ∧ (0b00000 : BitVec 5).getLsbD 2 = false := by decide +kernel

/-- TrapsAndCalls: a trap condition that holds, one that does not, no debug event, LEV of both kinds. -/
theorem witness_TrapsAndCalls :
    Traps 0b00100 (flat.getGpr 3) (flat.getGpr 5) ∧ ¬Traps 0b11011 (flat.getGpr 3) (flat.getGpr 5) ∧
    flat.debugAction (flat.enabledBit 39 dbTrap) flat.de = .ignore ∧
    (0 : BitVec 7).getLsbD 0 = false ∧ (1 : BitVec 7).getLsbD 0 = true := by
  unfold Traps
  decide +kernel

/-- AccessBytesAreTranslated: an access over the end of a page, one at the end of the address space, one of a page. -/
theorem witness_AccessBytesAreTranslated :
    (∃ p, flat.place .load 0x1FFE 4 = .ok p) ∧ (∃ p, flat.place .store 0xFFFFFFFE 4 = .ok p) ∧
      ∃ p, flat.place .load 0x2001 4096 = .ok p :=
  ⟨ok_of (by decide +kernel), ok_of (by decide +kernel), ok_of (by decide +kernel)⟩

/-- IntegerLoads, its loads without and its loads with update: rA = r4, rB = r5, d = 0; an access of each size; rA neither r0 nor rD. -/
theorem witness_IntegerLoads :
    (∃ p, Reaches flat .load (orZero flat 4 + (0 : BitVec 16).signExtend 32) 1 p) ∧
    (∃ p, Reaches flat .load (orZero flat 4 + flat.getGpr 5) 2 p) ∧
    ∃ p, Reaches flat .load (orZero flat 0 + flat.getGpr 5) 4 p :=
  ⟨reaches_of (by decide +kernel), reaches_of (by decide +kernel), reaches_of (by decide +kernel)⟩
theorem witness_IntegerLoadsWithUpdate :
    ((4 : Gpr) ≠ 0 ∧ (4 : Gpr) ≠ 3) ∧ (∃ p, Reaches flat .load (flat.getGpr 4 + (0 : BitVec 16).signExtend 32) 1 p) ∧
    (∃ p, Reaches flat .load (flat.getGpr 4 + flat.getGpr 5) 2 p) ∧
    ∃ p, Reaches flat .load (flat.getGpr 4 + flat.getGpr 5) 4 p :=
  ⟨by decide, reaches_of (by decide +kernel), reaches_of (by decide +kernel), reaches_of (by decide +kernel)⟩

/-- IntegerStores and IntegerStoresWithUpdate: storage in canonical form, an access of each size. -/
theorem witness_IntegerStores : flat.mem.wf ∧
    (∃ p, Reaches flat .store (orZero flat 4 + (0 : BitVec 16).signExtend 32) 1 p) ∧
    (∃ p, Reaches flat .store (orZero flat 4 + flat.getGpr 5) 2 p) ∧
    ∃ p, Reaches flat .store (orZero flat 0 + flat.getGpr 5) 4 p :=
  ⟨flat_wf, reaches_of (by decide +kernel), reaches_of (by decide +kernel), reaches_of (by decide +kernel)⟩
theorem witness_IntegerStoresWithUpdate : flat.mem.wf ∧
    (∃ p, Reaches flat .store (flat.getGpr 4 + (0 : BitVec 16).signExtend 32) 1 p) ∧
    (∃ p, Reaches flat .store (flat.getGpr 4 + flat.getGpr 5) 2 p) ∧
    ∃ p, Reaches flat .store (flat.getGpr 4 + flat.getGpr 5) 4 p :=
  ⟨flat_wf, reaches_of (by decide +kernel), reaches_of (by decide +kernel), reaches_of (by decide +kernel)⟩

/-- The place of a word in flat's page. -/
def wordAt (a : Nat) : Placed := 
  { bytes := realRange (BitVec.ofNat 36 a) 4, wimge := 0b00100, upper := 0b00100 }

theorem flat_debugOff : DebugOff flat := by
  unfold DebugOff
  decide +kernel

/-- LoadMultiple: lmw r30,0(r4) with rA below rD, and lmw r30,0(r30), whose second word comes from the loaded base or from
the old one. -/
theorem witness_LoadMultiple :
    (DebugOff flat ∧ ¬(30 : Gpr).toNat ≤ (4 : Gpr).toNat ∧ ∀ moves k, (30 : Gpr).toNat + k < 32 →
      flat.place { Access.load with aligned := decide (k = 0) } (lmwAddress flat 30 4 0 moves 0 k) 4 =
          .ok (wordAt (0x2000 + 4 * k)) ∧
        flat.regionOf (wordAt (0x2000 + 4 * k)).bytes = none) ∧
    (let s := withG flat [(30, 0x2000)]
     DebugOff s ∧ Holds s (wordAt 0x2000) (0x00112233 : Word).toNat ∧ ∀ moves k, (30 : Gpr).toNat + k < 32 →
      s.place { Access.load with aligned := decide (k = 0) } (lmwAddress s 30 30 0 moves 0x00112233 k) 4 =
          .ok (wordAt (if k = 0 then 0x2000 else if moves then 0x00112237 else 0x2004)) ∧
        s.regionOf (wordAt (if k = 0 then 0x2000 else if moves then 0x00112237 else 0x2004)).bytes = none) := by
  refine ⟨⟨flat_debugOff, by decide, ?_⟩, ?_, ⟨by decide +kernel, by decide +kernel⟩, ?_⟩
  · intro moves k hk
    match moves, k, hk with
    | false, 0, _ | true, 0, _ | false, 1, _ | true, 1, _ => exact ⟨ok_eq_of (by decide +kernel), by decide +kernel⟩
    | _, k + 2, hk => exact absurd hk (by change ¬30 + (k + 2) < 32; omega)
  · unfold DebugOff
    decide +kernel
  · intro moves k hk
    match moves, k, hk with
    | false, 0, _ | true, 0, _ | false, 1, _ | true, 1, _ => exact ⟨ok_eq_of (by decide +kernel), by decide +kernel⟩
    | _, k + 2, hk => exact absurd hk (by change ¬30 + (k + 2) < 32; omega)

/-- StoreMultiple: stmw r30,0(r4), whose bytes lie apart. -/
theorem witness_StoreMultiple : flat.mem.wf ∧ DebugOff flat ∧
    (∀ k, (30 : Gpr).toNat + k < 32 →
      flat.place { Access.store with aligned := decide (k = 0) }
          (orZero flat 4 + (0 : BitVec 16).signExtend 32 + BitVec.ofNat 32 (4 * k)) 4 = .ok (wordAt (0x2000 + 4 * k)) ∧
        flat.regionOf (wordAt (0x2000 + 4 * k)).bytes = none) ∧
    ((List.range (32 - (30 : Gpr).toNat)).flatMap fun k => (wordAt (0x2000 + 4 * k)).bytes).Nodup := by
  refine ⟨flat_wf, flat_debugOff, ?_, by decide +kernel⟩
  intro k hk
  match k, hk with
  | 0, _ => exact ⟨ok_eq_of (by decide +kernel), by decide +kernel⟩
  | 1, _ => exact ⟨ok_eq_of (by decide +kernel), by decide +kernel⟩
  | k + 2, hk => exact absurd hk (by change ¬30 + (k + 2) < 32; omega)

/-- FloatLoads and FloatStores: MSR[FP], an access of each size; a value with a single-precision word and one without. -/
theorem witness_FloatLoads : bit flat.msr 50 = true ∧
    (∃ p, Reaches flat .fpLoad (orZero flat 4 + (0 : BitVec 16).signExtend 32) 4 p) ∧
    ∃ p, Reaches flat .fpLoad (orZero flat 4 + flat.getGpr 5) 8 p :=
  ⟨by decide +kernel, reaches_of (by decide +kernel), reaches_of (by decide +kernel)⟩
theorem witness_FloatStores : bit flat.msr 50 = true ∧ flat.mem.wf ∧
    (singleDefined (flat.getFpr 1) = true ∧ singleDefined ((withF flat [(1, 1)]).getFpr 1) = false) ∧
    (∃ p, Reaches flat .fpStore (orZero flat 4 + (0 : BitVec 16).signExtend 32) 4 p) ∧
    (∃ p, Reaches (withF flat [(1, 1)]) .fpStore (orZero flat 4 + (0 : BitVec 16).signExtend 32) 4 p) ∧
    (∃ p, Reaches (withF flat [(1, 1)]) .fpStore (flat.getGpr 4 + flat.getGpr 5) 4 p) ∧
    ∃ p, Reaches flat .fpStore (orZero flat 4 + flat.getGpr 5) 8 p :=
  ⟨by decide +kernel, flat_wf, by decide +kernel, reaches_of (by decide +kernel), reaches_of (by decide +kernel),
    reaches_of (by decide +kernel), reaches_of (by decide +kernel)⟩

/-- DecoratedAccesses: rB = r4. -/
theorem witness_DecoratedAccesses : flat.mem.wf ∧ bit flat.msr 50 = true ∧
    (∃ p, Reaches flat .load (flat.getGpr 4) 1 p) ∧ (∃ p, Reaches flat .store (flat.getGpr 4) 4 p) ∧
    (∃ p, Reaches flat .fpLoad (flat.getGpr 4) 8 p) ∧ ∃ p, Reaches flat .fpStore (flat.getGpr 4) 8 p :=
  ⟨flat_wf, by decide +kernel, reaches_of (by decide +kernel), reaches_of (by decide +kernel),
    reaches_of (by decide +kernel), reaches_of (by decide +kernel)⟩

/-- ExternalPidAccesses: supervisor state, rA = 0, rB = r4. -/
theorem witness_ExternalPidAccesses : bit flat.msr 49 = false ∧ flat.mem.wf ∧ bit flat.msr 50 = true ∧
    (∃ p, Reaches flat Access.load.external (orZero flat 0 + flat.getGpr 4) 1 p) ∧
    (∃ p, Reaches flat Access.store.external (orZero flat 0 + flat.getGpr 4) 4 p) ∧
    (∃ p, Reaches flat Access.fpLoad.external (orZero flat 0 + flat.getGpr 4) 8 p) ∧
    ∃ p, Reaches flat Access.fpStore.external (orZero flat 0 + flat.getGpr 4) 8 p :=
  ⟨by decide +kernel, flat_wf, by decide +kernel, reaches_of (by decide +kernel), reaches_of (by decide +kernel),
    reaches_of (by decide +kernel), reaches_of (by decide +kernel)⟩

/-- Two pages side by side of different byte order. -/
def twoOrders : State :=
  { flat with
    mmu := { flat.mmu with
      tlb1 := (flat.mmu.tlb1.set 0 { page with tsize := 1, epn := 2, rpn := 2 }).set 1
        { page with tsize := 1, epn := 3, rpn := 3, wimge := 0b00101 } } }
/-- Two entries for one address. -/
def twoHits : State := { flat with mmu := { flat.mmu with tlb1 := flat.mmu.tlb1.set 2 page } }
/-- The same with HID0[EN_L2MMU_MHD] set. -/
def detected : State := { twoHits with ctl := { twoHits.ctl with hid0 := 0x40000000 } }
/-- The page of 4 Kbytes at 0x2000 alone. -/
def onePage : State := withPage { page with tsize := 1, epn := 2, rpn := 2 }

/-- FailedAccesses: each way in which an access fails. -/
theorem witness_FailedAccesses :
    (memAccess flat (.lwz 3 4 0) = some (.load, orZero flat 4 + (0 : BitVec 16).signExtend 32, 4) ∧
      accessAllowed flat .load ∧ accessAllowed flat .fpLoad ∧ accessAllowed flat .lwarx) ∧
    State.reset.place .load 0x2000 4 = .error (.xlate .miss, 0x2000) ∧
    (withPage { page with perm := 0 }).place .load 0x2000 4 = .error (.xlate .denied, 0x2000) ∧
    (withPage { page with vf := true }).place .load 0x2000 4 = .error (.xlate .virtualization, 0x2000) ∧
    twoOrders.place .load 0x2FFE 4 = .error (.byteOrder, 0x2FFE) ∧
    (withPage { page with wimge := 0b10100 }).place .lwarx 0x2000 4 = .error (.storageSync, 0x2000) ∧
    flat.place .lwarx 0x2002 4 = .error (.alignment, 0x2002) ∧
    (twoHits.place .load 0x2000 4 = .error (.xlate .multiple, 0x2000) ∧ bit twoHits.ctl.hid0 33 = false) ∧
    (detected.place .store 0x2000 4 = .error (.xlate .multiple, 0x2000) ∧ bit detected.ctl.hid0 33 = true) := by
  refine ⟨⟨rfl, ?_, ?_, ?_⟩, error_eq_of (by decide +kernel), error_eq_of (by decide +kernel), error_eq_of (by decide +kernel),
    error_eq_of (by decide +kernel), error_eq_of (by decide +kernel), error_eq_of (by decide +kernel),
    ⟨error_eq_of (by decide +kernel), by decide +kernel⟩, error_eq_of (by decide +kernel), by decide +kernel⟩
  all_goals
    unfold accessAllowed
    decide +kernel
/-- 63 R740, R743, R791: lwz r3,0(r4) and, in user state without MSR[UCLE], dcbtls 0,0,r4 end in a data storage interrupt;
the DAC1 condition of the attempted access occurs, and no event is recorded. -/
theorem test_dac_condition_of_failed_access :
    let watched : State :=
      { withPage { page with perm := 0 } with dbg := { flat.dbg with dbcr0 := 0x400C0000, dac1 := 0x2000 } }
    (run 0x80640000 watched fun t =>
      t.log.dac1 && !t.log.dac2 && t.dbg.dbsr == 0x20000000 && t.log.interrupts == [.dataStorage]) = true ∧
    (run 0x7C00214C { watched with msr := 0x6000 } fun t =>
      t.log.dac1 && !t.log.dac2 && t.dbg.dbsr == 0x20000000 && t.int.esr == 0x00200000) = true := by
  decide +kernel
/-- 14 R265: SILCN_CLK_CTRL2 has index 0x6C; a hard reset keeps it. -/
theorem test_writeClock :
    let t := (flat.apply (.writeClock 0x6C 5)).apply (.hardReset 0)
    t.dbg.clock.silcnClkCtrl = #v[0, 0, 5] ∧ (flat.apply (.writeClock 0x70 5)).dbg = flat.dbg := by decide +kernel
/-- Its cache-block instructions: one of each kind of access, with a state that may execute it, and one that fails in each
way. -/
theorem witness_FailedAccesses_blocks :
    (∀ i ∈ [Instr.dcbf 0 4, .icbi 0 4, .dcbi 0 4, .dcbz 0 4, .dcbfep 0 4, .icbiep 0 4, .dcbzep 0 4, .dcbtls 0 0 4,
        .dcblc 2 0 4], (blockAccess flat i).isSome = true ∧ blockAllowed flat i) ∧
    State.reset.place (blockRead true .running) 0x2000 1 = .error (.xlate .miss, 0x2000) ∧
    (withPage { page with perm := 0 }).place .store 0x2000 1 = .error (.xlate .denied, 0x2000) ∧
    (withPage { page with vf := true }).place (blockRead false .running) 0x2000 1 =
      .error (.xlate .virtualization, 0x2000) ∧
    (detected.place (blockRead false .running) 0x2000 1 = .error (.xlate .multiple, 0x2000) ∧
      bit detected.ctl.hid0 33 = true) := by
  refine ⟨?_, error_eq_of (by decide +kernel), error_eq_of (by decide +kernel), error_eq_of (by decide +kernel),
    error_eq_of (by decide +kernel), by decide +kernel⟩
  unfold blockAllowed mayLock
  decide +kernel
/-- Its later words: lmw r29 and stmw r29 from 0x2FFC on where the page ends there, n = 1; and lmw r30,0(r30), whose first
word, 0, as the new base leads to no page (n = 1), while the old base leads to r31 (n = 2). -/
theorem witness_FailedAccesses_later_words :
    (onePage.mem.wf ∧ DebugOff onePage ∧ (29 : Gpr).toNat + 1 < 32) ∧
    (let s := withG onePage [(4, 0x2FFC)]
     (∀ moves, s.place { Access.load with aligned := true } (lmwAddress s 29 4 0 moves 0 0) 4 = .ok (wordAt 0x2FFC) ∧
        s.place .load (lmwAddress s 29 4 0 moves 0 1) 4 = .error (.xlate .miss, 0x3000)) ∧
      s.regionOf (wordAt 0x2FFC).bytes = none ∧
      s.place { Access.store with aligned := true } (orZero s 4 + (0 : BitVec 16).signExtend 32) 4 = .ok (wordAt 0x2FFC) ∧
      s.place .store (orZero s 4 + (0 : BitVec 16).signExtend 32 + 4) 4 = .error (.xlate .miss, 0x3000)) ∧
    (let s := withG onePage [(30, 0x2010)]
     (∀ moves, s.place { Access.load with aligned := true } (lmwAddress s 30 30 0 moves 0 0) 4 = .ok (wordAt 0x2010)) ∧
      Holds s (wordAt 0x2010) (0 : Word).toNat ∧
      s.place .load (lmwAddress s 30 30 0 true 0 1) 4 = .error (.xlate .miss, 4) ∧
      s.place .load (lmwAddress s 30 30 0 false 0 1) 4 = .ok (wordAt 0x2014) ∧ (30 : Gpr).toNat + 2 = 32) := by
  refine ⟨⟨by decide +kernel, ?_, by decide⟩, ⟨fun moves => ?_, by decide +kernel, ok_eq_of (by decide +kernel),
      error_eq_of (by decide +kernel)⟩,
    ⟨fun moves => ?_, ⟨by decide +kernel, by decide +kernel⟩, error_eq_of (by decide +kernel),
      ok_eq_of (by decide +kernel), by decide⟩⟩
  · unfold DebugOff
    decide +kernel
  · cases moves <;> exact ⟨ok_eq_of (by decide +kernel), error_eq_of (by decide +kernel)⟩
  · cases moves <;> exact ok_eq_of (by decide +kernel)

/-- ReservedAccesses: lwarx and stwcx. go through, with the reservation of the granule held, and with none. -/
theorem witness_ReservedAccesses : flat.mem.wf ∧
    (∃ p, Reaches flat .lwarx (orZero flat 0 + flat.getGpr 4) 4 p) ∧
    (∃ p, Reaches { flat with hid := reserved } .stwcx (orZero flat 0 + flat.getGpr 4) 4 p ∧
      reserved.reserve = some { granule := (p.bytes.headD 0).extractLsb' 6 30, coherent := false }) ∧
    ((∃ p, Reaches flat .stwcx (orZero flat 0 + flat.getGpr 4) 4 p) ∧ flat.hid.reserve = none) := by
  refine ⟨flat_wf, reaches_of (by decide +kernel), ⟨wordAt 0x2000, ⟨ok_eq_of (by decide +kernel), ?_, ?_⟩, ?_⟩,
    reaches_of (by decide +kernel), rfl⟩ <;> decide +kernel

/-- Values of doubles, from their fields. -/
theorem valueOf_one : valueOf 0x3FF0000000000000 = 1 := by
  rw [show (0x3FF0000000000000 : DWord) = dOf false 1023 0 by decide,
    valueOf_dOf _ _ _ (by decide) (by decide) (by decide)]
  norm_num [withSign]
theorem valueOf_two : valueOf 0x4000000000000000 = 2 := by
  rw [show (0x4000000000000000 : DWord) = dOf false 1024 0 by decide,
    valueOf_dOf _ _ _ (by decide) (by decide) (by decide)]
  norm_num [withSign]
theorem valueOf_half : valueOf 0x3FE0000000000000 = 1 / 2 := by
  rw [show (0x3FE0000000000000 : DWord) = dOf false 1022 0 by decide,
    valueOf_dOf _ _ _ (by decide) (by decide) (by decide)]
  norm_num [withSign]
theorem valueOf_two31 : valueOf 0x41E0000000000000 = 2 ^ 31 := by
  rw [show (0x41E0000000000000 : DWord) = dOf false 1054 0 by decide,
    valueOf_dOf _ _ _ (by decide) (by decide) (by decide)]
  norm_num [withSign]
theorem valueOf_below : valueOf 0xC1E0000000200000 = -2 ^ 31 - 1 := by
  rw [show (0xC1E0000000200000 : DWord) = dOf true 1054 (2 ^ 21) by decide,
    valueOf_dOf _ _ _ (by decide) (by decide) (by decide)]
  norm_num [withSign]
theorem valueOf_zero : valueOf 0 = 0 := by
  simp [valueOf]

/-- Values that lie in the normal range of both formats. -/
theorem inRange_list : ∀ v ∈ [(2 : ℚ) + 1, 2 - 1, 2 / 1, 2 * 1, 2 * 1 + 1, 2 * 1 - 1, 1],
    InRange doubleFormat v ∧ InRange singleFormat v := by
  have low : ((2 : ℚ) ^ 1022)⁻¹ ≤ 1 := inv_le_one_of_one_le₀ (one_le_pow₀ (by norm_num))
  have high : (2 : ℚ) ^ 2 ≤ 2 ^ 1023 := pow_le_pow_right₀ (by norm_num) (by norm_num)
  simp only [List.forall_mem_cons]
  norm_num [InRange, doubleFormat, singleFormat]
  generalize ((2 : ℚ) ^ 1022)⁻¹ = x at *
  generalize (2 : ℚ) ^ 1023 = y at *
  refine ⟨⟨?_, ?_⟩, ⟨?_, ?_⟩, ⟨?_, ?_⟩, ⟨?_, ?_⟩, ?_, ?_⟩ <;> linarith

/-- FloatMoves: MSR[FP]; +0 and a NaN in frA. -/
theorem witness_FloatMoves : bit flat.msr 50 = true ∧
    ((flat.getFpr 2).extractLsb' 52 11 ≠ 2047 ∧ (flat.getFpr 2).msb = false) ∧
    (let a := (fpArgs 0x7FF8000000000000 0).getFpr 2
     a.extractLsb' 52 11 = 2047 ∧ a.setWidth 52 ≠ 0) := by decide +kernel

/-- FloatComputes: the two ends of an instruction. -/
theorem witness_FloatComputes : bit flat.msr 50 = true ∧ FeOff flat ∧ ¬FeOff { flat with msr := 0x2900 } ∧
    (match exec (.fadd 1 2 3 false) { fpArgs 0x7FF0000000000000 0xFFF0000000000000 with msr := 0x2900, fpscr := 0x80 } with
      | .next t => decide (bit t.fpscr 33 = true ∧ t.log.interrupts = [.program])
      | _ => false) = true := by
  unfold FeOff
  decide +kernel

/-- NanOperands: a signalling NaN first, a quiet one second. -/
theorem witness_NanOperands :
    let s := fpArgs 0x7FF4000000000000 0x7FF8000000000001
    bit s.msr 50 = true ∧ bit s.fpscr 56 = false ∧ FeOff s ∧ [s.getFpr 2, s.getFpr 3].any isNan = true ∧
      [s.getFpr 2, s.getFpr 3].any isSnan = true ∧ [s.getFpr 3].any isSnan = false := by
  unfold FeOff
  decide +kernel

/-- InvalidOperations: infinities of one sign and of two, an infinity and a zero, zeros, a number over a zero. -/
theorem witness_InvalidOperations :
    (bit flat.msr 50 = true ∧ bit flat.fpscr 56 = false ∧ bit flat.fpscr 59 = false ∧ FeOff flat) ∧
    (let x := (fpArgs 0x7FF0000000000000 0xFFF0000000000000).getFpr 2
     let y := (fpArgs 0x7FF0000000000000 0xFFF0000000000000).getFpr 3
     x.setWidth 63 = (0x7FF0000000000000 : BitVec 63) ∧ y.setWidth 63 = (0x7FF0000000000000 : BitVec 63) ∧ x.msb ≠ y.msb ∧
      x.msb = x.msb) ∧
    (flat.getFpr 2).setWidth 63 = (0 : BitVec 63) ∧
    (let x := (fpArgs 0x0010000000000000 0).getFpr 2
     x.extractLsb' 52 11 ≠ 0 ∧ x.setWidth 63 ≠ (0 : BitVec 63) ∧ isFinite x) ∧
    (let x := (fpArgs 0x8000000000000001 0).getFpr 2
     x.extractLsb' 52 11 = 0 ∧ x.setWidth 63 ≠ (0 : BitVec 63) ∧ isFinite x ∧ x.msb = true ∧ bit flat.fpscr 61 = false) := by
  unfold FeOff isFinite
  decide +kernel

/-- RoundingChoosesNeighbour: 2, 1 and 1 in frA, frB and frC, of both formats, with the sums, products and quotients in
range; 1 less 1 and 0 by 1, which are zero. -/
theorem witness_RoundingChoosesNeighbour :
    (bit flat.msr 50 = true ∧ FeOff flat ∧ bit flat.fpscr 61 = false) ∧
    (∀ w ∈ ([0, 0x3FF0000000000000, 0x4000000000000000] : List DWord), isFinite w ∧ singleRepresentable w = true) ∧
    (valueOf 0x4000000000000000 = 2 ∧ valueOf 0x3FF0000000000000 = 1 ∧ valueOf 0 = 0) ∧
    (∀ v ∈ [(2 : ℚ) + 1, 2 - 1, 2 / 1, 2 * 1, 2 * 1 + 1, 2 * 1 - 1, 1], InRange doubleFormat v ∧ InRange singleFormat v) ∧
    ((2 : ℚ) ^ (-125 : ℤ) ≤ |(1 : ℚ)⁻¹| ∧ |(1 : ℚ)⁻¹| ≤ 2 ^ (127 : ℤ)) := by
  refine ⟨?_, ?_, ⟨valueOf_two, valueOf_one, valueOf_zero⟩, inRange_list, by norm_num, by norm_num⟩
  · unfold FeOff
    decide +kernel
  · simp only [List.forall_mem_cons, isFinite]
    exact ⟨by decide +kernel, by decide +kernel, by decide +kernel, by simp⟩

/-- FloatCompares: MSR and FPSCR; numbers on both sides, and a NaN. -/
theorem witness_FloatCompares : bit flat.msr 50 = true ∧ FeOff flat ∧ bit flat.fpscr 61 = false ∧
    (numericOrder 0x8000000000000000 = numericOrder 0 ∧ numericOrder 0xBFF0000000000000 < numericOrder 0) ∧
    isNan 0x7FF0000000000001 = true := by
  unfold FeOff
  decide +kernel

/-- ConvertToWord: the values next to both ends of the range, a large one, a NaN and an infinity. -/
theorem witness_ConvertToWord :
    (bit flat.msr 50 = true ∧ FeOff flat ∧ bit flat.fpscr 56 = false ∧ bit flat.fpscr 61 = false) ∧
    (unpack 0x41DFFFFFFFC00000 = .num false 0x1FFFFFFFC00000 (-(22 : Nat)) ∧
      (0x1FFFFFFFC00000 : Nat) / 2 ^ 22 = 2 ^ 31 - 1) ∧
    (unpack 0x41E0000000000000 = .num false (2 ^ 52) (-(21 : Nat)) ∧ (2 : Nat) ^ 52 / 2 ^ 21 = 2 ^ 31) ∧
    (unpack 0xC1E0000000000000 = .num true (2 ^ 52) (-(21 : Nat))) ∧
    (unpack 0xC1E0000000200000 = .num true (2 ^ 52 + 2 ^ 21) (-(21 : Nat)) ∧
      ((2 : Nat) ^ 52 + 2 ^ 21) / 2 ^ 21 = 2 ^ 31 + 1) ∧
    (unpack 0x4330000000000000 = .num false (2 ^ 52) (0 : Nat)) ∧
    (unpack 0xC330000000000000 = .num true (2 ^ 52) (0 : Nat)) ∧
    unpack 0x7FF8000000000000 = .nan ∧ unpack 0xFFF0000000000000 = .inf true := by
  unfold FeOff
  decide +kernel
/-- Its clauses for fctiw: the tie at 1/2, the value above the range, the one below, a NaN. -/
theorem witness_ConvertToWord_rounded :
    (isFinite 0x3FE0000000000000 ∧ RoundsTo 0 1 (valueOf 0x3FE0000000000000) 0 ∧ ¬notInt32 0) ∧
    (isFinite 0x41E0000000000000 ∧ RoundsTo 0 1 (valueOf 0x41E0000000000000) (2 ^ 31)) ∧
    (isFinite 0xC1E0000000200000 ∧ RoundsTo 0 1 (valueOf 0xC1E0000000200000) (-2 ^ 31 - 1)) ∧
    (0xFFF8000000000000 : DWord).extractLsb' 52 11 = 2047 := by
  rw [valueOf_half, valueOf_two31, valueOf_below]
  unfold isFinite RoundsTo notInt32
  refine ⟨⟨by decide, ?_, by decide⟩, ⟨by decide, ?_⟩, ⟨by decide, ?_⟩, by decide⟩ <;> norm_num
  decide

/-- SingleStoreUndoesLoad: exponents 1 and 254, denormal numbers of the least and the most bits, exponents of a double
at both ends of the ranges. -/
theorem witness_SingleStoreUndoesLoad :
    ([0x00800000, 0x7F000000].map fun w : Word => (w.extractLsb' 23 8).toNat) = [1, 254] ∧
    (2 ^ 0 ≤ ((1 : Word).setWidth 23).toNat ∧ ((1 : Word).setWidth 23).toNat < 2 ^ 1) ∧
    (2 ^ 22 ≤ ((0x400000 : Word).setWidth 23).toNat ∧ ((0x400000 : Word).setWidth 23).toNat < 2 ^ 23) ∧
    ([0x3810000000000000, 0x3800000000000000, 0x36A0000000000000, 0x3690000000000000].map fun d : DWord =>
      ((d.extractLsb' 52 11).toNat, singleDefined d)) = [(897, true), (896, true), (874, true), (873, false)] := by
  decide +kernel

/-- FpscrMoves. -/
theorem witness_FpscrMoves : bit flat.msr 50 = true ∧ FeOff flat ∧ fpscrConsistent flat.fpscr := by
  unfold FeOff fpscrConsistent
  decide +kernel

/-- FloatUnavailable: without MSR[FP], and the privileged forms in user state. -/
theorem witness_FloatUnavailable :
    (usesFp (.fadd 1 2 3 false) = true ∧ bit State.reset.msr 50 = false) ∧
    (usesFp (.lfdepx 1 0 4) = true ∧ supervisorClass (.lfdepx 1 0 4) = true ∧
      bit ({ flat with msr := 0x4000 } : State).msr 49 = true ∧ bit ({ flat with msr := 0x4000 } : State).msr 50 = false) := by
  decide +kernel

/-- SprReads and SprWrites: the states, an NSPC index of each Nexus register, external debug mode on and off. -/
theorem witness_SprReads : InSupervisor guest ∧ InHypervisor flat ∧ InSupervisor flat ∧
    [0x408, 0x40C, 0x414, 0x42C, 0x458, 0x45C].all (fun n : Word =>
      decide (({ flat with dbg := { flat.dbg with nspc := n } } : State).dbg.nspc = n)) = true ∧
    flat.dbg.nspc ∉ ([0x408, 0x40C, 0x414, 0x42C, 0x458, 0x45C] : List Word) := by
  unfold InSupervisor InHypervisor
  decide +kernel
theorem witness_SprWrites : InSupervisor guest ∧ InHypervisor flat ∧ bit flat.dbg.edbcr0 32 = false ∧
    bit ({ flat with dbg := { flat.dbg with edbcr0 := 0x80000000 } } : State).dbg.edbcr0 32 = true := by
  unfold InSupervisor InHypervisor
  decide +kernel

/-- SprWritesComplete: each of the registers that the statement names can be written. -/
theorem witness_SprWritesComplete :
    flat.sprAccess 284 true = .ok .tbl ∧ flat.sprAccess 285 true = .ok .tbu ∧
    flat.sprAccess 975 true = .ok .devent ∧ flat.sprAccess 308 true = .ok .dbcr0 ∧
    flat.sprAccess 1010 true = .ok .l1csr0 ∧ flat.sprAccess 1011 true = .ok .l1csr1 ∧
    flat.sprAccess 1012 true = .ok .mmucsr0 ∧ bit flat.dbg.edbcr0 32 = false := by decide +kernel

/-- SprAccessRules: a number of each kind, at the ends of the lists. -/
theorem witness_SprAccessRules :
    (0 ∉ sprUserNumbers ∧ 0 ∉ sprGuestNumbers ∧ 0 ∉ sprHypervisorNumbers) ∧
    (306 ∈ sprHypervisorNumbers ∧ 306 ∈ sprWriteOnly) ∧ (287 ∈ sprGuestNumbers ∧ 287 ∈ sprReadOnly) ∧
    (259 ∈ sprUserNumbers ∧ 259 ∈ sprReadOnly) ∧
    (1023 ∈ sprGuestNumbers ∧ 1023 ∉ sprUserNumbers ∧ 1023 ∉ sprWriteOnly) ∧
    (1018 ∈ sprHypervisorNumbers ∧ 1018 ∉ sprGuestReads ∧ 1018 ∉ sprReadOnly) ∧
    (447 ∈ sprHypervisorNumbers ∧ 447 ∈ sprGuestReads ∧ 382 ∈ sprGuestReads ∧ 382 ∉ sprReadOnly) ∧
    bit user.msr 49 = true ∧ (bit guest.msr 49 = false ∧ bit guest.msr 35 = true) := by decide +kernel

/-- PerformanceMoves: MSRP[PMMP] and guest state together and not, user state and not, numbers of no register. -/
theorem witness_PerformanceMoves :
    (¬(bit flat.ctl.msrp 61 = true ∧ bit flat.msr 35 = true) ∧ ¬bit flat.msr 49 = true ∧ bit user.msr 49 = true) ∧
    (let s : State := { guest with ctl := { guest.ctl with msrp := 4 } }
     bit s.ctl.msrp 61 = true ∧ bit s.msr 35 = true ∧ ¬bit s.msr 49 = true) ∧
    (let s : State := { guest with ctl := { guest.ctl with msrp := 4 }, msr := 0x10004000 }
     bit s.ctl.msrp 61 = true ∧ bit s.msr 35 = true ∧ bit s.msr 49 = true) ∧
    (401 ≠ 400 ∧ 401 ≠ 384 ∧ 401 / 4 ∉ [4, 36, 68, 0, 32, 64]) ∧ 20 / 4 ∉ [4, 36, 68, 0, 32, 64] := by decide +kernel

/-- PrivilegeGates: a state and an instruction of each class, and tlbilx under EPCR[DGTMI]. -/
theorem witness_PrivilegeGates :
    (bit user.msr 49 = true ∧ supervisorClass .rfi = true ∧ hypervisorClass .tlbwe = true) ∧
    (bit guest.msr 49 = false ∧ bit guest.msr 35 = true) ∧
    bit ({ guest with ctl := { guest.ctl with epcr := 0x00800000 } } : State).ctl.epcr 40 = true := by decide +kernel

/-- MsrMoves. -/
theorem witness_MsrMoves : InSupervisor flat ∧ InSupervisor guest ∧ bit flat.msr 35 = false ∧
    flat.debugAction (flat.enabledBit 48 dbRet) flat.de = .ignore ∧
    flat.debugAction (flat.enabledBit 58 dbCret) flat.de = .ignore := by
  unfold InSupervisor
  decide +kernel

/-- MessagesAndHalt. -/
theorem witness_MessagesAndHalt : InHypervisor flat ∧ bit flat.dbg.edbcr0 33 = false ∧
    bit ({ flat with dbg := { flat.dbg with edbcr0 := 0x40000000 } } : State).dbg.edbcr0 33 = true := by
  unfold InHypervisor
  decide +kernel

/-- The context of a hypervisor access. -/
def hvCtx : Ctx := { gs := false, lpid := 0, as := false, pid := 0, pr := false }

/-- The places that match, from the list of them. -/
theorem none_of {m : Mmu} {c : Ctx} {ea : Word} (h : m.matches c ea = []) (l : TlbLoc) : ¬entryMatches m c ea l :=
  matches_eq_nil.1 h l
theorem one_of {m : Mmu} {c : Ctx} {ea : Word} {l : TlbLoc} (h : m.matches c ea = [l]) :
    entryMatches m c ea l ∧ ∀ k, entryMatches m c ea k → k = l := by
  constructor
  · exact (mem_matches m c ea l).1 (h ▸ List.mem_singleton.2 rfl)
  · intro k hk
    exact List.mem_singleton.1 (h ▸ (mem_matches m c ea k).2 hk)
theorem two_of {m : Mmu} {c : Ctx} {ea : Word} {k l : TlbLoc} (h : m.matches c ea = [k, l]) :
    entryMatches m c ea k ∧ entryMatches m c ea l :=
  ⟨(mem_matches m c ea k).1 (by rw [h]; simp), (mem_matches m c ea l).1 (by rw [h]; simp)⟩

/-- Translation: no entry, one in either array, two. -/
theorem witness_Translation :
    (∀ l, ¬entryMatches State.reset.mmu hvCtx 0xFFFFEFFF l) ∧
    (entryMatches State.reset.mmu hvCtx 0xFFFFF000 (.tlb1 0) ∧
      ∀ k, entryMatches State.reset.mmu hvCtx 0xFFFFF000 k → k = .tlb1 0) ∧
    (let m : Mmu := { State.reset.mmu with tlb0 := State.reset.mmu.tlb0.set 511 { page with epn := 0x7F, tsize := 1 } }
     entryMatches m hvCtx 0x0007FFFF (.tlb0 127 3) ∧ ∀ k, entryMatches m hvCtx 0x0007FFFF k → k = .tlb0 127 3) ∧
    (entryMatches twoHits.mmu hvCtx 0 (.tlb1 0) ∧ entryMatches twoHits.mmu hvCtx 0 (.tlb1 2)) :=
  ⟨none_of (by decide +kernel), one_of (by decide +kernel), one_of (by decide +kernel), two_of (by decide +kernel)⟩

/-- TlbReadsBackWrite: hypervisor state, MAS0 naming either array, TSIZE at both ends of the sizes and beyond them. -/
theorem witness_TlbReadsBackWrite : InHypervisor flat ∧ ¬bit flat.mmu.mas0 35 = true ∧
    bit ({ flat with mmu := { flat.mmu with mas0 := 0x10000000 } } : State).mmu.mas0 35 = true ∧
    ([0x000, 0x100, 0xB00, 0xC00].map fun w : Word =>
      ({ flat.mmu with mas1 := w } : Mmu).mas1.toNat / 256 % 16) = [0, 1, 11, 12] := by
  unfold InHypervisor
  decide +kernel

/-- TlbSearches: rB = r4; no match, one, two, HID0[EN_L2MMU_MHD] off and on. -/
theorem witness_TlbSearches : InHypervisor flat ∧ (4 : Gpr) ≠ 0 ∧
    (∀ l, ¬entryMatches State.reset.mmu hvCtx (State.reset.getGpr 4) l) ∧
    (entryMatches flat.mmu hvCtx (flat.getGpr 4) (.tlb1 0) ∧
      ∀ k, entryMatches flat.mmu hvCtx (flat.getGpr 4) k → k = .tlb1 0) ∧
    (entryMatches twoHits.mmu hvCtx (twoHits.getGpr 4) (.tlb1 0) ∧
      entryMatches twoHits.mmu hvCtx (twoHits.getGpr 4) (.tlb1 2)) ∧
    bit twoHits.ctl.hid0 33 = false ∧ bit detected.ctl.hid0 33 = true := by
  refine ⟨?_, by decide, none_of (by decide +kernel), one_of (by decide +kernel), two_of (by decide +kernel),
    by decide +kernel, by decide +kernel⟩
  unfold InHypervisor
  decide +kernel

/-- TlbInvalidations. -/
theorem witness_TlbInvalidations : InSupervisor flat ∧ bit flat.msr 35 = false ∧ bit flat.ctl.epcr 40 = false ∧
    InSupervisor guest := by
  unfold InSupervisor
  decide +kernel

/-- Cache enabled; a write-through page. -/
def cached : State :=
  { flat with cache := { flat.cache with l1csr0 := 1, l1csr1 := 1, l2csr0 := 0x80000000 } }
def throughPage : State := withPage { page with wimge := 0b10100 }

/-- BlocksZeroed: a block of both sizes that can be zeroed, a page that refuses, dcba that does nothing. -/
theorem witness_BlocksZeroed : flat.mem.wf ∧
    (∃ p, ReachesBlock cached .store (orZero cached 0 + cached.getGpr 4) p ∧
      (decide (p.w = false ∧ p.i = false ∧ cached.regionOf (blockBytes p 64) = none ∧
        cached.regionOf (blockBytes p 32) = none)) = true) ∧
    (∃ p, ReachesBlock throughPage .store (orZero throughPage 0 + throughPage.getGpr 4) p ∧
      decide (p.w = true ∨ p.i = true) = true) ∧
    (InSupervisor cached ∧ bit cached.cache.l1csr0 63 = true ∧ bit flat.cache.l1csr0 63 = false) ∧
    ∃ p, flat.place .store (orZero flat 0 + flat.getGpr 4) 1 = .ok p := by
  refine ⟨flat_wf, block_of (by decide +kernel), block_of (by decide +kernel), ?_, ok_of (by decide +kernel)⟩
  unfold InSupervisor
  decide +kernel

/-- BlocksFlushed. -/
theorem witness_BlocksFlushed : InSupervisor flat ∧
    (∃ p, ReachesBlock flat (blockRead true .running) (orZero flat 0 + flat.getGpr 4) p ∧ true = true) ∧
    (∃ p, ReachesBlock flat (blockRead false .extLoad) (orZero flat 0 + flat.getGpr 4) p ∧ true = true) ∧
    ∃ p, ReachesBlock flat .store (orZero flat 0 + flat.getGpr 4) p ∧ true = true := by
  refine ⟨?_, block_of (q := fun _ => true) (by decide +kernel), block_of (q := fun _ => true) (by decide +kernel),
    block_of (q := fun _ => true) (by decide +kernel)⟩
  unfold InSupervisor
  decide +kernel

/-- Eight other blocks of the set of block 0x80, in a cache of so many sets; caches whose sets they fill; a block that
lies where nothing answers. -/
def sameSet (sets : Nat) : List (BitVec 30) := (List.range 8).map fun k => BitVec.ofNat 30 (0x80 + sets * (k + 1))
def lockedFull (l2 : Word) : State :=
  { cached with
    cache := { cached.cache with
      l2csr0 := 0x80000000 ||| l2, lockD := sameSet 64, lockI := sameSet 64, lockL2 := sameSet 256 } }
def absentBlock : State := { cached with physMap := [{ base := 0x2000, size := 64, kind := .absent }] }

/-- BlocksLocked: who may lock, caches enabled and not, a set with room and a full one. -/
theorem witness_BlocksLocked :
    (bit flat.msr 49 = false ∧ bit flat.msr 35 = false ∧ bit user.msr 37 = false ∧
      bit ({ user with msr := 0x04006000 } : State).msr 37 = true) ∧
    (let s : State := { guest with ctl := { guest.ctl with msrp := 0x04000000 } }
     bit s.msr 49 = false ∧ bit s.msr 35 = true ∧ bit s.ctl.msrp 37 = true) ∧
    (∃ p, ReachesBlock cached (blockRead false .running) (orZero cached 0 + cached.getGpr 4) p ∧
      (decide (bit cached.cache.l1csr0 63 = true ∧ bit cached.cache.l1csr1 63 = true ∧
        bit cached.cache.l2csr0 32 = true ∧ bit cached.cache.l2csr0 43 = false ∧ bit cached.cache.l2csr0 56 = false ∧
        p.i = false ∧ cached.regionOf (blockBytes p 64) = none ∧ (true, blockNumber p) ∉ cached.cache.recent)) = true) ∧
    (∃ p, ReachesBlock cached (blockRead true .running) (orZero cached 0 + cached.getGpr 4) p ∧ true = true) ∧
    (bit flat.cache.l1csr0 63 = false ∧ bit flat.cache.l1csr1 63 = false) ∧
    (roomFor 64 0x80 cached.cache.lockD ∧ roomFor 256 0x80 cached.cache.lockL2 ∧ ¬roomFor 64 0x80 (sameSet 64) ∧
      ¬roomFor 256 0x80 (sameSet 256) ∧ roomFor 64 (BitVec.ofNat 30 (0x80 + 64)) (sameSet 64)) := by
  refine ⟨by decide +kernel, by decide +kernel, block_of (by decide +kernel),
    block_of (q := fun _ => true) (by decide +kernel), by decide +kernel, by decide +kernel⟩
/-- Its full sets: in each cache, with L2CSR0[L2LOA] 0 and 1; and a line that is to be loaded from an absent address. -/
theorem witness_BlocksLocked_full :
    (∃ p, ReachesBlock (lockedFull 0) (blockRead false .running) (orZero flat 0 + flat.getGpr 4) p ∧
      decide (blockNumber p = 0x80 ∧ p.i = false ∧ (lockedFull 0).cache.lockD = sameSet 64 ∧
        (lockedFull 0).cache.lockI = sameSet 64 ∧ (lockedFull 0).cache.lockL2 = sameSet 256 ∧
        bit (lockedFull 0).cache.l2csr0 56 = false) = true) ∧
    (∃ p, ReachesBlock (lockedFull 0x80) (blockRead true .running) (orZero flat 0 + flat.getGpr 4) p ∧
      decide (bit (lockedFull 0x80).cache.l2csr0 56 = true ∧ (lockedFull 0x80).regionOf (blockBytes p 64) ≠ some .absent) =
        true) ∧
    ∃ p, ReachesBlock absentBlock (blockRead false .running) (orZero flat 0 + flat.getGpr 4) p ∧
      decide (absentBlock.regionOf (blockBytes p 64) = some .absent) = true :=
  ⟨block_of (by decide +kernel), block_of (by decide +kernel), block_of (by decide +kernel)⟩

/-- TouchesOnlyComplete: no debug event, no multiple hit. -/
theorem witness_TouchesOnlyComplete : InSupervisor flat ∧
    flat.debugAction (flat.dacEvents false (orZero flat 0 + flat.getGpr 4)) flat.de = .ignore ∧
    (∃ p, flat.place { Access.load with ctx := .running } (orZero flat 0 + flat.getGpr 4) 1 = .ok p) ∧
    ∃ p, flat.place { Access.load with ctx := .extLoad } (orZero flat 0 + flat.getGpr 4) 1 = .ok p := by
  refine ⟨?_, by decide +kernel, ok_of (by decide +kernel), ok_of (by decide +kernel)⟩
  unfold InSupervisor
  decide +kernel

/-- Its clauses: with CT = 2 a block that a lock instruction has named, one that none has, and an address without an entry. -/
theorem witness_TouchesOnlyComplete_locks :
    (match flat.place { Access.load with ctx := .running } (orZero flat 0 + flat.getGpr 4) 1 with
      | .ok p => decide ((false, blockNumber p) ∉ flat.cache.recent) && blockNumber p == 0x80
      | .error _ => false) = true ∧
    (false, (0x80 : BitVec 30)) ∈ ({ flat.cache with recent := [(false, 0x80)] } : Cache).recent ∧
    State.reset.place { Access.load with ctx := .running } 0x2000 1 = .error (.xlate .miss, 0x2000) :=
  ⟨by decide +kernel, by decide, error_eq_of (by decide +kernel)⟩

/-- InterruptEntry: an interrupt of each list, and one directed to the guest. -/
theorem witness_InterruptEntry :
    let i (k : IntKind) (g : Bool) : Interrupt :=
      { kind := k, guest := g, async := false, ret := 0x1000, esr := none, dear := none }
    ((i .program false).kind = .program ∧ (i .program false).guest = false) ∧ (i .guestDoorbell false).kind = .guestDoorbell ∧
    (i .watchdog false).kind = .watchdog ∧ (i .debug false).kind = .debug ∧ (i .nmi false).kind = .nmi ∧
    ((i .systemCall true).kind = .systemCall ∧ (i .systemCall true).guest = true) := by decide

/-- The word of addi r3,r0,5 where flat's next fetch reads it. -/
def placed : State := flat.withFetchWord 32 0x38600005

/-- StepRunsInstruction: no input changes; an interrupt is pending; an instruction that completes, one that faults (two
entries match). -/
theorem witness_StepRunsInstruction :
    (placed.env.script = [] ∧ placed.env.tben = false ∧ placed.env.mcp = false ∧ placed.env.ude = false) ∧
    (let b := ({ flat with msr := 0xA000, tim := { flat.tim with tsr := 0x08000000, tcr := 0x04000000 } } : State)
        |>.beginStep.noteUde
     b.running = true ∧ b.asyncPending = some .decrementer) ∧
    (let b := placed.beginStep.noteUde
     let r := b.noteIac
     b.running = true ∧ b.asyncPending = none ∧ b.hid.waiting = false ∧ r.debugAction r.iacEvents r.de = .ignore ∧
       (match r.fetchPlace with | .ok p => decide (r.regionOf p.bytes = none) | _ => false) = true ∧
       (match r.fetch with | .ok (w, _) => decide (w = 0x38600005) | _ => false) = true ∧
       decode 0x38600005 = .ok (.addi 3 0 5) ∧
       (match exec (.addi 3 0 5) r with
         | .next t => decide (bit t.dbg.edbcr0 32 = false ∧ bit t.dbg.dbcr0 33 = false) | _ => false) = true) ∧
    (match exec (.tlbsx 0 4) twoHits with | .fault f => decide (f = .overlappingTlbEntries) | _ => false) = true := by
  decide +kernel
/-- The fetch of a state that fails for a reason, or finds a word that is no instruction. -/
def fetchFails (s : State) (f : XlateFail) : Bool :=
  let b := s.beginStep.noteUde
  let r := b.noteIac
  b.running && b.asyncPending == none && !b.hid.waiting && decide (r.debugAction r.iacEvents r.de = .ignore) &&
    match r.mmu.translate (runningContext r (bit r.msr 58)) .execute r.pc with
    | .error g => decide (g = f)
    | .ok _ => false
/-- Its other clauses: a tick, a core that waits and one that is halted, each way in which a fetch fails, a word that is no
instruction. -/
theorem witness_StepRunsInstruction_other :
    ({ flat with env := { flat.env with tben := true } } : State).tbRuns = true ∧
    (let b := ({ flat with hid := { flat.hid with waiting := true } } : State).beginStep.noteUde
     b.asyncPending = none ∧ b.hid.waiting = true) ∧
    ({ flat with hid := { flat.hid with dbgHalted := true } } : State).beginStep.noteUde.running = false ∧
    fetchFails { State.reset with pc := 0x1000 } .miss = true ∧ fetchFails (withPage { page with perm := 0 }) .denied = true ∧
    (fetchFails twoHits .multiple = true ∧ bit twoHits.ctl.hid0 33 = false) ∧
    (fetchFails detected .multiple = true ∧ bit detected.ctl.hid0 33 = true) ∧
    (match (flat.withFetchWord 32 0).beginStep.noteUde.noteIac.fetch with
      | .ok (w, _) => (match decode w with | .error _ => true | .ok _ => false)
      | .error _ => false) = true := by decide +kernel

/-- Its asynchronous interrupts: of two that are due the one of higher priority, an unconditional debug event in both modes
of debugging; and a fetch that is translated. -/
theorem witness_StepRunsInstruction_async :
    (let hid : Hidden := { flat.hid with dbell := #v[true, false, false, false, false] }
     ((asyncDue { flat with msr := 0xA000, env := { flat.env with int := true }, hid := hid }).filter Prod.snd).map Prod.fst =
       [.externalInput, .doorbell]) ∧
    (let s : State :=
       { flat with msr := 0x2200, env := { flat.env with ude := true }, dbg := { flat.dbg with dbcr0 := 0x40000000 } }
     s.env.ude = true ∧ s.running = true ∧ bit s.dbg.edbcr0 32 = false ∧ bit s.dbg.dbcr0 33 = true ∧ bit s.msr 54 = true ∧
       s.asyncPending = some .debug) ∧
    (let s : State := { flat with env := { flat.env with ude := true }, dbg := { flat.dbg with edbcr0 := 0x80000000 } }
     s.env.ude = true ∧ s.running = true ∧ bit s.dbg.edbcr0 32 = true ∧ s.asyncPending = some .debug) ∧ flat.env.ude = false ∧
    (let r := placed.beginStep.noteUde.noteIac
     (match r.mmu.translate (runningContext r (bit r.msr 58)) .execute r.pc with | .ok _ => true | .error _ => false) = true ∧
       r.pc.toNat % 4 = 0) := by decide +kernel

/-- DecrementerSteps: 0, 1 and more; a time base that runs and one that does not; interrupts that are due. -/
theorem witness_DecrementerSteps :
    flat.tim.dec = 0 ∧ (0 < ({ flat.tim with dec := 1 } : Timers).dec.toNat ∧ ({ flat.tim with dec := 1 } : Timers).dec ≠ 0) ∧
    ({ flat with env := { flat.env with tben := true } } : State).tbRuns = true ∧ flat.tbRuns = false ∧
    ({ flat with msr := 0xA000, tim := { flat.tim with tsr := 0x08000000, tcr := 0x04000000 } } : State).asyncPending =
      some .decrementer ∧
    ({ flat with msr := 0xA000, tim := { flat.tim with tsr := 0x04000000, tcr := 0x00800000 } } : State).asyncPending =
      some .fixedInterval ∧
    ({ flat with msr := 0x22000, tim := { flat.tim with tsr := 0x40000000, tcr := 0x08000000 } } : State).asyncPending =
      some .watchdog ∧ InHypervisor flat := by
  unfold InHypervisor
  decide +kernel

/-- StepKeepsInvariant: a state with the invariant and a next state. -/
theorem witness_StepKeepsInvariant : placed.Inv ∧ ∃ t, step placed = .next t :=
  ⟨⟨by decide +kernel, by decide +kernel, by decide +kernel, by decide +kernel, by
    unfold fpscrConsistent
    decide +kernel⟩, next_of (by decide +kernel)⟩

/-- UserStateContained and GuestContained: an instruction that completes there. -/
theorem witness_UserStateContained : bit user.msr 49 = true ∧
    (match exec (.mtspr 4 256) user with | .next t => decide (t.log.interrupts = user.log.interrupts) | _ => false) = true := by
  decide +kernel
theorem witness_GuestContained : bit guest.msr 35 = true ∧
    (match exec (.tlbilx 0 0 4) guest with | .next t => decide (t.log.interrupts = guest.log.interrupts) | _ => false) =
      true := by decide +kernel

end

end Sys2Proof.Tests
end

namespace Sys2Proof.Machine

/-! The register state (10_state.md): MSR and FPSCR after reset. -/

@[simp] theorem bit_zero (n : Nat) : bit 0 n = false := BitVec.getLsbD_zero

theorem bit_msr_reset (n : Nat) : bit State.reset.msr n = false := bit_zero n

/-- Settles O54: each named mode is one bit of MSR (R40), and MSR is 0 after reset (R45), as FPSCR is (R30). -/
theorem resetState : Obligations.ResetState :=
  ⟨rfl, rfl,
    bit_msr_reset 35, -- GS
    bit_msr_reset 49, -- PR
    bit_msr_reset 48, -- EE
    bit_msr_reset 46, -- CE
    bit_msr_reset 51, -- ME
    bit_msr_reset 54, -- DE
    bit_msr_reset 50, -- FP
    bit_msr_reset 58, -- IS
    bit_msr_reset 59⟩ -- DS

end Sys2Proof.Machine

namespace Sys2Proof.Machine

/-! Accesses that cannot be made (41_load_store.md section 5; 61_interrupt_definitions.md sections 2, 4, 10). -/

/-! ### One access -/

/-- The debug events of an access come after the access itself: what follows it starts from the same reach. -/
theorem access_andThen (s : State) (a : Access) (ea : Word) (n : Nat) (k : Placed → State → Out) :
    (s.access a ea n).andThen k = (s.reach a ea n).andThen fun p t =>
      (t.debugBefore (t.partEvents a.dacWrite ea n) t.de).andThen fun _ u => k p u := by
  unfold State.access
  cases s.reach a ea n with
  | done o => rfl
  | ok p t =>
    simp only [Res.bind, Res.andThen]
    cases t.debugBefore (t.partEvents a.dacWrite ea n) t.de <;> rfl

/-- An instruction that starts with an access, free values apart, ends as the access does where it is not placed. -/
theorem fails_of_reach {i : Instr} {s : State} {a : Access} {ea fea : Word} {n d : Nat} {f : AccessFail}
    {k : Placed → State → Out} (h : s.place a ea n = .error (f, fea))
    (hx : exec i s = (({ s with draws := d } : State).reach a ea n).andThen k) : Fails i s s a f fea := by
  rw [reach_fails (s := { s with draws := d }) h] at hx
  exact fails_of_accessFails hx

/-- The same with the debug events of the access after it. -/
theorem fails_of_access {i : Instr} {s : State} {a : Access} {ea fea : Word} {n d : Nat} {f : AccessFail}
    {k : Placed → State → Out} (h : s.place a ea n = .error (f, fea))
    (hx : exec i s = (({ s with draws := d } : State).access a ea n).andThen k) : Fails i s s a f fea :=
  fails_of_reach h (hx.trans (access_andThen _ _ _ _ _))

/-- A single-precision store takes at most a free value before its access. -/
theorem singleWord_state (s : State) (frS : BitVec 5) :
    (s.singleWord frS).2 = { s with draws := (s.singleWord frS).2.draws } := by
  unfold State.singleWord
  split <;> rfl

/-- A store of a single-precision register, with MSR[FP] = 1. -/
theorem fails_of_singleWord {i : Instr} {s : State} {frS : BitVec 5} {ea fea : Word} {f : AccessFail}
    {k : Placed → State → Out} (hfp : bit s.msr 50 = true) (h : s.place .fpStore ea 4 = .error (f, fea))
    (hx : exec i s = (s.singleWord frS).2.needFp (((s.singleWord frS).2.access .fpStore ea 4).andThen k)) :
    Fails i s s .fpStore f fea := by
  have hok : bit (s.singleWord frS).2.msr 50 = true := by
    rw [singleWord_state]
    exact hfp
  rw [needFp_ok hok, singleWord_state] at hx
  exact fails_of_access h hx

/-- A word of lmw or stmw that is not placed ends it, from the state that it has reached. -/
theorem fails_of_accessWord {i : Instr} {s u : State} {a : Access} {first : Bool} {ea fea : Word} {d : Nat}
    {l : StepLog} {f : AccessFail} {k : Placed × Word → State → Out}
    (h : u.place { a with aligned := first } ea 4 = .error (f, fea))
    (hx : exec i s = (({ u with log := l, draws := d } : State).accessWord a first ea).andThen k) :
    Fails i s u { a with aligned := first } f fea := by
  unfold State.accessWord at hx
  rw [reach_fails (s := { u with log := l, draws := d }) h] at hx
  exact fails_of_accessFails hx

/-- The decoration of an access plays no part in how it fails. -/
theorem fails_decorate {i : Instr} {s u : State} {a : Access} {f : AccessFail} {ea : Word}
    (h : Fails i s u a.decorate f ea) : Fails i s u a f ea := h

/-- lmw and stmw have a first word. -/
theorem regsFrom_cons (r : BitVec 5) : regsFrom r = r :: (regsFrom r).drop 1 := by
  simpa using drop_regsFrom r (c := 0) (by omega)

/-- lmw loads its words, from the base that it read first or, by a free value, from one that a load of rA moves. -/
theorem exec_lmw (s : State) (rD rA : BitVec 5) (d : BitVec 16) :
    ∃ (moves : Bool) (n : Nat), exec (.lmw rD rA d) s =
      ({ s with draws := n } : State).loadWords (if moves then rA else 0) (regsFrom rD) true (orZero s rA)
        (d.signExtend 32) 0 := by
  by_cases h : rA ≠ 0 ∧ rD.toNat ≤ rA.toNat
  · exact ⟨s.drawBit.1, s.drawBit.2.draws, if_pos h⟩
  · exact ⟨false, s.draws, if_neg h⟩

/-- The first word of lmw, and of stmw, is an access that needs alignment (41 R515, R516). -/
theorem fails_of_lmw_first {s : State} {rD rA : BitVec 5} {d : BitVec 16} {f : AccessFail} {fea : Word}
    (h : s.place { Access.load with aligned := true } (orZero s rA + d.signExtend 32) 4 = .error (f, fea)) :
    Fails (.lmw rD rA d) s s { Access.load with aligned := true } f fea := by
  obtain ⟨moves, n, hx⟩ := exec_lmw s rD rA d
  rw [regsFrom_cons, State.loadWords] at hx
  exact fails_of_accessWord (a := .load) (first := true) h hx

theorem fails_of_stmw_first {s : State} {rS rA : BitVec 5} {d : BitVec 16} {f : AccessFail} {fea : Word}
    (h : s.place { Access.store with aligned := true } (orZero s rA + d.signExtend 32) 4 = .error (f, fea)) :
    Fails (.stmw rS rA d) s s { Access.store with aligned := true } f fea := by
  have hx : exec (.stmw rS rA d) s = s.storeWords (regsFrom rS) true (orZero s rA + d.signExtend 32) 0 := rfl
  rw [regsFrom_cons, State.storeWords] at hx
  exact fails_of_accessWord (a := .store) (first := true) (d := s.draws) (l := s.log) h hx

/-- A load or store whose access is not placed, in a mode that permits it, ends as the access does (61 R657, R660,
R667). -/
theorem fails_of_memAccess {s : State} {i : Instr} {a : Access} {ea : Word} {n : Nat} {f : AccessFail} {fea : Word}
    (hm : memAccess s i = some (a, ea, n)) (ha : accessAllowed s a) (h : s.place a ea n = .error (f, fea)) :
    Fails i s s a f fea := by
  obtain ⟨hfp, hsup⟩ := ha
  cases i
  -- Integer loads and stores: the access comes first.
  case lbz rD rA d | lhz rD rA d | lha rD rA d | lwz rD rA d | lbzu rD rA d | lhzu rD rA d | lhau rD rA d | lwzu rD rA d
      | lbzx rD rA rB | lhzx rD rA rB | lhax rD rA rB | lwzx rD rA rB | lbzux rD rA rB | lhzux rD rA rB | lhaux rD rA rB
      | lwzux rD rA rB | lhbrx rD rA rB | lwbrx rD rA rB | lwarx rD rA rB | stb rS rA d | sth rS rA d | stw rS rA d
      | stbu rS rA d | sthu rS rA d | stwu rS rA d | stbx rS rA rB | sthx rS rA rB | stwx rS rA rB | stbux rS rA rB
      | sthux rS rA rB | stwux rS rA rB | sthbrx rS rA rB | stwbrx rS rA rB =>
    cases hm
    exact fails_of_access (d := s.draws) h rfl
  case stwcxDot rS rA rB =>
    cases hm
    exact fails_of_reach (d := s.draws) h rfl
  -- Decorated ones: the decoration plays no part in the failure.
  case lbdx rD rA rB | lhdx rD rA rB | lwdx rD rA rB | stbdx rS rA rB | sthdx rS rA rB | stwdx rS rA rB | dsn rA rB =>
    cases hm
    exact fails_decorate (fails_of_access (d := s.draws) h rfl)
  case lfddx frD rA rB | stfddx frS rA rB =>
    cases hm
    exact fails_decorate (fails_of_access (d := s.draws) h (needFp_ok (hfp rfl) _))
  -- External-PID ones: supervisor state.
  case lbepx rD rA rB | lhepx rD rA rB | lwepx rD rA rB | stbepx rS rA rB | sthepx rS rA rB | stwepx rS rA rB =>
    cases hm
    exact fails_of_access (d := s.draws) h (supervisorOnly_ok (hsup (by decide)) _)
  case lfdepx frD rA rB | stfdepx frS rA rB =>
    cases hm
    exact fails_of_access (d := s.draws) h
      ((supervisorOnly_ok (hsup (by decide)) _).trans (needFp_ok (hfp rfl) _))
  -- Floating-point ones: MSR[FP] = 1.
  case lfs frD rA d | lfd frD rA d | lfsu frD rA d | lfdu frD rA d | lfsx frD rA rB | lfdx frD rA rB | lfsux frD rA rB
      | lfdux frD rA rB | stfd frS rA d | stfdu frS rA d | stfdx frS rA rB | stfdux frS rA rB | stfiwx frS rA rB =>
    cases hm
    exact fails_of_access (d := s.draws) h (needFp_ok (hfp rfl) _)
  case stfs frS rA d | stfsu frS rA d | stfsx frS rA rB | stfsux frS rA rB =>
    cases hm
    exact fails_of_singleWord (frS := frS) (hfp rfl) h rfl
  -- Multiple words: the first one.
  case lmw rD rA d =>
    cases hm
    exact fails_of_lmw_first h
  case stmw rS rA d =>
    cases hm
    exact fails_of_stmw_first h
  all_goals cases hm

/-! ### Cache blocks -/

/-- A cache-block instruction whose byte is not placed ends as an access of that byte does (44 R1070, R1099). -/
theorem fails_of_located {i : Instr} {s : State} {a : Access} {ea fea : Word} {f : AccessFail} {k : Placed → Out}
    (h : s.place a ea 1 = .error (f, fea)) (hx : exec i s = s.located a ea k) : Fails i s s a f fea :=
  fails_of_accessFails (d := s.draws) (hx.trans (located_fails h k))

/-- Who may execute a lock instruction goes on with it (20 R327). -/
theorem lockAllowed_of_mayLock {s : State} (h : mayLock s) (data w : Bool) (ea : Word) (rest : Out) :
    s.lockAllowed data w ea rest = rest := by
  unfold mayLock at h
  unfold State.lockAllowed State.pr State.ucle State.gs
  cases hpr : bit s.msr 49
  · rcases (by simpa [hpr] using h : bit s.msr 35 = false ∨ bit s.ctl.msrp 37 = false) with hgs | hkeep
    · simp [hgs]
    · simp [hkeep]
  · have hucle : bit s.msr 37 = true := by simpa [hpr] using h
    simp [hucle]

/-- A cache-block instruction that the state may execute, and whose byte is not placed, ends as the access does. -/
theorem fails_of_blockAccess {s : State} {i : Instr} {a : Access} {ea : Word} {f : AccessFail} {fea : Word}
    (hb : blockAccess s i = some (a, ea)) (hallowed : blockAllowed s i) (h : s.place a ea 1 = .error (f, fea)) :
    Fails i s s a f fea := by
  obtain ⟨hsup, hlock⟩ := hallowed
  cases i
  case dcbf rA rB | dcbst rA rB | icbi rA rB | dcbz rA rB | dcbzl rA rB =>
    cases hb
    exact fails_of_located h rfl
  case dcbi rA rB | dcbfep rA rB | dcbstep rA rB | icbiep rA rB | dcbzep rA rB | dcbzlep rA rB =>
    cases hb
    exact fails_of_located h (supervisorOnly_ok (hsup rfl) _)
  case dcbtls ct rA rB | dcbtstls ct rA rB | dcblc ct rA rB | icbtls ct rA rB | icblc ct rA rB =>
    cases hb
    exact fails_of_located h (lockAllowed_of_mayLock (hlock rfl) _ _ _ _)
  all_goals cases hb

/-! ### Later words of lmw -/

/-- With no debug event enabled, a debug condition does nothing (63 R741). -/
theorem debugBefore_off {s : State} (hd : DebugOff s) (bits : Word) (de : Bool) : s.debugBefore bits de = .ok () s := by
  obtain ⟨hedm, hidm⟩ := hd
  have hq : s.debugAction bits de = .ignore := by
    unfold State.debugAction State.edm
    rw [hedm, hidm]
    simp
  unfold State.debugBefore
  rw [hq]

/-- A state that differs in the general-purpose registers that the effect names, and in the model's own bookkeeping. -/
theorem keeps_gprFile {e : Effect} {s : State} {g : Vector Word 32} (l : StepLog) (d : Nat)
    (h : ∀ r, r ∉ e.gprs → ({ s with gpr := g } : State).getGpr r = s.getGpr r) :
    Keeps e s { s with gpr := g, log := l, draws := d } :=
  { Keeps.refl e s with gprs := h }

/-- The base of word k of an lmw from rD on, where a load of register r, unless that is 0, moves it (41 R515). -/
def lmwBase (s : State) (rD rA r : BitVec 5) (q : Nat → Placed) : Nat → Word
  | 0 => orZero s rA
  | k + 1 =>
    if rD + BitVec.ofNat 5 k = r ∧ r ≠ 0 then BitVec.ofNat 32 (s.readPlaced (q k)) else lmwBase s rD rA r q k

/-- Which word of lmw is that of a register. -/
theorem word_eq_iff {rD r : BitVec 5} {k : Nat} (h : rD.toNat + k < 32) :
    rD + BitVec.ofNat 5 k = r ↔ rD.toNat + k = r.toNat := by
  rw [← BitVec.toNat_inj, BitVec.toNat_add, BitVec.toNat_ofNat]
  omega

/-- A base that does not move. -/
theorem lmwBase_fixed (s : State) (rD rA : BitVec 5) (q : Nat → Placed) (k : Nat) :
    lmwBase s rD rA 0 q k = orZero s rA := by
  induction k with
  | zero => rfl
  | succ k ih => rw [lmwBase, if_neg (fun h => h.2 rfl), ih]

/-- A base that moves does so after the word of rA. -/
theorem lmwBase_moved {s : State} {rD rA : BitVec 5} {loaded : Word} {q : Nat → Placed} {n : Nat}
    (hn : rD.toNat + n ≤ 32)
    (hq : rA ≠ 0 → rD.toNat ≤ rA.toNat → rA.toNat < rD.toNat + n → Holds s (q (rA.toNat - rD.toNat)) loaded.toNat)
    (k : Nat) (hk : k ≤ n) : lmwBase s rD rA rA q k =
      if rA ≠ 0 ∧ rD.toNat ≤ rA.toNat ∧ rA.toNat < rD.toNat + k then loaded else orZero s rA := by
  induction k with
  | zero => exact (if_neg fun ⟨_, hle, hlt⟩ => by omega).symm
  | succ k ih =>
    rw [lmwBase, ih (by omega)]
    by_cases hreg : rD + BitVec.ofNat 5 k = rA ∧ rA ≠ 0
    · rw [if_pos hreg]
      obtain ⟨hreg, h0⟩ := hreg
      rw [word_eq_iff (by omega)] at hreg
      have hword := hq h0 (by omega) (by omega)
      rw [show rA.toNat - rD.toNat = k by omega] at hword
      rw [if_pos ⟨h0, by omega, by omega⟩, readPlaced_of_holds hword, BitVec.ofNat_toNat, BitVec.setWidth_eq]
    · rw [if_neg hreg]
      rw [word_eq_iff (by omega)] at hreg
      refine if_congr (and_congr_right fun h0 => and_congr_right fun _ => ?_) rfl rfl
      have : rD.toNat + k ≠ rA.toNat := fun e => hreg ⟨e, h0⟩
      omega

/-- The address of each word is the one that the claims give. -/
theorem lmwBase_address {s : State} {rD rA : BitVec 5} {loaded : Word} {q : Nat → Placed} {moves : Bool} {n : Nat}
    (d : BitVec 16) (hn : rD.toNat + n ≤ 32)
    (hq : moves = true → rA ≠ 0 → rD.toNat ≤ rA.toNat → rA.toNat < rD.toNat + n →
      Holds s (q (rA.toNat - rD.toNat)) loaded.toNat) (k : Nat) (hk : k ≤ n) :
    lmwBase s rD rA (if moves then rA else 0) q k + (d.signExtend 32 + BitVec.ofNat 32 (4 * k)) =
      lmwAddress s rD rA d moves loaded k := by
  unfold lmwAddress
  rw [← BitVec.add_assoc]
  congr 2
  cases moves with
  | false => simpa using lmwBase_fixed s rD rA q k
  | true => simpa only [if_true, true_and] using lmwBase_moved hn (hq rfl) k hk

/-- A word that a register has been loaded with is the one at its place. -/
theorem holds_ofNat_readPlaced {s : State} {p : Placed} (h : p.bytes.length = 4) :
    Holds s p (BitVec.ofNat 32 (s.readPlaced p)).toNat := by
  have hread := holds_readPlaced s p
  have hlt : s.readPlaced p < 2 ^ 32 := by
    have := hread.1
    rw [h] at this
    omega
  rwa [BitVec.toNat_ofNat, Nat.mod_eq_of_lt hlt]

/-- The registers of the first n words of lmw. -/
def firstRegs (rD : BitVec 5) (n : Nat) : List (BitVec 5) := (List.range n).map fun k => rD + BitVec.ofNat 5 k

/-- Another register is that of none of the words. -/
theorem not_mem_firstRegs {rD r : BitVec 5} {n : Nat} (h : r ∉ firstRegs rD n) (k : Nat) (hk : k < n) :
    r ≠ rD + BitVec.ofNat 5 k := by
  rintro rfl
  exact h (List.mem_map_of_mem (List.mem_range.2 hk))

/-- lmw goes on with word n, at an effective address, from a state; the model's own bookkeeping apart. -/
def LmwGoesOn (s u : State) (rD rA : BitVec 5) (d : BitVec 16) (n : Nat) (ea : Word) : Prop :=
  ∃ (r : BitVec 5) (base off ev : Word) (l : StepLog) (c : Nat), base + off = ea ∧
    exec (.lmw rD rA d) s =
      ({ u with log := l, draws := c } : State).loadWords r ((regsFrom rD).drop n) false base off ev

/-- lmw, with no debug event enabled, after the words that it reaches: it goes on with the next one from a state that
differs from the first in their registers alone. -/
theorem lmw_after_words {s : State} {rD rA : BitVec 5} {d : BitVec 16} {loaded : Word} {ps : Bool → Nat → Placed}
    {n : Bool → Nat} (hd : DebugOff s)
    (hloaded : rA ≠ 0 → rD.toNat ≤ rA.toNat → rA.toNat < rD.toNat + n true →
      Holds s (ps true (rA.toNat - rD.toNat)) loaded.toNat)
    (hpos : ∀ moves, 0 < n moves) (hle : ∀ moves, rD.toNat + n moves ≤ 32)
    (hp : ∀ moves, ∀ k < n moves,
      s.place { Access.load with aligned := decide (k = 0) } (lmwAddress s rD rA d moves loaded k) 4 =
          .ok (ps moves k) ∧
        s.regionOf (ps moves k).bytes = none) :
    ∃ (moves : Bool) (g : Vector Word 32),
      LmwGoesOn s { s with gpr := g } rD rA d (n moves) (lmwAddress s rD rA d moves loaded (n moves)) ∧
      (∀ r ∉ firstRegs rD (n moves), ({ s with gpr := g } : State).getGpr r = s.getGpr r) ∧
      ∀ k < n moves, Holds s (ps moves k) (({ s with gpr := g } : State).getGpr (rD + BitVec.ofNat 5 k)).toNat := by
  obtain ⟨moves, c, hx⟩ := exec_lmw s rD rA d
  have hmoved : moves = true → rA ≠ 0 → rD.toNat ≤ rA.toNat → rA.toNat < rD.toNat + n moves →
      Holds s (ps moves (rA.toNat - rD.toNat)) loaded.toNat := by
    rintro rfl
    exact hloaded
  have haddress := lmwBase_address d (hle moves) hmoved
  obtain ⟨g, l, ev, hrun, hkept, hval⟩ := loadWords_prefix hd (if moves then rA else 0) rD _ (d.signExtend 32)
    (ps moves) c (fun k => rfl) (n moves) (hle moves) fun k hk => by
      rw [haddress k hk.le]
      exact hp moves k hk
  rw [decide_eq_false (Nat.pos_iff_ne_zero.1 (hpos moves))] at hrun
  refine ⟨moves, g, ⟨_, _, _, ev, l, c, haddress _ le_rfl, hx.trans hrun⟩,
    fun r hr => hkept r (not_mem_firstRegs hr), fun k hk => ?_⟩
  rw [hval k hk]
  exact holds_ofNat_readPlaced (length_place (hp moves k hk).1)

/-- An lmw that runs out of words completes. -/
theorem loadsWords_of_goesOn {s : State} {rD rA : BitVec 5} {d : BitVec 16} {ea : Word} {ps : Nat → Placed}
    {n : Nat} {g : Vector Word 32} (hd : DebugOff s) (hn : rD.toNat + n = 32)
    (hx : LmwGoesOn s { s with gpr := g } rD rA d n ea)
    (hkept : ∀ r ∉ firstRegs rD n, ({ s with gpr := g } : State).getGpr r = s.getGpr r)
    (hval : ∀ k < n, Holds s (ps k) (({ s with gpr := g } : State).getGpr (rD + BitVec.ofNat 5 k)).toNat) :
    LoadsWords (.lmw rD rA d) s rD ps := by
  obtain ⟨r, base, off, ev, l, c, -, hx⟩ := hx
  rw [drop_regsFrom_end rD hn, State.loadWords,
    debugBefore_off (s := { s with gpr := g, log := l, draws := c }) hd] at hx
  obtain rfl : n = 32 - rD.toNat := by omega
  exact does_finish hx rfl (keeps_gprFile l c hkept) (storageKept_of_mem [] rfl) fun k hk => hval k (by omega)

/-- A later word of lmw that is not placed ends it. -/
theorem fails_of_lmwGoesOn {s u : State} {rD rA : BitVec 5} {d : BitVec 16} {ea fea : Word} {n : Nat} {f : AccessFail}
    (hn : rD.toNat + n < 32) (hx : LmwGoesOn s u rD rA d n ea) (h : u.place .load ea 4 = .error (f, fea)) :
    Fails (.lmw rD rA d) s u .load f fea := by
  obtain ⟨r, base, off, ev, l, c, rfl, hx⟩ := hx
  rw [drop_regsFrom rD hn, State.loadWords] at hx
  exact fails_of_accessWord (a := .load) (first := false) h hx

/-! ### Later words of stmw -/

/-- What bytes hold is read from them alone. -/
theorem holds_of_storageKept {s t : State} {but : List (BitVec 36)} {p : Placed} {v : Nat} (hk : StorageKept but s t)
    (hp : ∀ a ∈ p.bytes, a ∉ but) (h : Holds s p v) : Holds t p v := by
  refine ⟨h.1, fun i hi => ?_⟩
  rw [hk _ (hp _ (List.getElem_mem hi))]
  exact h.2 i hi

/-- Two changes of storage in turn. -/
theorem StorageKept.append {s t u : State} {l m : List (BitVec 36)} (h : StorageKept l s t) (g : StorageKept m t u) :
    StorageKept (l ++ m) s u := by
  intro a ha
  rw [List.mem_append, not_or] at ha
  rw [g a ha.2, h a ha.1]

/-- The bytes of the first n words of stmw. -/
def firstBytes (q : Nat → Placed) (n : Nat) : List (BitVec 36) := (List.range n).flatMap fun k => (q k).bytes

theorem firstBytes_succ (q : Nat → Placed) (n : Nat) : firstBytes q (n + 1) = firstBytes q n ++ (q n).bytes := by
  simp [firstBytes, List.range_succ]

theorem mem_firstBytes {q : Nat → Placed} {n k : Nat} (hk : k < n) {a : BitVec 36} (ha : a ∈ (q k).bytes) :
    a ∈ firstBytes q n :=
  List.mem_flatMap.2 ⟨k, List.mem_range.2 hk, ha⟩

/-- Storage with one word more stored. -/
theorem holds_after_store {s t u : State} {q : Nat → Placed} {v : Nat → Word} {n : Nat} (hw : t.mem.wf)
    (hlen : (q n).bytes.length = 4) (hu : u.mem = (t.writeBytes ((q n).cells (v n).toNat)).mem)
    (hkept : StorageKept (firstBytes q n) s t)
    (hval : (firstBytes q n).Nodup → ∀ k < n, Holds t (q k) (v k).toNat) :
    StorageKept (firstBytes q (n + 1)) s u ∧
      ((firstBytes q (n + 1)).Nodup → ∀ k < n + 1, Holds u (q k) (v k).toNat) := by
  have hstore : StorageKept (q n).bytes t u := storageKept_writeBytes hw hu
  rw [firstBytes_succ]
  refine ⟨hkept.append hstore, fun hnodup k hk => ?_⟩
  obtain ⟨hfirst, hlast, hapart⟩ := List.nodup_append.1 hnodup
  by_cases hkn : k = n
  · subst hkn
    have hnew := holds_writeBytes hw hlast hu
    rwa [hlen, Nat.mod_eq_of_lt (show (v k).toNat < 256 ^ 4 from (v k).isLt)] at hnew
  · have hlt : k < n := by omega
    exact holds_of_storageKept hstore (fun a ha hin => hapart a (mem_firstBytes hlt ha) a hin rfl) (hval hfirst k hlt)

/-- stmw goes on with word n from a state; the model's own bookkeeping apart. -/
def StmwGoesOn (s u : State) (rS rA : BitVec 5) (d : BitVec 16) (n : Nat) : Prop :=
  ∃ (ev : Word) (l : StepLog), exec (.stmw rS rA d) s =
    ({ u with log := l } : State).storeWords ((regsFrom rS).drop n) (decide (n = 0))
      (orZero s rA + d.signExtend 32 + BitVec.ofNat 32 (4 * n)) ev

/-- stmw, with no debug event enabled, after the words that it reaches: it goes on with the next one from a state that
differs from the first in their bytes alone. -/
theorem stmw_after_words {s : State} {rS rA : BitVec 5} {d : BitVec 16} {q : Nat → Placed} (hw : s.mem.wf)
    (hd : DebugOff s) (n : Nat) (hn : rS.toNat + n ≤ 32)
    (hp : ∀ k < n, s.place { Access.store with aligned := decide (k = 0) }
      (orZero s rA + d.signExtend 32 + BitVec.ofNat 32 (4 * k)) 4 = .ok (q k) ∧ s.regionOf (q k).bytes = none) :
    ∃ m : Memory, StmwGoesOn s { s with mem := m } rS rA d n ∧ m.wf ∧
      StorageKept (firstBytes q n) s { s with mem := m } ∧
      ((firstBytes q n).Nodup →
        ∀ k < n, Holds { s with mem := m } (q k) (s.getGpr (rS + BitVec.ofNat 5 k)).toNat) := by
  induction n with
  | zero =>
    refine ⟨s.mem, ⟨0, s.log, ?_⟩, hw, fun _ _ => rfl, fun _ k hk => absurd hk (Nat.not_lt_zero k)⟩
    rw [Nat.mul_zero, BitVec.ofNat_eq_ofNat, BitVec.add_zero]
    rfl
  | succ n ih =>
    obtain ⟨m, ⟨ev, l, hx⟩, hwf, hkept, hval⟩ := ih (by omega) fun k hk => hp k (by omega)
    obtain ⟨hplace, hregion⟩ := hp n (by omega)
    let t : State := { s with mem := m, log := l }
    obtain ⟨l', ev', hword⟩ := accessWord_ok (t := t) (a := .store) (first := decide (n = 0)) hd hplace hregion
    let v : Word := s.getGpr (rS + BitVec.ofNat 5 n)
    let m' : Memory := m.writeList ((q n).cells v.toNat)
    let w : State := (t.setLog l').writeBytes ((q n).cells v.toNat)
    have hstore : (t.setLog l').storePlaced none (q n) v.toNat = w :=
      storePlaced_storage (s := t.setLog l') hregion none v.toNat
    have hnext := holds_after_store (t := { s with mem := m }) (u := { s with mem := m' })
      (v := fun k => s.getGpr (rS + BitVec.ofNat 5 k)) hwf (length_place hplace) rfl hkept hval
    refine ⟨m', ⟨ev ||| ev', (w.noteStores 1).log, ?_⟩, Memory.writeList_wf _ hwf, hnext⟩
    rw [hx, drop_regsFrom rS (by omega), State.storeWords, hword,
      show BitVec.ofNat 32 (4 * (n + 1)) = BitVec.ofNat 32 (4 * n) + 4 by bv_omega, ← BitVec.add_assoc]
    exact congrArg (fun u : State => (u.noteStores 1).storeWords _ false _ _) hstore

/-- A later word of stmw that is not placed ends it. -/
theorem fails_of_stmwGoesOn {s u : State} {rS rA : BitVec 5} {d : BitVec 16} {fea : Word} {n : Nat} {f : AccessFail}
    (hpos : 0 < n) (hn : rS.toNat + n < 32) (hx : StmwGoesOn s u rS rA d n)
    (h : u.place .store (orZero s rA + d.signExtend 32 + BitVec.ofNat 32 (4 * n)) 4 = .error (f, fea)) :
    Fails (.stmw rS rA d) s u .store f fea := by
  obtain ⟨ev, l, hx⟩ := hx
  rw [drop_regsFrom rS hn, State.storeWords, decide_eq_false (Nat.pos_iff_ne_zero.1 hpos)] at hx
  exact fails_of_accessWord (a := .store) (first := false) (d := u.draws) h hx

/-! ### The statement -/

/-- Settles O23: one access, a byte of a cache block, a later word of lmw, a later word of stmw. -/
theorem failedAccesses : Obligations.FailedAccesses := by
  refine ⟨fun s i a ea n f fea => fails_of_memAccess, fun s i a ea f fea => fails_of_blockAccess, ?_, ?_⟩
  · intro s rD rA d loaded ps n f fea hd hloaded hwords
    obtain ⟨hpos, hrest⟩ := forall_and.1 hwords
    obtain ⟨hle, hrest⟩ := forall_and.1 hrest
    obtain ⟨hplaced, hfails⟩ := forall_and.1 hrest
    obtain ⟨moves, g, hx, hkept, hval⟩ := lmw_after_words hd hloaded hpos hle hplaced
    refine ⟨moves, ?_⟩
    split
    · exact loadsWords_of_goesOn hd ‹_› hx hkept hval
    · have hn : rD.toNat + n moves < 32 := lt_of_le_of_ne (hle moves) ‹_›
      exact ⟨{ s with gpr := g }, rfl, storageKept_of_mem [] rfl, keeps_gprFile s.log s.draws hkept, hval,
        fails_of_lmwGoesOn hn hx (hfails moves hn)⟩
  · intro s rS rA d q n f fea ea all hw hpos hn hd hwords hfails
    obtain ⟨m, hx, -, hkept, hval⟩ := stmw_after_words hw hd n hn.le hwords
    exact ⟨{ s with mem := m }, rfl, hkept, keeps_minor {} s s.pc m s.draws s.log, hval,
      fails_of_stmwGoesOn hpos hn hx hfails⟩

end Sys2Proof.Machine

namespace Sys2Proof.Machine

/-! Address translation (21_mmu.md section 3), and where it puts the bytes of an access (20_memory.md section 3). -/

/-! ### One address -/

/-- No matching entry is a miss (R338). -/
theorem translate_miss {m : Mmu} {c : Ctx} {ea : Word} (k : AccessKind) (h : ∀ l, ¬entryMatches m c ea l) :
    m.translate c k ea = .error .miss := by
  unfold Mmu.translate
  rw [matches_eq_nil.2 h]

/-- Several matching entries are a multiple hit (R337). -/
theorem translate_multiple {m : Mmu} {c : Ctx} {ea : Word} (k : AccessKind) {l l' : TlbLoc} (hne : l ≠ l')
    (h : entryMatches m c ea l) (h' : entryMatches m c ea l') : m.translate c k ea = .error .multiple := by
  obtain ⟨a, b, r, hm⟩ := matches_of_two hne h h'
  unfold Mmu.translate
  rw [hm]

/-- What the one entry that matches makes of the address (R336, R339, R340). -/
theorem translate_single {m : Mmu} {c : Ctx} {ea : Word} (k : AccessKind) {l : TlbLoc} (h : entryMatches m c ea l)
    (hu : ∀ l', entryMatches m c ea l' → l' = l) :
    m.translate c k ea =
      if k ≠ .execute ∧ (m.entry l).vf = true then .error .virtualization
      else if permitted (m.entry l) k c.pr then
        .ok { ra := BitVec.ofNat 36 ((m.entry l).rpn.toNat * 4096 / pageBytes l (m.entry l) * pageBytes l (m.entry l) +
                ea.toNat % pageBytes l (m.entry l))
              wimge := (m.entry l).wimge }
      else .error .denied := by
  unfold Mmu.translate
  rw [matches_eq_singleton h hu, ← realAddr_eq, ← permits_eq]

/-- Settles O43: the contexts, then one case for no, for several and for one matching entry. -/
theorem translation : Obligations.Translation :=
  ⟨fun s => ⟨fetchCtx_eq s, dataCtx_eq s⟩, fun _ _ k _ =>
    ⟨translate_miss k, fun _ _ => translate_multiple k, fun _ => translate_single k⟩⟩

/-! ### Addresses of one page -/

/-- A translation keeps the offset in the 4-Kbyte page. -/
theorem translate_offset {m : Mmu} {c : Ctx} {k : AccessKind} {ea : Word} {x : Xlated}
    (h : m.translate c k ea = .ok x) : x.ra.toNat % 4096 = ea.toNat % 4096 := by
  obtain ⟨q, hq, -⟩ := translate_page h
  omega

/-- A later address of the same 4-Kbyte page translates to the real address as much later, with the same attributes. -/
theorem translate_add {m : Mmu} {c : Ctx} {k : AccessKind} {ea : Word} {x : Xlated} {j : Nat}
    (h : m.translate c k ea = .ok x) (hj : ea.toNat % 4096 + j < 4096) :
    m.translate c k (ea + BitVec.ofNat 32 j) = .ok { ra := x.ra + BitVec.ofNat 36 j, wimge := x.wimge } := by
  obtain ⟨q, hq, hpage⟩ := translate_page h
  have hadd : (ea + BitVec.ofNat 32 j).toNat = ea.toNat + j := by bv_omega
  obtain ⟨⟨ra, wimge⟩, hy, hra, rfl⟩ := hpage (ea + BitVec.ofNat 32 j) (by omega)
  have : ra = x.ra + BitVec.ofNat 36 j := by
    simp only at hra
    bv_omega
  rw [hy, this]

/-! ### The bytes of an access -/

/-- An access is placed where its range is; the later checks only refuse. -/
theorem placeRange_of_place {s : State} {a : Access} {ea : Word} {n : Nat} {p : Placed}
    (h : s.place a ea n = .ok p) : s.placeRange (s.dataCtx a.ctx) a.kind ea n = .ok p := by
  unfold State.place at h
  cases hr : s.placeRange (s.dataCtx a.ctx) a.kind ea n with
  | error f => simp [hr] at h
  | ok q =>
    simp only [hr] at h
    split_ifs at h
    exact h

/-- A placed range lies in one page, or has one part in each of two pages, the second from the start of its page. -/
theorem placeRange_cases {s : State} {c : Ctx} {k : AccessKind} {ea : Word} {n : Nat} {p : Placed}
    (h : s.placeRange c k ea n = .ok p) :
    ∃ x, s.mmu.translate c k ea = .ok x ∧
      ((ea.toNat % 4096 + n ≤ 4096 ∧ p = { bytes := realRange x.ra n, wimge := x.wimge, upper := x.wimge }) ∨
        ∃ m y, ea.toNat % 4096 + m = 4096 ∧ m < n ∧ s.mmu.translate c k (ea + BitVec.ofNat 32 m) = .ok y ∧
          p = { bytes := realRange x.ra m ++ realRange y.ra (n - m), wimge := x.wimge, upper := y.wimge }) := by
  have hoff : ea.toNat % 4096 < 4096 := Nat.mod_lt _ (by decide)
  unfold State.placeRange at h
  cases hx : s.mmu.translate c k ea with
  | error f => simp [hx] at h
  | ok x =>
    simp only [hx] at h
    refine ⟨x, rfl, ?_⟩
    split at h
    · next hin =>
      unfold inPage at hin
      exact .inl ⟨by omega, (Except.ok.inj h).symm⟩
    · next hout =>
      have hm : inPage ea n = 4096 - ea.toNat % 4096 := by
        unfold inPage at hout ⊢
        omega
      have hlt : inPage ea n < n := lt_of_le_of_ne (Nat.min_le_left _ _) hout
      cases hy : s.mmu.translate c k (ea + BitVec.ofNat 32 (inPage ea n)) with
      | error f => simp [hy] at h
      | ok y =>
        simp only [hy] at h
        split_ifs at h
        exact .inr ⟨inPage ea n, y, by omega, hlt, hy, (Except.ok.inj h).symm⟩

/-- Byte by byte, a placed range of at most 4096 bytes lies where its addresses translate to, each with the attributes of
its page (20 R286, R289). -/
theorem placeRange_translated {s : State} {c : Ctx} {k : AccessKind} {ea : Word} {n : Nat} {p : Placed} (hn : n ≤ 4096)
    (h : s.placeRange c k ea n = .ok p) (i : Nat) (hi : i < p.bytes.length) :
    s.mmu.translate c k (ea + BitVec.ofNat 32 i) =
      .ok { ra := p.bytes[i], wimge := if ea.toNat % 4096 + i < 4096 then p.wimge else p.upper } := by
  obtain ⟨x, hx, ⟨hin, rfl⟩ | ⟨m, y, hm, hlt, hy, rfl⟩⟩ := placeRange_cases h
  · rw [length_realRange] at hi
    have hpage : ea.toNat % 4096 + i < 4096 := by omega
    simp only [getElem_realRange, if_pos hpage]
    exact translate_add hx hpage
  · rw [List.length_append, length_realRange, length_realRange] at hi
    by_cases hpage : ea.toNat % 4096 + i < 4096
    · simp only [if_pos hpage]
      rw [List.getElem_append_left (by rw [length_realRange]; omega), getElem_realRange]
      exact translate_add hx hpage
    · obtain ⟨j, rfl⟩ : ∃ j, i = m + j := ⟨i - m, by omega⟩
      have hstart : (ea + BitVec.ofNat 32 m).toNat % 4096 = 0 := by bv_omega
      have hj := translate_add (j := j) hy (by omega)
      simp only [if_neg hpage]
      rw [List.getElem_append_right (by rw [length_realRange]; omega), getElem_realRange, length_realRange,
        Nat.add_sub_cancel_left, BitVec.ofNat_add, ← BitVec.add_assoc]
      exact hj

/-- No two bytes of a placed range of at most 4096 bytes share a place, even where its pages share one: their offsets in
the page differ. -/
theorem placeRange_nodup {s : State} {c : Ctx} {k : AccessKind} {ea : Word} {n : Nat} {p : Placed} (hn : n ≤ 4096)
    (hlen : p.bytes.length = n) (h : s.placeRange c k ea n = .ok p) : p.bytes.Nodup := by
  have hoffset : ∀ i (hi : i < p.bytes.length), p.bytes[i].toNat % 4096 = (ea.toNat + i) % 4096 := by
    intro i hi
    have := translate_offset (placeRange_translated hn h i hi)
    bv_omega
  refine List.nodup_iff_injective_getElem.2 fun ⟨i, hi⟩ ⟨j, hj⟩ hij => ?_
  have hi' := hoffset i hi
  have hj' := hoffset j hj
  rw [show p.bytes[i] = p.bytes[j] from hij] at hi'
  exact Fin.ext (show i = j by omega)

/-- Settles O13: a placed access is a placed range in the context of the access. -/
theorem accessBytesAreTranslated : Obligations.AccessBytesAreTranslated := by
  intro s a ea n p hn h
  have hlen := length_place h
  have hr := placeRange_of_place h
  rw [dataCtx_eq] at hr
  exact ⟨hlen, placeRange_nodup hn hlen hr, fun k hk => ⟨_, placeRange_translated hn hr k hk, rfl, rfl⟩⟩

end Sys2Proof.Machine

namespace Sys2Proof.Machine

/-! External-PID loads and stores (41_load_store.md section 9). -/

/-! ### Stores of storage

A store leaves its number in storage if its bytes lie apart; those of a placed access do. -/

/-- The bytes of a placed access of at most a page lie apart. -/
theorem place_nodup {s : State} {a : Access} {ea : Word} {n : Nat} {p : Placed} (hn : n ≤ 4096)
    (h : s.place a ea n = .ok p) : p.bytes.Nodup :=
  placeRange_nodup hn (length_place h) (placeRange_of_place h)

/-- An instruction that is a store of a number stores its bytes. -/
theorem storesBytes_of_storeValue {i : Instr} {s : State} {a : Access} {ea : Word} {n v : Nat} (hn : n ≤ 4096)
    (hw : s.mem.wf) (h : exec i s = s.storeValue a ea n v) : StoresBytes i s a ea n v :=
  fun _ hp => storeValue_of_reaches h hw (place_nodup hn hp.placed) hp

/-- The same from a floating-point register, with MSR[FP] = 1. -/
theorem storesBytes_of_storeFp {i : Instr} {s : State} {a : Access} {ea : Word} {n v : Nat} (hn : n ≤ 4096)
    (hw : s.mem.wf) (hfp : bit s.msr 50 = true) (h : exec i s = s.storeFp a ea n v) : StoresBytes i s a ea n v :=
  storesBytes_of_storeValue hn hw (h.trans (needFp_ok hfp _))

/-! ### Context -/

/-- An external-PID load is made in the context of EPLC (41 R544). -/
theorem dataCtx_external_load {a : Access} (h : a.write = false) (s : State) :
    s.dataCtx a.external.ctx = externalContext s.mmu.eplc := by
  rw [dataCtx_eq]
  simp [Access.external, h, accessContext]

/-- An external-PID store is made in the context of EPSC (41 R544). -/
theorem dataCtx_external_store {a : Access} (h : a.write = true) (s : State) :
    s.dataCtx a.external.ctx = externalContext s.mmu.epsc := by
  rw [dataCtx_eq]
  simp [Access.external, h, accessContext]

/-! ### Supervisor state -/

/-- In supervisor state an external-PID load of an integer loads as an ordinary one in its context. -/
theorem loadsGpr_of_loadExternal {i : Instr} {s : State} {ea : Word} {n : Nat} {rD : BitVec 5}
    (hs : bit s.msr 49 = false) (h : exec i s = s.loadExternal ea n rD) :
    LoadsGpr i s Access.load.external ea n rD (BitVec.ofNat 32) :=
  loadGpr_of_reaches (h.trans (supervisorOnly_ok hs _))

/-- In supervisor state an external-PID store of an integer stores as an ordinary one in its context. -/
theorem storesBytes_of_storeExternal {i : Instr} {s : State} {ea : Word} {n v : Nat} (hs : bit s.msr 49 = false)
    (hn : n ≤ 4096) (hw : s.mem.wf) (h : exec i s = s.storeExternal ea n v) :
    StoresBytes i s Access.store.external ea n v :=
  storesBytes_of_storeValue hn hw (h.trans (supervisorOnly_ok hs _))

/-- Settles O22: the contexts, the integer forms, the floating-point forms. -/
theorem externalPidAccesses : Obligations.ExternalPidAccesses := by
  intro s rD rA rB fr hs hw
  refine ⟨⟨dataCtx_external_load rfl s, dataCtx_external_load rfl s, dataCtx_external_store rfl s,
    dataCtx_external_store rfl s⟩, ?lbepx, ?lhepx, ?lwepx, ?stbepx, ?sthepx, ?stwepx, fun hfp => ⟨?lfdepx, ?stfdepx⟩⟩
  case lbepx | lhepx | lwepx => exact loadsGpr_of_loadExternal hs rfl
  case stbepx | sthepx | stwepx => exact storesBytes_of_storeExternal hs (by decide) hw rfl
  case lfdepx => exact loadFpr_of_reaches (supervisorOnly_ok hs _) hfp
  case stfdepx => exact storesBytes_of_storeFp (by decide) hw hfp (supervisorOnly_ok hs _)

end Sys2Proof.Machine

namespace Sys2Proof.Machine

/-! Floating-point unavailable (61_interrupt_definitions.md R661; 10_state.md R26). -/

/-- The test of MSR[FP] comes first in every floating-point instruction, but for the privilege test of the external-PID
ones and for free values, which are the model's own bookkeeping (log 9). -/
theorem exec_of_usesFp {i : Instr} (s : State) (h : usesFp i = true) :
    (supervisorClass i = true ∧ ∃ o, exec i s = s.supervisorOnly (s.needFp o)) ∨
    (supervisorClass i = false ∧ ∃ d o, exec i s = ({ s with draws := d } : State).needFp o) := by
  cases i
  -- External-PID loads and stores: supervisor state first.
  case lfdepx frD rA rB | stfdepx frD rA rB => exact .inl ⟨rfl, _, rfl⟩
  -- Single-precision stores: the word may be free, and is then drawn before the test.
  case stfs frS rA d | stfsu frS rA d | stfsx frS rA rB | stfsux frS rA rB =>
    refine .inr ⟨rfl, (s.singleWord frS).2.draws, ?_⟩
    rw [← singleWord_state]
    exact ⟨_, rfl⟩
  -- mffs: its high word is free, and drawn before the test too.
  case mffs frD rc => exact .inr ⟨rfl, s.drawWord.2.draws, _, rfl⟩
  -- The others start with the test.
  case lfs frD rA d | lfsu frD rA d | lfd frD rA d | lfdu frD rA d | lfsx frD rA rB | lfsux frD rA rB | lfdx frD rA rB
      | lfdux frD rA rB | lfddx frD rA rB | stfd frS rA d | stfdu frS rA d | stfdx frS rA rB | stfdux frS rA rB
      | stfiwx frS rA rB | stfddx frS rA rB
      | fadd | fadds | fsub | fsubs | fmul | fmuls | fdiv | fdivs | fres | frsqrte | fsel | fmadd | fmadds | fmsub
      | fmsubs | fnmadd | fnmadds | fnmsub | fnmsubs | frsp | fctiw | fctiwz | fcmpu | fcmpo | mcrfs | mtfsfi | mtfsf
      | mtfsb0 | mtfsb1 | fmr | fneg | fabs | fnabs =>
    exact .inr ⟨rfl, s.draws, _, rfl⟩
  all_goals cases h

/-- The test of MSR[FP] fails: the interrupt comes before the rest of the instruction, whatever that is. -/
theorem enters_of_needFp {i : Instr} {s : State} {d : Nat} {o : Out} (hfp : bit s.msr 50 = false)
    (h : exec i s = ({ s with draws := d } : State).needFp o) : Enters i s .fpUnavailable false s.pc none none :=
  enters_of_takeHere (t := { s with draws := d })
    (h.trans (needFp_off (s := { s with draws := d }) hfp o)) rfl

/-- What the floating-point unavailable interrupt leaves: SRR0 and SRR1, MSR, the handler's address, no wait, and the
rest as it was, ESR and DEAR with it. -/
theorem state_of_enters_fpUnavailable {i : Instr} {s t : State}
    (h : Enters i s .fpUnavailable false s.pc none none) (ht : exec i s = .next t) :
    t.int = { s.int with srr0 := s.pc, srr1 := s.msr } ∧ t.msr = s.msr &&& 0x00021202 ∧
      t.pc = (s.int.ivpr &&& 0xFFFF0000) ||| (s.int.ivor[7] &&& 0xFFF0) ∧ t.hid = { s.hid with waiting := false } ∧
      { t with int := s.int, msr := s.msr, pc := s.pc, hid := s.hid, log := s.log, draws := s.draws } = s := by
  obtain ⟨l, d, hx⟩ := h
  cases hx.symm.trans ht
  exact ⟨rfl, rfl, rfl, rfl, rfl⟩

/-- Settles O34, by the two tests that a floating-point instruction starts with: privilege, then MSR[FP]. -/
theorem floatUnavailable : Obligations.FloatUnavailable := by
  intro s i hi hfp
  have unavailable (he : Enters i s .fpUnavailable false s.pc none none) :=
    And.intro he fun t => state_of_enters_fpUnavailable (t := t) he
  rcases exec_of_usesFp s hi with ⟨hc, o, hx⟩ | ⟨hc, d, o, hx⟩
  · split
    next hu => exact enters_privileged (hx.trans (supervisorOnly_user hu.1 _))
    next hu =>
      have hs : bit s.msr 49 = false := by simpa [hc] using hu
      exact unavailable (enters_of_needFp (d := s.draws) hfp (hx.trans (supervisorOnly_ok hs _)))
  · rw [if_neg (by simp [hc])]
    exact unavailable (enters_of_needFp hfp hx)

end Sys2Proof.Machine

namespace Sys2Proof.Machine

/-! The timers (62_timers_power_mp.md R700 to R706): the decrementer step by step, what a new value of the time base and a
tick leave, and the interrupts that they gate. -/

/-! ### The decrementer (R702) -/

theorem decStep_stopped {t : Timers} (h : t.dec = 0) : t.decStep = t := by
  unfold Timers.decStep
  rw [if_pos h]

theorem decStep_last {t : Timers} (h : t.dec = 1) :
    t.decStep = { t with dec := if bit t.tcr 41 then t.decar else 0, tsr := t.tsr ||| 0x08000000 } := by
  unfold Timers.decStep
  rw [if_neg (by simp [h]), if_pos h]

theorem decStep_counts {t : Timers} (h : 1 < t.dec.toNat) : t.decStep = { t with dec := t.dec - 1 } := by
  unfold Timers.decStep
  rw [if_neg (by bv_omega), if_neg (by bv_omega)]

/-- A step sets DIS exactly where the count is 1; of the rest it changes the count alone, and what that becomes does not
depend on the time base or on TSR. -/
theorem decStep_eq (t : Timers) (tb : DWord) (tsr : Word) :
    { t with tb := tb, tsr := tsr }.decStep =
      { t with tb := tb, dec := t.decStep.dec, tsr := tsr ||| if t.dec = 1 then 0x08000000 else 0 } := by
  have hkeep : tsr ||| (0 : Word) = tsr := BitVec.or_zero
  by_cases h0 : t.dec = 0
  · rw [if_neg (by simp [h0]), hkeep, decStep_stopped h0]
    exact decStep_stopped h0
  · by_cases h1 : t.dec = 1
    · rw [if_pos h1, decStep_last h1]
      exact decStep_last h1
    · have hgt : 1 < t.dec.toNat := by bv_omega
      rw [if_neg h1, hkeep, decStep_counts hgt]
      exact decStep_counts hgt

theorem iterate_decStep_stopped {t : Timers} (h : t.dec = 0) (k : Nat) : Timers.decStep^[k] t = t :=
  Function.iterate_fixed (decStep_stopped h) k

/-- Before it reaches 0 the decrementer has taken one off in each step, and done nothing else. -/
theorem iterate_decStep_counts (t : Timers) (k : Nat) (h : k < t.dec.toNat) :
    Timers.decStep^[k] t = { t with dec := t.dec - BitVec.ofNat 32 k } := by
  induction k with
  | zero => simp
  | succ k ih =>
    have hgt : 1 < (t.dec - BitVec.ofNat 32 k).toNat := by bv_omega
    have hnext : t.dec - BitVec.ofNat 32 k - 1 = t.dec - BitVec.ofNat 32 (k + 1) := by bv_omega
    rw [Function.iterate_succ_apply', ih (by omega), decStep_counts hgt]
    exact congrArg (fun d => { t with dec := d }) hnext

/-- The step that reaches 0 sets DIS, and stops or reloads. -/
theorem iterate_decStep_last {t : Timers} (h : t.dec ≠ 0) :
    Timers.decStep^[t.dec.toNat] t =
      { t with dec := if bit t.tcr 41 then t.decar else 0, tsr := t.tsr ||| 0x08000000 } := by
  obtain ⟨k, hk⟩ : ∃ k, t.dec.toNat = k + 1 := ⟨t.dec.toNat - 1, by bv_omega⟩
  have hone : t.dec - BitVec.ofNat 32 k = 1 := by bv_omega
  rw [hk, Function.iterate_succ_apply', iterate_decStep_counts t k (by omega), hone, decStep_last rfl]

/-! ### A new value of the time base (R700, R703, R704) -/

/-- TSR after a change of the time base but for FIS: with a transition of the watchdog's bit its next stage, ENW, then WIS,
then WRS from TCR[WRC]. -/
def Timers.watchedTsr (rises : Bool) (t : Timers) : Word :=
  if !rises then t.tsr
  else if !bit t.tsr 32 then t.tsr ||| 0x80000000
  else if !bit t.tsr 33 then t.tsr ||| 0x40000000
  else (t.tsr &&& 0xCFFFFFFF) ||| (t.tcr &&& 0x30000000)

/-- The bit of TSR that a transition of the fixed-interval timer's bit sets. -/
def fisIf (rises : Bool) : Word := if rises then 0x04000000 else 0

/-- The watchdog leaves DIS and FIS as they are. -/
theorem bit_watchedTsr (b : Bool) (t : Timers) {n : Nat} (h : n = 36 ∨ n = 37) : bit (t.watchedTsr b) n = bit t.tsr n := by
  unfold Timers.watchedTsr bit
  rcases h with rfl | rfl
  all_goals split_ifs <;> simp

theorem setTb_tim (s : State) (new : DWord) :
    (s.setTb new).tim =
      { s.tim with
        tb := new
        tsr := s.tim.watchedTsr (tbRises s.tim.tb new s.tim.wsel) ||| fisIf (tbRises s.tim.tb new s.tim.fsel) } :=
  congrArg (fun u : Timers => { u with tb := new }) (onChange_eq s.tim.tb new s.tim)

/-- One more than a time base carries out of the selected bit only where the bit was 1 before. -/
theorem tbRises_succ (tb : DWord) (k : Nat) :
    tbRises tb (tb + 1) k = decide (tb.toNat / 2 ^ (63 - k) % 2 = 0 ∧ (tb.toNat + 1) / 2 ^ (63 - k) % 2 = 1) := by
  rw [tbRises_eq]
  by_cases hmax : tb.toNat = 2 ^ 64 - 1
  · have hodd : tb.toNat / 2 ^ (63 - k) % 2 = 1 := by
      have h : (2 ^ 64 - 1).testBit (63 - k) = true := by
        rw [Nat.testBit_two_pow_sub_one]
        exact decide_eq_true (by omega)
      rw [Nat.testBit_eq_decide_div_mod_eq] at h
      rw [hmax]
      exact of_decide_eq_true h
    simp [hodd]
  · rw [show (tb + 1).toNat = tb.toNat + 1 by bv_omega]

/-- The time-base bit of PMGC0[TBSEL], by number (R706). -/
theorem tbselBit_eq (pmgc0 : Word) : tbselBit pmgc0 = [63, 55, 51, 47].getD (pmgc0.toNat / 2 ^ 11 % 4) 63 := by
  unfold tbselBit
  rw [BitVec.extractLsb'_toNat, Nat.shiftRight_eq_div_pow]
  have h : pmgc0.toNat / 2 ^ 11 % 2 ^ 2 < 4 := Nat.mod_lt _ (by decide)
  rw [show (2 : Nat) ^ 2 = 4 from rfl] at h ⊢
  interval_cases pmgc0.toNat / 2 ^ 11 % 4 <;> rfl

/-! ### A tick (R700) -/

theorem timerTick_stopped {s : State} (h : s.tbRuns = false) : s.timerTick = s := by
  unfold State.timerTick
  rw [h]
  rfl

/-- A tick changes the time base, the count and TSR, and the record of time-base events. -/
theorem timerTick_runs {s : State} (h : s.tbRuns = true) :
    s.timerTick =
      { s with
        tim :=
          { s.tim with
            tb := s.tim.tb + 1
            dec := s.tim.decStep.dec
            tsr :=
              s.tim.watchedTsr (tbRises s.tim.tb (s.tim.tb + 1) s.tim.wsel) |||
                (fisIf (tbRises s.tim.tb (s.tim.tb + 1) s.tim.fsel) ||| if s.tim.dec = 1 then 0x08000000 else 0) }
        log := (s.setTb (s.tim.tb + 1)).log } := by
  unfold State.timerTick
  rw [if_pos h]
  simp only [setTb_tim, decStep_eq, BitVec.or_assoc]
  rfl

theorem bit_disIf (c : Prop) [Decidable c] : bit (if c then 0x08000000 else 0 : Word) 36 = decide c ∧
    bit (if c then 0x08000000 else 0 : Word) 37 = false := by
  by_cases h : c <;> simp [h, bit]

theorem bit_fisIf (b : Bool) : bit (fisIf b) 36 = false ∧ bit (fisIf b) 37 = b := by
  cases b <;> decide

/-- A tick sets DIS exactly where the decrementer goes from 1 to 0, and clears it never. -/
theorem dis_timerTick {s : State} (h : s.tbRuns = true) :
    bit s.timerTick.tim.tsr 36 = true ↔ bit s.tim.tsr 36 = true ∨ s.tim.dec = 1 := by
  rw [timerTick_runs h]
  simp only [bit_or, bit_watchedTsr _ _ (.inl rfl), bit_fisIf, bit_disIf]
  simp

/-- A tick sets FIS exactly where the selected bit of the time base goes from 0 to 1, and clears it never. -/
theorem fis_timerTick {s : State} (h : s.tbRuns = true) :
    bit s.timerTick.tim.tsr 37 = true ↔
      bit s.tim.tsr 37 = true ∨ tbRises s.tim.tb (s.tim.tb + 1) s.tim.fsel = true := by
  rw [timerTick_runs h]
  simp only [bit_or, bit_watchedTsr _ _ (.inr rfl), bit_fisIf, bit_disIf]
  simp

/-! ### The interrupts (R611) -/

/-- An interrupt that is the next to be taken is in the table, with its condition met. -/
theorem mem_of_asyncPending {s : State} {k : IntKind} (h : s.asyncPending = some k) : (k, true) ∈ s.asyncTable := by
  unfold State.asyncPending at h
  obtain ⟨⟨j, c⟩, hfind, rfl⟩ := Option.map_eq_some_iff.1 h
  have hc : c = true := List.find?_some hfind
  exact hc ▸ List.mem_of_find?_eq_some hfind

/-- MSR[EE] or MSR[GS] is needed, whatever the debugger's override is. -/
theorem eeOrGs_msr {s : State} (h : s.eeOrGs = true) : bit s.msr 48 = true ∨ bit s.msr 35 = true := by
  unfold State.eeOrGs at h
  rw [Bool.and_eq_true, Bool.or_eq_true] at h
  exact h.1

theorem ceOrGs_msr {s : State} (h : s.ceOrGs = true) : bit s.msr 46 = true ∨ bit s.msr 35 = true := by
  unfold State.ceOrGs at h
  rw [Bool.and_eq_true, Bool.or_eq_true] at h
  exact h.1

theorem decrementer_due {s : State} (h : s.asyncPending = some .decrementer) :
    s.tim.decPending = true ∧ s.eeOrGs = true := by
  simpa [State.asyncTable] using mem_of_asyncPending h

theorem fixedInterval_due {s : State} (h : s.asyncPending = some .fixedInterval) :
    s.tim.fitPending = true ∧ s.eeOrGs = true := by
  simpa [State.asyncTable] using mem_of_asyncPending h

theorem watchdog_due {s : State} (h : s.asyncPending = some .watchdog) :
    s.tim.wdtPending = true ∧ s.ceOrGs = true := by
  simpa [State.asyncTable] using mem_of_asyncPending h

/-! ### mtspr -/

/-- A write that the access rules allow completes with the register's new value. -/
theorem exec_mtspr_ok {s : State} {n : BitVec 10} {r : Spr} (h : s.sprAccess n true = .ok r) (rS : Gpr) :
    exec (.mtspr rS n) s = .next (s.writeSpr r (s.getGpr rS)).advance := by
  show s.onSpr n true _ = _
  unfold State.onSpr
  rw [h]
  rfl

/-- In hypervisor state no number stands for a guest register. -/
theorem guestMapped_hypervisor {s : State} (h : InHypervisor s) (r : Spr) : s.guestMapped r = r := by
  unfold State.guestMapped State.gs
  rw [h.2]
  rfl

/-- mtspr DEC replaces the count and does nothing else (R705). -/
theorem exec_mtspr_dec {s : State} (h : InHypervisor s) (rS : Gpr) :
    exec (.mtspr rS 22) s = .next { s with tim := { s.tim with dec := s.getGpr rS } }.advance :=
  exec_mtspr_ok (r := .dec)
    ((sprAccess_hypervisor_write h.1 h.2 sprRow_22 rfl).trans (congrArg _ (guestMapped_hypervisor h _))) rS

/-- Settles O53: the count by iteration of one step, TSR by what one tick leaves, and each interrupt by its place in the
table of those that are due. -/
theorem decrementerSteps : Obligations.DecrementerSteps := by
  intro t s rS
  refine ⟨fun k h => iterate_decStep_stopped h k, iterate_decStep_counts t, iterate_decStep_last,
    Bool.and_eq_true_iff, fun h => ?_, timerTick_stopped, fun h => ?_, Bool.and_eq_true_iff, fun h => ?_,
    Bool.and_eq_true_iff, fun h => ?_, fun h => exec_mtspr_dec h rS⟩
  · exact (decrementer_due h).imp_right eeOrGs_msr
  · refine ⟨by rw [timerTick_runs h], by rw [timerTick_runs h], dis_timerTick h, ?_⟩
    rw [fis_timerTick h, tbRises_succ, fsel_eq, decide_eq_true_iff]
  · exact (fixedInterval_due h).imp_right eeOrGs_msr
  · exact (watchdog_due h).imp_right ceOrGs_msr

end Sys2Proof.Machine

namespace Sys2Proof.Machine

/-! mtspr that completes (43_branch_cr_system.md section 8): what no write changes, and the writes with effects of their
own. -/

/-! ### The register that a number reaches -/

/-- An access that is allowed reaches the register of its row, or the guest's in its place. -/
theorem reg_of_sprAccess {s : State} {n : BitVec 10} {w : Bool} {r : Spr} {row : SprRow} (h : s.sprAccess n w = .ok r)
    (hrow : sprRow n = some row) : r = s.guestMapped row.reg := by
  unfold State.sprAccess at h
  simp only [hrow] at h
  split_ifs at h
  all_goals exact (SprAccess.ok.inj h).symm

/-- Registers with effects of their own, none of which a guest register stands for (10 R50). -/
def ownSprs : List Spr := [.tbl, .tbu, .devent, .dbcr0, .l1csr0, .l1csr1, .mmucsr0]

theorem guestMapped_own (s : State) {r : Spr} (h : r ∈ ownSprs) : s.guestMapped r = r := by
  unfold State.guestMapped
  split
  · rfl
  · unfold ownSprs at h
    fin_cases h <;> rfl

/-- An access that is allowed reaches such a register by its number. -/
theorem reg_of_own {s : State} {n : BitVec 10} {w : Bool} {r : Spr} {row : SprRow} (h : s.sprAccess n w = .ok r)
    (hrow : sprRow n = some row) (hown : row.reg ∈ ownSprs) : r = row.reg :=
  (reg_of_sprAccess h hrow).trans (guestMapped_own s hown)

/-! ### MMUCSR0 (13 R222) -/

/-- The MMU after the flash invalidation of TLB0, of TLB1, or of both. -/
def Mmu.flashed (zero one : Bool) (m : Mmu) : Mmu :=
  let m := if zero then m.invalidate0 fun _ => true else m
  if one then m.invalidate1 fun _ => true else m

theorem writeMmucsr0_eq (v : Word) (s : State) :
    s.writeMmucsr0 v =
      if bit v 61 || bit v 62 then ({ s with mmu := s.mmu.flashed (bit v 61) (bit v 62) } : State).freeNv else s := by
  unfold State.writeMmucsr0
  cases bit v 61 <;> cases bit v 62 <;> rfl

/-- TLB0 has no protected entries. -/
theorem entry_flashed_tlb0 (zero one : Bool) (m : Mmu) (set : BitVec 7) (way : BitVec 2) :
    (m.flashed zero one).entry (.tlb0 set way) =
      { m.entry (.tlb0 set way) with v := (m.entry (.tlb0 set way)).v && !zero } := by
  have h0 : (m.flashed zero one).entry (.tlb0 set way) =
      (if zero then m.invalidate0 fun _ => true else m).entry (.tlb0 set way) := by cases one <;> rfl
  rw [h0]
  cases zero
  · simp
  · simp [Mmu.entry, Mmu.invalidate0]

theorem entry_flashed_tlb1 (zero one : Bool) (m : Mmu) (n : BitVec 6) :
    (m.flashed zero one).entry (.tlb1 n) =
      { m.entry (.tlb1 n) with v := (m.entry (.tlb1 n)).v && !(one && !(m.entry (.tlb1 n)).iprot) } := by
  have h1 : (m.flashed zero one).entry (.tlb1 n) =
      (if one then m.invalidate1 fun _ => true else m).entry (.tlb1 n) := by cases zero <;> cases one <;> rfl
  rw [h1]
  cases one
  · simp
  · simp only [Mmu.entry, Mmu.invalidate1, if_true, Vector.getElem_map]
    generalize m.tlb1[n.toNat] = e
    unfold TlbEntry.invalidateIf
    cases h : e.iprot
    · simp
    · have hv : (e.v && !(true && !true)) = e.v := by simp
      rw [hv, if_neg (by decide), ← h]

/-- Of the MMU a flash invalidation changes the arrays alone. -/
theorem flashed_state (zero one : Bool) (m : Mmu) :
    m.flashed zero one = { m with tlb0 := (m.flashed zero one).tlb0, tlb1 := (m.flashed zero one).tlb1 } := by
  cases zero <;> cases one <;> rfl

theorem entry_writeMmucsr0 (v : Word) (s : State) (l : TlbLoc) :
    (s.writeMmucsr0 v).mmu.entry l = (s.mmu.flashed (bit v 61) (bit v 62)).entry l := by
  rw [writeMmucsr0_eq]
  split
  · exact entry_freeNv _ l
  · next h =>
    obtain ⟨h0, h1⟩ : bit v 61 = false ∧ bit v 62 = false := by simpa using h
    rw [h0, h1]
    rfl

/-- Of what is not the arrays, a write of MMUCSR0 changes NV of MAS0 and the next-victim numbers alone (log 20). -/
theorem writeMmucsr0_frame (v : Word) (s : State) :
    { s.writeMmucsr0 v with
      pc := s.pc
      draws := s.draws
      log := s.log
      mmu := { (s.writeMmucsr0 v).mmu with
        tlb0 := s.mmu.tlb0, tlb1 := s.mmu.tlb1, nv := s.mmu.nv
        mas0 := (s.writeMmucsr0 v).mmu.mas0 &&& 0xFFFFFFFC } } =
      { s with mmu := { s.mmu with mas0 := s.mmu.mas0 &&& 0xFFFFFFFC } } := by
  rw [writeMmucsr0_eq]
  split
  · rw [freeNv_mas0, flashed_state]
    rfl
  · rfl

/-! ### The time base (R700) -/

theorem setTb_tbEvents (s : State) (new : DWord) :
    (s.setTb new).log.tbEvents =
      s.log.tbEvents + if bit s.pm.pmgc0 55 && tbRises s.tim.tb new (tbselBit s.pm.pmgc0) then 1 else 0 := by
  unfold State.setTb
  split <;> rfl

/-! ### L1CSR0 and L1CSR1 (12 R180, R181) -/

/-- The fields of a mask read what was written, and CEI, bit 48, only with CECE, bit 47. -/
theorem csr_fields (v mask : Word) (hm : mask &&& 0x8000 = 0) :
    ((v &&& mask) ||| maskIf (bit v 47) (v &&& 0x8000)) &&& mask = v &&& mask ∧
      bit ((v &&& mask) ||| maskIf (bit v 47) (v &&& 0x8000)) 48 = (bit v 48 && bit v 47) := by
  have hcei : bit (v &&& mask) 48 = false := by
    have h := congrArg (fun w : Word => w.getLsbD 15) hm
    have hbit : mask.getLsbD 15 = false := by simpa using h
    unfold bit
    rw [BitVec.getLsbD_and, hbit, Bool.and_false]
  constructor
  · have hout : maskIf (bit v 47) (v &&& 0x8000) &&& mask = 0 := by
      unfold maskIf
      split
      · rw [BitVec.and_assoc, BitVec.and_comm _ mask, hm, BitVec.ofNat_eq_ofNat, BitVec.and_zero]
      · exact BitVec.zero_and
    rw [BitVec.and_or_distrib_right, BitVec.and_assoc, BitVec.and_self, hout, BitVec.ofNat_eq_ofNat, BitVec.or_zero]
  · rw [bit_or, hcei, Bool.false_or]
    cases bit v 47
    · rw [Bool.and_false]
      exact bit_zero 48
    · simp [maskIf, bit]

/-! ### Every write -/

/-- What no write of a register changes. -/
structure SprKept (s t : State) : Prop where
  pc    : t.pc = s.pc
  mem   : t.mem = s.mem
  gpr   : t.gpr = s.gpr
  fpr   : t.fpr = s.fpr
  cr    : t.cr = s.cr
  fpscr : t.fpscr = s.fpscr
  msr   : t.msr = s.msr
  hid   : t.hid = s.hid
  pm    : t.pm = s.pm
  env   : t.env = s.env

theorem sprKept_writeDebugSpr (r : Spr) (v : Word) (s : State) : SprKept s (s.writeDebugSpr r v) := by
  cases r <;> constructor <;> rfl

theorem sprKept_debugOwned (r : Spr) (v : Word) (s : State) :
    SprKept s (if s.edm then s else s.writeDebugSpr r v) := by
  split
  · constructor <;> rfl
  · exact sprKept_writeDebugSpr r v s

theorem sprKept_writeMmucsr0 (v : Word) (s : State) : SprKept s (s.writeMmucsr0 v) := by
  rw [writeMmucsr0_eq]
  split <;> constructor <;> rfl

theorem sprKept_writeSpr (r : Spr) (v : Word) (s : State) : SprKept s (s.writeSpr r v) := by
  cases r
  case dbcr0 | dbcr1 | dbcr2 | dbcr4 | dbsr | dbsrwr | iac1 | iac2 | dac1 | dac2 | nspc | nspd =>
    exact sprKept_debugOwned _ v s
  case mmucsr0 => exact sprKept_writeMmucsr0 v s
  all_goals constructor <;> rfl

/-- Settles O37: what no write changes, and then the register that each of the numbers reaches. -/
theorem sprWritesComplete : Obligations.SprWritesComplete := by
  intro s rS n r h v tb tsr tcr rises watched fixed selected
  have hkept : SprKept s (s.writeSpr r v) := sprKept_writeSpr r v s
  have hreg {row : SprRow} (hrow : sprRow n = some row) (hown : row.reg ∈ ownSprs) : r = row.reg :=
    reg_of_own h hrow hown
  refine ⟨(s.writeSpr r v).advance, exec_mtspr_ok h rS, congrArg (· + 4) hkept.pc, storageKept_of_mem [] hkept.mem,
    hkept.gpr, hkept.fpr, hkept.cr, hkept.fpscr, hkept.msr, hkept.hid, hkept.pm, hkept.env, ?_, ?_, ?_, ?_, ?_, ?_⟩
  · intro hn
    have hw : s.writeSpr r v = s.setTb tb := by
      rcases hn with rfl | rfl
      · rw [hreg sprRow_284 (by decide)]
        rfl
      · rw [hreg sprRow_285 (by decide)]
        rfl
    have htim : (s.setTb tb).tim = { s.tim with tb := tb, tsr := watched ||| fixed } := by
      rw [setTb_tim, tbRises_eq, tbRises_eq, wsel_eq, fsel_eq]
      rfl
    rw [hw]
    refine ⟨congrArg (fun u : Timers => { s with tim := u }) htim, ?_⟩
    refine (setTb_tbEvents s tb).trans ?_
    rw [tbRises_eq, tbselBit_eq]
  · rintro rfl
    rw [hreg sprRow_975 (by decide)]
    rfl
  · rintro rfl hedm
    rw [hreg sprRow_308 (by decide)]
    have hw : s.writeSpr .dbcr0 v = s.writeDbcr0 v := if_neg (by simp [State.edm, hedm])
    exact congrArg (fun u : State => { u.advance with pc := s.pc, log := s.log }) hw
  · rintro rfl
    rw [hreg sprRow_1010 (by decide)]
    exact ⟨if_congr Bool.or_eq_true_iff rfl rfl, csr_fields v 0x00010E69 rfl⟩
  · rintro rfl
    rw [hreg sprRow_1011 (by decide)]
    exact ⟨if_congr Bool.or_eq_true_iff rfl rfl, csr_fields v 0x00010E01 rfl⟩
  · rintro rfl
    rw [hreg sprRow_1012 (by decide)]
    refine ⟨fun l => (entry_writeMmucsr0 v s l).trans ?_, ?_⟩
    · cases l with
      | tlb0 set way => exact entry_flashed_tlb0 _ _ _ _ _
      | tlb1 n => exact entry_flashed_tlb1 _ _ _ _
    · exact writeMmucsr0_frame v s

end Sys2Proof.Machine

namespace Sys2Proof.Machine

/-! One step (60_exceptions.md section 3, R613 and R627). -/

/-! ### The start of a step -/

theorem timerTicks_stopped {s : State} (h : s.tbRuns = false) (n : Nat) : State.timerTicks n s = s := by
  induction n with
  | zero => rfl
  | succ n ih =>
    show State.timerTicks n s.timerTick = s
    rw [timerTick_stopped h, ih]

theorem noteUde_none {s : State} (h : s.env.ude = false) : s.noteUde = s := by
  unfold State.noteUde
  rw [h]
  rfl

theorem sampleMcp_none {s : State} (h : s.env.mcp = false) : s.sampleMcp = s := by
  unfold State.sampleMcp
  rw [h]
  rfl

/-- The alternate time base is all that moves with it. -/
theorem atbTick_state (s : State) : s.atbTick = { s with tim := { s.tim with atb := s.atbTick.tim.atb } } := by
  unfold State.atbTick
  split <;> rfl

/-- Where no input changes and the time base does not run, the start of a step moves the alternate time base alone. -/
theorem beginStep_quiet {s : State} (hscript : s.env.script = []) (htben : s.env.tben = false)
    (hmcp : s.env.mcp = false) (hude : s.env.ude = false) :
    s.beginStep.noteUde = ({ s with log := StepLog.empty } : State).atbTick := by
  have hruns : ({ s with log := StepLog.empty } : State).tbRuns = false := by
    unfold State.tbRuns
    rw [htben]
    rfl
  have henv : ({ s.env with script := [] } : Env) = s.env := by rw [← hscript]
  have hstart : s.beginStep = ({ s with log := StepLog.empty } : State).atbTick.sampleMcp := by
    unfold State.beginStep
    simp only [hscript, List.tail_nil, henv]
    exact congrArg (fun u : State => u.atbTick.sampleMcp) (timerTicks_stopped hruns _)
  have hquiet : ({ s with log := StepLog.empty } : State).atbTick.env = s.env := by rw [atbTick_state]
  rw [hstart, sampleMcp_none (by rw [hquiet, hmcp]), noteUde_none (by rw [hquiet, hude])]

theorem coreWrs_toNat (s : State) : s.coreWrs.toNat = s.tim.tsr.toNat / 2 ^ 28 % 4 := by
  unfold State.coreWrs
  rw [BitVec.extractLsb'_toNat, Nat.shiftRight_eq_div_pow]

/-! ### Asynchronous interrupts (R611, R625) -/

/-- A counter that overflowed and enables it, of the four. -/
theorem condition_eq (p : PerfMon) :
    p.condition = decide (∃ n : Fin 4, (bit p.pmlca[n] 37 && bit p.pmc[n] 32) = true) := by
  have hall (n : Fin 4) : n ∈ ([0, 1, 2, 3] : List (Fin 4)) := by fin_cases n <;> decide
  rw [Bool.eq_iff_iff, decide_eq_true_iff]
  unfold PerfMon.condition
  rw [List.any_eq_true]
  exact ⟨fun ⟨n, _, hn⟩ => ⟨n, hn⟩, fun ⟨n, hn⟩ => ⟨n, hall n, hn⟩⟩

theorem asyncTable_eq (s : State) : s.asyncTable = asyncDue s := by
  have hnmi : decide (s.env.nmi ≠ 0) = decide (0 < s.env.nmi) := decide_eq_decide.2 Nat.pos_iff_ne_zero.symm
  unfold State.asyncTable asyncDue
  simp only [Timers.wdtPending, Timers.fitPending, Timers.decPending, PerfMon.exception, condition_eq, State.eeOrGs,
    State.ceOrGs, hnmi, Bool.and_assoc]
  rfl

theorem asyncPending_eq (s : State) : s.asyncPending = ((asyncDue s).find? Prod.snd).map Prod.fst := by
  unfold State.asyncPending
  rw [asyncTable_eq]

/-- An unconditional event is not held back by EPCR[DUVD], nor masked in external debug mode. -/
theorem debugAction_ude_external {s : State} (hrun : s.running = true) (hedm : s.edm = true) (de : Bool) :
    s.debugAction dbUde de = .halt 0x40000000 := by
  have hbits : s.edbsrBits dbUde = 0x40000000 := by
    unfold State.edbsrBits maskIf
    split <;> rfl
  have hmask : (0x40000000 : Word) &&& ~~~(s.dbg.edbsrmsk0 &&& 0x00CF0000) ≠ 0 := by
    intro h
    have := congrArg (fun w : Word => w.getLsbD 30) h
    simp at this
  unfold State.debugAction
  rw [hrun, hedm, hbits, if_neg hmask]
  simp [dbUde]

/-- In internal debug mode it interrupts, with MSR[DE]. -/
theorem debugAction_ude_internal {s : State} (hrun : s.running = true) (hedm : s.edm = false)
    (hidm : bit s.dbg.dbcr0 33 = true) : s.debugAction dbUde true = .interrupt 0xC0000000 := by
  unfold State.debugAction
  rw [hrun, hedm, hidm]
  simp [dbUde, dbIde]

theorem debugAfter_ignore {s : State} {bits : Word} {de : Bool} (h : s.debugAction bits de = .ignore) (async : Bool) :
    s.debugAfter bits de async = s := by
  unfold State.debugAfter
  rw [h]

theorem debugAfter_interrupt {s : State} {bits b : Word} {de : Bool} (h : s.debugAction bits de = .interrupt b)
    (async : Bool) : s.debugAfter bits de async = s.takeDebug b s.pc async := by
  unfold State.debugAfter
  rw [h]

theorem debugAfter_halt {s : State} {bits b : Word} {de : Bool} (h : s.debugAction bits de = .halt b) (async : Bool) :
    s.debugAfter bits de async = s.haltForDebug b s.pc := by
  unfold State.debugAfter
  rw [h]

/-- The state in which the response to an unconditional event is made: the event has been seen. -/
def udeSeen (s : State) : State := { s with env := { s.env with ude := false } }

theorem takeAsync_ude {s : State} (h : s.env.ude = true) :
    s.takeAsync .debug = (udeSeen s).debugAfter dbUde s.de true :=
  if_pos h

/-- Without an unconditional event the debug interrupt is the delayed one, which adds no status bit. -/
theorem takeAsync_debug_delayed {s : State} (h : s.env.ude = false) :
    s.takeAsync .debug = enteredAsync s .debug false none := by
  have hz : s.dbg.dbsr ||| (0 : Word) = s.dbg.dbsr := BitVec.or_zero
  unfold State.takeAsync State.takeDebug
  rw [h, hz]
  rfl

theorem takesAsync (s : State) : TakesAsync s := by
  refine ⟨?_, rfl, rfl, rfl, rfl, rfl, rfl, rfl, rfl, takeAsync_debug_delayed,
    fun hude hrun => ⟨fun hedm => ?_, fun hedm hidm hde => ?_⟩⟩
  · intro k hk
    fin_cases hk <;> rfl
  · have hact : (udeSeen s).debugAction dbUde s.de = .halt 0x40000000 := debugAction_ude_external hrun hedm s.de
    exact (takeAsync_ude hude).trans (debugAfter_halt hact true)
  · have hmsr : s.de = true := hde
    have hact : (udeSeen s).debugAction dbUde s.de = .interrupt 0xC0000000 :=
      hmsr ▸ debugAction_ude_internal hrun hedm hidm
    exact (takeAsync_ude hude).trans (debugAfter_interrupt hact true)

/-! ### Fetch -/

theorem fetchPlace_eq (s : State) : s.fetchPlace = s.placeRange (runningContext s (bit s.msr 58)) .execute s.pc 4 := by
  unfold State.fetchPlace
  rw [fetchCtx_eq]

/-- The four bytes of a word address are in one page. -/
theorem fetchPlace_ok {s : State} {x : Xlated} (h : s.mmu.translate (runningContext s (bit s.msr 58)) .execute s.pc = .ok x)
    (hpc : s.pc.toNat % 4 = 0) :
    s.fetchPlace = .ok { bytes := realRange x.ra 4, wimge := x.wimge, upper := x.wimge } := by
  rw [fetchPlace_eq]
  unfold State.placeRange
  rw [h]
  have hin : inPage s.pc 4 = 4 := by
    unfold inPage
    omega
  simp only [hin, if_true]

theorem fetchPlace_error {s : State} {f : XlateFail}
    (h : s.mmu.translate (runningContext s (bit s.msr 58)) .execute s.pc = .error f) :
    s.fetchPlace = .error (.xlate f, s.pc) := by
  rw [fetchPlace_eq]
  unfold State.placeRange
  rw [h]

theorem realRange_four (ra : BitVec 36) : realRange ra 4 = [ra, ra + 1, ra + 2, ra + 3] := by
  simp [realRange, List.range_succ]

/-- A TLB error of a fetch loads the MAS registers as a TLB error does (13 R244). -/
theorem instrTlbError_eq (s : State) :
    s.instrTlbError =
      ({ s with
        mmu := missedMmu s (bit s.msr 35 && bit s.ctl.epcr 34) (runningContext s (bit s.msr 58)) s.pc } :
          State).takeInterrupt
        { kind := .instrTlbError, guest := bit s.msr 35 && bit s.ctl.epcr 34, async := false, ret := s.pc, esr := none,
          dear := none } := by
  unfold State.instrTlbError
  rw [loadMasOnMiss_eq, fetchCtx_eq]
  rfl

/-- A fetch that answers a word has read it where its bytes are placed. -/
theorem fetch_ok {s u : State} {w : Word} (h : s.fetch = .ok (w, u)) :
    ∃ p, s.fetchPlace = .ok p ∧ s.regionOf p.bytes ≠ some .absent ∧ w = BitVec.ofNat 32 (s.fetchPlaced p).1 ∧
      u = (s.fetchPlaced p).2 := by
  unfold State.fetch at h
  split at h
  · cases h
  · cases h
  · cases h
  · next p hp =>
    split at h
    · cases h
    · next hr =>
      cases h
      exact ⟨p, hp, hr, rfl, rfl⟩

/-- It changes the record of device accesses and takes free values, and nothing else. -/
theorem fetch_state {s u : State} {w : Word} (h : s.fetch = .ok (w, u)) :
    u = { s with log := u.log, draws := u.draws } := by
  obtain ⟨p, -, -, -, rfl⟩ := fetch_ok h
  exact fetchPlaced_state s p

theorem fetch_storage {s : State} {p : Placed} {v : Nat} (hp : s.fetchPlace = .ok p) (hr : s.regionOf p.bytes = none)
    (hv : Holds s p v) : s.fetch = .ok (BitVec.ofNat 32 v, s) := by
  unfold State.fetch State.fetchPlaced
  simp only [hp, hr, readPlaced_of_holds hv]
  rfl

/-- An access that reaches no device is not handed over. -/
theorem filter_reaching (d : DeviceAccess) : [d].filter (·.addrs ≠ []) = if d.addrs = [] then [] else [d] := by
  by_cases h : d.addrs = [] <;> simp [h]

theorem fetch_devices {s u : State} {p : Placed} {w : Word} (hp : s.fetchPlace = .ok p) (h : s.fetch = .ok (w, u)) :
    u.log.devices = s.log.devices ++
      if s.regionOf p.bytes = none ∨ s.hid.fetched = some p.ra then []
      else
        let line := if p.i then blockBytes p 64 else p.bytes
        let seen := line.filter fun a => s.regionAt a = some .device
        if seen = [] then [] else [{ op := .read, addrs := seen, data := [], decoration := none }] := by
  obtain ⟨q, hq, -, -, rfl⟩ := fetch_ok h
  cases hp.symm.trans hq
  rw [fetchPlaced_devices, blockBytes_eq, filter_reaching]

theorem fetch_miss {s : State}
    (h : s.mmu.translate (runningContext s (bit s.msr 58)) .execute s.pc = .error .miss) :
    s.fetch = .error (.next s.instrTlbError) := by
  unfold State.fetch
  rw [fetchPlace_error h]

theorem fetch_denied {s : State}
    (h : s.mmu.translate (runningContext s (bit s.msr 58)) .execute s.pc = .error .denied) :
    s.fetch = .error (.next s.instrStorage) := by
  unfold State.fetch
  rw [fetchPlace_error h]

theorem fetch_multiple {s : State}
    (h : s.mmu.translate (runningContext s (bit s.msr 58)) .execute s.pc = .error .multiple) :
    s.fetch = .error (s.multipleHit 0x00010000 s.pc) := by
  unfold State.fetch
  rw [fetchPlace_error h]

/-- A word that is no instruction ends in the program interrupt of an illegal one. -/
theorem fetchExec_undecoded {s u : State} {w : Word} {e} (h : s.fetch = .ok (w, u)) (hd : decode w = .error e) :
    s.fetchExec =
      (none, .next (u.takeInterrupt
        { kind := .program, guest := false, async := false, ret := s.pc, esr := some 0x08000000, dear := none })) := by
  have hpc : u.pc = s.pc := by rw [fetch_state h]
  unfold State.fetchExec
  simp only [h, hd, ← hpc]
  rfl

theorem fetchExec_decoded {s u : State} {w : Word} {i : Instr} (h : s.fetch = .ok (w, u)) (hd : decode w = .ok i) :
    s.fetchExec = (some i, exec i u) := by
  unfold State.fetchExec
  simp only [h, hd]

theorem fetchExec_error {s : State} {o : Out} (h : s.fetch = .error o) : s.fetchExec = (none, o) := by
  unfold State.fetchExec
  rw [h]

/-! ### What follows an instruction -/

/-- With no debug event enabled, no condition is responded to (R741). -/
theorem debugAction_off {s : State} (hd : DebugOff s) (bits : Word) (de : Bool) : s.debugAction bits de = .ignore := by
  obtain ⟨hedm, hidm⟩ := hd
  unfold State.debugAction State.edm
  rw [hedm, hidm]
  simp

theorem recordIac_ignore (t : State) : t.recordIac .ignore = t := by
  unfold State.recordIac
  split <;> rfl

theorem afterInstr_off {s t : State} (hiac : s.debugAction s.iacEvents s.de = .ignore) (hd : DebugOff t)
    (i : Option Instr) : s.afterInstr i t = t := by
  unfold State.afterInstr State.afterEvents
  rw [hiac, recordIac_ignore]
  exact debugAfter_ignore (debugAction_off hd _ _) _

theorem freeze_state (s t : State) : s.freeze t = { t with pm := (s.freeze t).pm } := by
  unfold State.freeze
  split <;> rfl

/-- The performance monitor changes its own registers alone. -/
theorem endStep_state (s : State) (i : Option Instr) (t : State) :
    s.endStep i t = { t with pm := (s.endStep i t).pm } := by
  unfold State.endStep
  split
  · rfl
  · exact freeze_state s _

theorem closeStep_state (s : State) (i : Option Instr) (t : State) :
    s.closeStep i t =
      { t with pm := (s.endStep i t).pm, hid := { t.hid with fetched := s.groupLeft i t } } := by
  unfold State.closeStep
  rw [endStep_state]
  rfl

theorem groupLeft_some {s : State} {p : Placed} (hp : s.fetchPlace = .ok p) (i : Instr) (t : State) :
    s.groupLeft (some i) t =
      if p.i ∧ s.regionOf p.bytes = some .device ∧ p.ra.toNat % 16 < 12 ∧ t.running ∧ t.log.interrupts = [] ∧
          i ∉ [.isync, .rfi, .rfgi, .rfci, .rfdi, .rfmci] ∧ t.pc = s.pc + 4 then some (p.ra + 4)
      else none := by
  have hi : refetches i = false ↔ i ∉ [.isync, .rfi, .rfgi, .rfci, .rfdi, .rfmci] := by
    rw [← refetches_iff, Bool.not_eq_true]
  unfold State.groupLeft
  simp only [hp, hi]

/-! ### The step -/

/-- The end of a step, by what the core did in it. -/
theorem step_next {s t : State} {i : Option Instr} (h : s.beginStep.noteUde.act = (i, .next t)) :
    step s = .next (s.beginStep.noteUde.closeStep i t) := by
  show s.oneStep = _
  unfold State.oneStep
  rw [h]

theorem step_fault {s : State} {i : Option Instr} {f : Fault} (h : s.beginStep.noteUde.act = (i, .fault f)) :
    step s = .fault f := by
  show s.oneStep = _
  unfold State.oneStep
  rw [h]

theorem step_refused {s : State} {i : Option Instr} {f : Refusal} (h : s.beginStep.noteUde.act = (i, .refused f)) :
    step s = .refused f := by
  show s.oneStep = _
  unfold State.oneStep
  rw [h]

theorem act_async {b : State} {k : IntKind} (hrun : b.running = true) (hk : b.asyncPending = some k) :
    b.act = (none, .next ((b.takeAsync k).afterEvents (b.takeAsync k).de)) := by
  unfold State.act
  rw [if_pos hrun, hk]

theorem act_idle {b : State} (h : b.running = false ∨ (b.asyncPending = none ∧ b.hid.waiting = true)) :
    b.act = (none, .next b) := by
  unfold State.act
  rcases h with h | ⟨hk, hw⟩
  · rw [if_neg (by simp [h])]
  · rw [hk]
    simp only [hw, if_true]
    split <;> rfl

theorem act_instr {b : State} (hrun : b.running = true) (hk : b.asyncPending = none) (hw : b.hid.waiting = false)
    (hiac : b.noteIac.debugAction b.noteIac.iacEvents b.noteIac.de = .ignore) : b.act = b.noteIac.runFetched := by
  unfold State.act State.runInstr
  rw [if_pos hrun, hk, hiac]
  simp [hw]

theorem runFetched_next {r t : State} {i : Option Instr} (h : r.fetchExec = (i, .next t)) :
    r.runFetched = (i, .next (r.afterInstr i t)) := by
  unfold State.runFetched
  rw [h]

theorem runFetched_fault {r : State} {i : Option Instr} {f : Fault} (h : r.fetchExec = (i, .fault f)) :
    r.runFetched = (i, .fault f) := by
  unfold State.runFetched
  rw [h]

theorem runFetched_refused {r : State} {i : Option Instr} {f : Refusal} (h : r.fetchExec = (i, .refused f)) :
    r.runFetched = (i, .refused f) := by
  unfold State.runFetched
  rw [h]

/-- Settles O52: the parts of a step in their order. -/
theorem stepRunsInstruction : Obligations.StepRunsInstruction := by
  intro s b r directed fetched missed interrupt ends tsr tcr rises watched timed
  refine ⟨fun hscript htben hmcp hude => ?_, fun htick => ?_, coreWrs_toNat s,
    fun u => ⟨asyncPending_eq u, takesAsync u⟩, fun k hrun hk => step_next (act_async hrun hk),
    fun h => step_next (act_idle h), fun x hx hpc => ?_, fun p v => fetch_storage, fun p w u => fetch_devices,
    fun hrun hk hw hiac => ?_, fun i t => ?_, fun t => rfl, fun i t p hp => groupLeft_some hp i t⟩
  · have hb : b = _ := beginStep_quiet hscript htben hmcp hude
    rw [hb, atbTick_state]
  · rw [timerTick_runs htick, tbRises_succ, tbRises_succ, wsel_eq, fsel_eq]
    rfl
  · exact ⟨_, fetchPlace_ok hx hpc, realRange_four x.ra, rfl, rfl⟩
  · have hact : b.act = r.runFetched := act_instr hrun hk hw hiac
    have hends {i : Option Instr} {t : State} (h : r.fetchExec = (i, .next t)) :
        step s = .next (b.closeStep i (r.afterInstr i t)) := step_next (hact.trans (runFetched_next h))
    have hfault {i : Option Instr} {f : Fault} (h : r.fetchExec = (i, .fault f)) : step s = .fault f :=
      step_fault (hact.trans (runFetched_fault h))
    have hrefused {i : Option Instr} {f : Refusal} (h : r.fetchExec = (i, .refused f)) : step s = .refused f :=
      step_refused (hact.trans (runFetched_refused h))
    refine ⟨fun i t hd => afterInstr_off hiac hd i, fun h => ?_, fun h => hends (fetchExec_error (fetch_denied h)),
      fun h => ?_, fun w u hf => ⟨?_, fun e he => hends (fetchExec_undecoded hf he), fun i hi => ?_⟩⟩
    · exact instrTlbError_eq r ▸ hends (fetchExec_error (fetch_miss h))
    · have hm : r.fetchExec = (none, r.multipleHit 0x00010000 r.pc) := fetchExec_error (fetch_multiple h)
      split
      · next hd => exact hends (hm.trans (congrArg (Prod.mk none) (multipleHit_eq hd)))
      · next hd => exact hfault (hm.trans (congrArg (Prod.mk none) (if_neg hd)))
    · rw [fetch_state hf]
    · have hx : r.fetchExec = (some i, exec i u) := fetchExec_decoded hf hi
      exact ⟨fun t ht => hends (ht ▸ hx), fun f ht => hfault (ht ▸ hx), fun f ht => hrefused (ht ▸ hx)⟩
  · rw [closeStep_state]
    exact ⟨rfl, rfl⟩

end Sys2Proof.Machine

/-! Decoding undoes encoding (30_encoding.md sections 5 and 6). The decoder is a chain of tables: the primary opcode
chooses one, the extended opcode a row of it. Each case below goes down the chain by what the field functions read from an
encoded word (the `@[simp]` lemmas of Laws/Decode), evaluates the table at that one number and reads the operands back. -/

namespace Sys2Proof.Laws

open Opcode (primary)

theorem decode_of_op19 {w : Word} (h : fldOp w = 19) : decode w = decode19 w := by unfold decode; rw [h]; rfl
theorem decode_of_op31 {w : Word} (h : fldOp w = 31) : decode w = decode31 w := by unfold decode; rw [h]; rfl
theorem decode_of_op59 {w : Word} (h : fldOp w = 59) : decode w = decode59 w := by unfold decode; rw [h]; rfl
theorem decode_of_op63 {w : Word} (h : fldOp w = 63) : decode w = decode63 w := by unfold decode; rw [h]; rfl

/-- Bits 26:30 of every row of opcode 31 but isel differ from 15; the ten-bit opcode then chooses the table. -/
theorem decode_of_lo {w : Word} (h : fldOp w = 31) (hE : fldE w ≠ 15) (hx : (fldXo w).toNat < 512) :
    decode w = decode31Lo w := by
  rw [decode_of_op31 h]; unfold decode31; rw [if_neg hE, if_pos hx]

theorem decode_of_hi {w : Word} (h : fldOp w = 31) (hE : fldE w ≠ 15) (hx : ¬ (fldXo w).toNat < 512) :
    decode w = decode31Hi w := by
  rw [decode_of_op31 h]; unfold decode31; rw [if_neg hE, if_neg hx]

theorem decode_encode_op19 {i : Instr} (h : primary i = 19) : decode (encode i) = .ok i := by
  cases i with
  | mcrf | bclr | crnor | rfmci | rfdi | rfi | rfci | rfgi | crandc | isync | crxor | dnh | crnand | crand | creqv
  | crorc | cror | bcctr => simp [encode, decode_of_op19, decode19]
  | _ => exact absurd h (by simp [primary])

/-- The XO form, whose extended opcode has nine bits: the table below 512 or from 512 on, as OE is. -/
theorem decode_of_xo (a b c : BitVec 5) (oe rc : Bool) (xo : BitVec 9) (hE : xo.extractLsb' 0 5 ≠ 15)
    (hlo : decode31Lo (encXo a b c false xo rc) = decode31Xo (encXo a b c false xo rc))
    (hhi : decode31Hi (encXo a b c true xo rc) = decode31Xo (encXo a b c true xo rc)) :
    decode (encXo a b c oe xo rc) = decode31Xo (encXo a b c oe xo rc) := by
  cases oe
  · exact (decode_of_lo (by simp) (by simpa using hE) (by simpa using xo.isLt)).trans hlo
  · exact (decode_of_hi (by simp) (by simpa using hE) (by simp)).trans hhi

/-- The operand of wrteei stands in the highest bit of a five-bit field. -/
theorem bit_of_ofBool_append (e : Bool) : (ofBool e ++ 0#4)[4] = e := by cases e <;> rfl

theorem decode_encode_op31 {i : Instr} (h : primary i = 31) : decode (encode i) = .ok i := by
  cases i with
  | cmp | tw | tlbilx | lwarx | icbt | lwzx | slw | cntlzw | and | lwepx | cmpl | dcbst | lwzux | andc | wait
  | dcbstep | mfmsr | dcbf | lbzx | lbepx | lbzux | nor | dcbfep | wrtee | dcbtstls | mtmsr | stwx
  | stwepx | dcbtls | stwux | msgsnd | stbx | stbepx | icblc | msgclr | dcbtst | stbux | dcbtstep | dcbt
  | lhzx | eqv | lhepx | lhzux | xor | dcbtep | lhax | lhaux | dcblc | sthx | orc | sthepx | sthux | or | dcbi
  | nand | dsn | icbtls =>
    unfold encode
    dsimp only
    rw [decode_of_lo (by simp) (by simp) (by simp)]
    unfold decode31Lo
    rw [fldXo_encX]
    conv_lhs => whnf
    simp
  | mcrxr | lbdx | lwbrx | lfsx | srw | lhdx | lfsux | lwdx | sync | lfdx | lfdepx | lfdux | stbdx
  | stwbrx | stfsx | sthdx | stfsux | stwdx | stfdx | stfdepx | dcba | dcbal | stfdux | tlbivax | lhbrx | sraw
  | lfddx | srawi | mbar | tlbsx | sthbrx | extsh | stfddx | extsb | icbi | stfiwx | icbiep | dcbz
  | dcbzl | dcbzep | dcbzlep =>
    unfold encode
    dsimp only
    rw [decode_of_hi (by simp) (by simp) (by simp)]
    unfold decode31Hi
    rw [fldXo_encX]
    conv_lhs => whnf
    simp
  | subfc | addc | mulhwu | subf | mulhw | neg | subfe | adde | subfze | addze | subfme | addme | mullw | add
  | divwu | divw =>
    unfold encode
    dsimp only
    rw [decode_of_xo _ _ _ _ _ _ (by simp) (by unfold decode31Lo; rw [fldXo_encXo]; rfl)
      (by unfold decode31Hi; rw [fldXo_encXo]; rfl)]
    unfold decode31Xo
    rw [fldXo_encXo, oe_xo_toNat, Nat.mul_comm, Nat.mul_add_mod]
    conv_lhs => whnf
    simp
  | tlbsync | tlbre | tlbwe | stwcxDot => simp [encode, decode_of_op31, decode31, decode31Lo, decode31Hi]
  | wrteei e => simpa [encode, decode_of_op31, decode31, decode31Lo] using bit_of_ofBool_append e
  | isel => simp [encode, decode_of_op31, decode31]
  | mfcr | mfocrf | mtcrf | mtocrf =>
    unfold encode
    dsimp only
    rw [decode_of_lo (by simp) (by simp) (by simp)]
    unfold decode31Lo
    rw [fldXo_encCrm]
    conv_lhs => whnf
    simp
  | ehpriv =>
    unfold encode
    dsimp only
    rw [decode_of_lo (by simp) (by simp) (by simp)]
    unfold decode31Lo
    rw [fldXo_encOc]
    conv_lhs => whnf
    simp
  | mfpmr | mfspr | mftb | mtpmr | mtspr =>
    unfold encode
    dsimp only
    rw [decode_of_lo (by simp) (by simp) (by simp)]
    unfold decode31Lo
    rw [fldXo_encSpr]
    conv_lhs => whnf
    simp
  | _ => exact absurd h (by simp [primary])

theorem decode_encode_op59 {i : Instr} (h : primary i = 59) : decode (encode i) = .ok i := by
  cases i with
  | fdivs | fsubs | fadds | fres | fmuls | fmsubs | fmadds | fnmsubs | fnmadds =>
    simp [encode, decode_of_op59, decode59]
  | _ => exact absurd h (by simp [primary])

theorem decode_encode_op63 {i : Instr} (h : primary i = 63) : decode (encode i) = .ok i := by
  cases i with
  | fcmpu | frsp | fctiw | fctiwz | fdiv | fsub | fadd | fsel | fmul | frsqrte | fmsub | fmadd | fnmsub | fnmadd
  | fcmpo | mtfsb1 | fneg | mcrfs | mtfsb0 | fmr | mtfsfi | fnabs | fabs | mffs | mtfsf =>
    simp [encode, decode_of_op63, decode63, decode63X]
  | _ => exact absurd h (by simp [primary])

/-- Settles O57: the four opcodes with extended opcodes are the lemmas above; the others are rows of the first table. -/
theorem decodeUndoesEncode : Obligations.DecodeUndoesEncode := by
  intro i
  by_cases h19 : primary i = 19
  · exact decode_encode_op19 h19
  by_cases h31 : primary i = 31
  · exact decode_encode_op31 h31
  by_cases h59 : primary i = 59
  · exact decode_encode_op59 h59
  by_cases h63 : primary i = 63
  · exact decode_encode_op63 h63
  cases i with
  | twi | mulli | subfic | cmpli | cmpi | addic | addicDot | addi | addis | ori | oris | xori | xoris | andiDot
  | andisDot | lwz | lwzu | lbz | lbzu | stw | stwu | stb | stbu | lhz | lhzu | lha | lhau | sth | sthu | lmw | stmw
  | lfs | lfsu | lfd | lfdu | stfs | stfsu | stfd | stfdu =>
    unfold encode
    dsimp only
    unfold decode
    rw [fldOp_encD]
    conv_lhs => whnf
    simp
  | rlwimi | rlwinm | rlwnm | bc | sc | b => simp [encode, decode]
  | _ => contradiction

end Sys2Proof.Laws

/-! Integer instructions (40_integer.md): every one ends in `arith`, `sumCa`, `logical` or `shiftAlgebraic`, whose outcome
the lemmas of Laws/Integer say; one lemma for each end carries an instruction over to the words of the statements. -/

namespace Sys2Proof.Machine

/-- An instruction that wrote a register and some bits of XER and CR. -/
theorem does_wrote {i : Instr} {s : State} {r : BitVec 5} {v xer cr mx mc : Word} {p : State → Prop}
    (h : exec i s = .next (s.wrote r v xer cr)) (hx : agreeBut mx xer s.xer) (hc : agreeBut mc cr s.cr)
    (hp : p (s.wrote r v xer cr)) : Does i s { gprs := [r], xer := mx, cr := mc } [] p :=
  ⟨_, h, rfl, State.wrote_keeps hx hc, storageKept_of_mem _ rfl, hp⟩

theorem wrote_getGpr_self (r : BitVec 5) (v xer cr : Word) (s : State) : (s.wrote r v xer cr).getGpr r = v := by simp

/-! ### Sums (R400 to R418) -/

theorem sum_res_if (x y : Word) (c : Bool) : (sum x y c).res = x + y + if c then 1 else 0 := by
  rw [sum_res]
  cases c <;> rfl

/-- A sum that leaves CA alone. -/
theorem sums_of_arith {i : Instr} {s : State} {r : BitVec 5} {x y : Word} {c oe rc : Bool}
    (h : exec i s = s.arith r (sum x y c).res (sum x y c).ov oe rc) : Sums i s r x y c false oe rc := by
  rw [State.arith_eq] at h
  refine does_wrote h (by simpa using agreeBut_overflowedXer oe _ s.xer) (agreeBut_recordedCr ..) ?_
  rw [wrote_getGpr_self]
  refine ⟨sum_res_if x y c, nofun, ?_, records_wrote _ _ _ _ _⟩
  exact fun hoe => by simpa only [sum_ov] using overflows_wrote oe (sum x y c).ov _ _ s.xer _ s rfl hoe

/-- A sum that CA records. -/
theorem sums_of_sumCa {i : Instr} {s : State} {r : BitVec 5} {x y : Word} {c oe rc : Bool}
    (h : exec i s = s.sumCa r (sum x y c) oe rc) : Sums i s r x y c true oe rc := by
  rw [State.sumCa_eq] at h
  have hx : agreeBut (0x20000000 ||| oeMask oe) (overflowedXer oe (sum x y c).ov (withCa (sum x y c).ca s.xer)) s.xer :=
    agreeBut_union (m2 := 0x20000000) (agreeBut_overflowedXer ..) (agreeBut_withCa ..)
  refine does_wrote h hx (agreeBut_recordedCr ..) ?_
  rw [wrote_getGpr_self]
  refine ⟨sum_res_if x y c, fun _ => ?_, ?_, records_wrote _ _ _ _ _⟩
  · have hca : bit (overflowedXer oe (sum x y c).ov (withCa (sum x y c).ca s.xer)) 34 = (sum x y c).ca := by
      cases oe <;> simp [overflowedXer]
    exact (congrArg (· = true) hca).to_iff.trans (by rw [sum_ca, decide_eq_true_iff])
  · exact fun hoe => by simpa only [sum_ov] using overflows_wrote oe (sum x y c).ov _ _ _ _ s (so_withCa _ _) hoe

/-- The negative as a sum: not a plus 1, which overflows for the least number alone. -/
theorem neg_sum (a : Word) : ~~~a + 1 = (sum (~~~a) 0 true).res ∧ (a == 0x80000000) = (sum (~~~a) 0 true).ov := by
  refine ⟨by rw [sum_res_if]; simp, Bool.eq_iff_iff.mpr ?_⟩
  rw [sum_ov, beq_iff_eq, ← BitVec.toInt_inj]
  have hr := a.toInt_lt
  have hl := a.le_toInt
  have hn : (~~~a).toInt = -a.toInt - 1 := by
    have := a.isLt
    rw [BitVec.toInt_eq_toNat_cond, BitVec.toInt_eq_toNat_cond, BitVec.toNat_not]
    split <;> split <;> omega
  rw [hn]
  show a.toInt = -2 ^ 31 ↔ notInt32 (-a.toInt - 1 + 0 + 1)
  unfold notInt32
  simp only [Nat.reduceSub] at hr hl
  omega

/-- Settles O1: each addition and subtraction is a sum of its two addends and a carry in. -/
theorem addSubtract : Obligations.AddSubtract := by
  intro s rD rA rB simm oe rc a b ca
  refine ⟨sums_of_arith ?_, sums_of_arith ?_, sums_of_sumCa rfl, sums_of_sumCa rfl, sums_of_sumCa rfl,
    sums_of_arith rfl, sums_of_sumCa rfl, sums_of_sumCa rfl, sums_of_sumCa rfl, sums_of_sumCa rfl, sums_of_arith rfl,
    sums_of_sumCa rfl, sums_of_sumCa rfl, sums_of_sumCa rfl, sums_of_sumCa rfl, sums_of_arith ?_⟩
  · rw [sum_res_if, if_neg Bool.false_ne_true, show ∀ w : Word, w + 0 = w from BitVec.add_zero]; rfl
  · rw [sum_res_if, if_neg Bool.false_ne_true, show ∀ w : Word, w + 0 = w from BitVec.add_zero]; rfl
  · obtain ⟨hres, hov⟩ := neg_sum a
    rw [← hres, ← hov]; rfl

/-! ### Products and quotients (R419 to R423) -/

theorem writes_of_arith {i : Instr} {s : State} {r : BitVec 5} {v : Word} {ov oe rc : Bool} {q : Prop}
    (h : exec i s = s.arith r v ov oe rc) (hq : oe = true → (ov = true ↔ q)) : Writes i s r v q oe rc := by
  rw [State.arith_eq] at h
  refine does_wrote h (agreeBut_overflowedXer ..) (agreeBut_recordedCr ..) ⟨wrote_getGpr_self .., ?_, records_wrote _ _ _ _ _⟩
  intro hoe
  rw [← hq hoe]
  exact overflows_wrote oe ov r v s.xer _ s rfl hoe

/-- The bound of a product of two words. -/
theorem product_bounds (a b : Word) : -2 ^ 62 ≤ a.toInt * b.toInt ∧ a.toInt * b.toInt ≤ 2 ^ 62 := by
  have ha := a.toInt_lt
  have ha' := a.le_toInt
  have hb := b.toInt_lt
  have hb' := b.le_toInt
  simp only [Nat.reduceSub] at ha ha' hb hb'
  constructor <;> nlinarith

theorem signedProduct_toInt (a b : Word) : (signedProduct a b).toInt = a.toInt * b.toInt := by
  obtain ⟨hl, hu⟩ := product_bounds a b
  unfold signedProduct
  rw [BitVec.toInt_mul, BitVec.toInt_signExtend_of_le (by decide), BitVec.toInt_signExtend_of_le (by decide)]
  exact Int.bmod_eq_of_le (by omega) (by omega)

theorem signedProduct_eq (a b : Word) : signedProduct a b = BitVec.ofInt 64 (a.toInt * b.toInt) := by
  rw [← signedProduct_toInt, BitVec.ofInt_toInt]

/-- The low word of a signed product. -/
theorem signedProduct_low (a b : Word) : (signedProduct a b).setWidth 32 = BitVec.ofInt 32 (a.toInt * b.toInt) := by
  rw [signedProduct_eq]
  apply BitVec.eq_of_toNat_eq
  simp only [BitVec.toNat_setWidth, BitVec.toNat_ofInt]
  omega

/-- The high word of a signed product. -/
theorem signedProduct_high (a b : Word) :
    (signedProduct a b).extractLsb' 32 32 = BitVec.ofInt 32 (a.toInt * b.toInt / 2 ^ 32) := by
  rw [signedProduct_eq]
  apply BitVec.eq_of_toNat_eq
  simp only [BitVec.extractLsb'_toNat, BitVec.toNat_ofInt, Nat.shiftRight_eq_div_pow]
  omega

/-- The high word of an unsigned product. -/
theorem unsignedProduct_high (a b : Word) :
    (unsignedProduct a b).extractLsb' 32 32 = BitVec.ofNat 32 (a.toNat * b.toNat / 2 ^ 32) := by
  have h : a.toNat * b.toNat < 2 ^ 64 := (Nat.mul_lt_mul'' a.isLt b.isLt).trans_eq (Nat.pow_add 2 32 32).symm
  apply BitVec.eq_of_toNat_eq
  simp only [unsignedProduct, BitVec.extractLsb'_toNat, BitVec.toNat_mul, BitVec.toNat_setWidth, BitVec.toNat_ofNat,
    Nat.shiftRight_eq_div_pow]
  rw [Nat.mod_eq_of_lt (show a.toNat < 2 ^ 64 by omega), Nat.mod_eq_of_lt (show b.toNat < 2 ^ 64 by omega),
    Nat.mod_eq_of_lt h]

/-- A signed product that its low word does not give back is no 32-bit number. -/
theorem signedProduct_ov (a b : Word) :
    (signedProduct a b != ((signedProduct a b).setWidth 32).signExtend 64) = true ↔ notInt32 (a.toInt * b.toInt) := by
  rw [bne_iff_ne, ne_eq, ← BitVec.toInt_inj, BitVec.toInt_signExtend_of_le (by decide), signedProduct_toInt,
    signedProduct_low, BitVec.toInt_ofInt]
  unfold notInt32
  constructor
  · intro h
    by_contra hn
    exact h (Int.bmod_eq_of_le (by omega) (by omega)).symm
  · intro h he
    have hl := Int.le_bmod (x := a.toInt * b.toInt) (m := 2 ^ 32) (by decide)
    have hu := Int.bmod_lt (x := a.toInt * b.toInt) (m := 2 ^ 32) (by decide)
    omega

/-- Settles O2: each product is a word of the exact 64-bit product. -/
theorem products : Obligations.Products := by
  intro s rD rA rB simm oe rc
  refine ⟨writes_of_arith (ov := false) ?_ nofun, writes_of_arith ?_ fun _ => signedProduct_ov ..,
    writes_of_arith (ov := false) ?_ nofun, writes_of_arith (ov := false) ?_ nofun⟩
  · rw [← BitVec.toInt_signExtend_of_le (x := simm) (show 16 ≤ 32 by decide), ← signedProduct_low]; rfl
  · rw [← signedProduct_low]; rfl
  · rw [← signedProduct_high]; rfl
  · rw [← unsignedProduct_high]; rfl

/-- An undefined quotient: whatever is drawn for the register and CR0, OV and SO are set and CR0[SO] is SO. -/
theorem does_undefinedQuotient {i : Instr} {s : State} {rD : BitVec 5} {oe rc : Bool}
    (h : exec i s = s.undefinedQuotient rD oe rc) :
    Does i s { gprs := [rD], xer := oeMask oe, cr := rcMask rc } [] fun t =>
      Overflows oe True s t ∧ (rc = true → bit t.cr 35 = bit t.xer 32) := by
  have hov (q cr : Word) : Overflows oe True s (s.wrote rD q (overflowedXer oe true s.xer) cr) :=
    fun hoe => by simpa using overflows_wrote oe true rD q s.xer cr s rfl hoe
  have keep {q cr : Word} (d : Nat) (hc : agreeBut (rcMask rc) cr s.cr) :
      Keeps { gprs := [rD], xer := oeMask oe, cr := rcMask rc } s
        { s.wrote rD q (overflowedXer oe true s.xer) cr with draws := d } :=
    (State.wrote_keeps (agreeBut_overflowedXer ..) hc).trans (keeps_draws _ _ d)
  cases rc
  · refine ⟨{ s.wrote rD s.drawWord.1 (overflowedXer oe true s.xer) s.cr with draws := s.draws + 1 },
      h.trans (by cases oe <;> rfl), rfl, keep _ rfl, storageKept_of_mem _ rfl,
      hov s.drawWord.1 s.cr, nofun⟩
  · let x := overflowedXer oe true s.xer
    let c := withCrField 0 (s.drawWord.2.drawCr.1 ++ BitVec.ofBool (bit x 32)) s.cr
    have hso : bit c 35 = bit x 32 := by
      refine (bit_withCrField 0 _ s.cr 3).trans ?_
      generalize s.drawWord.2.drawCr.1 = y
      cases bit x 32 <;> revert y <;> decide
    refine ⟨{ s.wrote rD s.drawWord.1 x c with draws := s.draws + 2 }, h.trans (by cases oe <;> rfl), rfl,
      keep _ (agreeBut_withCrField 0 _ s.cr), storageKept_of_mem _ rfl, hov s.drawWord.1 c, fun _ => hso⟩

theorem sdiv_eq_ofInt (a b : Word) : a.sdiv b = BitVec.ofInt 32 (a.toInt.tdiv b.toInt) := by
  apply BitVec.eq_of_toInt_eq
  rw [BitVec.toInt_sdiv, BitVec.toInt_ofInt]

theorem udiv_eq_ofNat (a b : Word) : a / b = BitVec.ofNat 32 (a.toNat / b.toNat) := by
  apply BitVec.eq_of_toNat_eq
  rw [BitVec.toNat_udiv, BitVec.toNat_ofNat, Nat.mod_eq_of_lt (Nat.lt_of_le_of_lt (Nat.div_le_self ..) a.isLt)]

/-- Settles O3: where the quotient is defined it is the model's signed or unsigned division; elsewhere any word. -/
theorem quotients : Obligations.Quotients := by
  intro s rD rA rB oe rc undefined
  refine ⟨fun hb hq => writes_of_arith (ov := false) ?_ (by simp), fun hb => writes_of_arith (ov := false) ?_ (by simp),
    fun hb => ⟨does_undefinedQuotient (if_pos (.inl hb)), does_undefinedQuotient (if_pos hb)⟩,
    fun ha hb => does_undefinedQuotient (if_pos (.inr ⟨ha, hb⟩))⟩
  · rw [← sdiv_eq_ofInt]
    refine if_neg ?_
    rintro (h0 | ⟨hmin, hone⟩)
    · exact hb h0
    · rw [hmin, hone] at hq
      exact hq (by unfold notInt32; decide)
  · rw [← udiv_eq_ofNat]
    exact if_neg hb

/-! ### Compares (R424 to R427) -/

theorem compares_of_bits {i : Instr} {s : State} {n : BitVec 3} {l g e : Bool} {lt gt eq : Prop}
    (h : exec i s = s.compare n (compareBits l g e s.so)) (hl : l = true ↔ lt) (hg : g = true ↔ gt)
    (he : e = true ↔ eq) : Compares i s n lt gt eq := by
  refine does_finish h rfl (keeps_setCr s (agreeBut_withCrField ..)) (storageKept_of_mem _ rfl) ?_
  have hb (k : Fin 4) := bit_withCrField n (compareBits l g e s.so) s.cr k
  obtain ⟨h3, h2, h1, h0⟩ := compareBits_bits l g e s.so
  rw [← hl, ← hg, ← he]
  exact ⟨(congrArg (· = true) ((hb 0).trans h3)).to_iff, (congrArg (· = true) ((hb 1).trans h2)).to_iff,
    (congrArg (· = true) ((hb 2).trans h1)).to_iff, (congrArg (· = true) ((hb 3).trans h0)).to_iff⟩

theorem compares_signed {i : Instr} {s : State} {n : BitVec 3} {a b : Word}
    (h : exec i s = s.compare n (compareSigned a b s.so)) :
    Compares i s n (a.toInt < b.toInt) (b.toInt < a.toInt) (a = b) :=
  compares_of_bits h BitVec.slt_iff_toInt_lt BitVec.slt_iff_toInt_lt beq_iff_eq

theorem compares_unsigned {i : Instr} {s : State} {n : BitVec 3} {a b : Word}
    (h : exec i s = s.compare n (compareUnsigned a b s.so)) :
    Compares i s n (a.toNat < b.toNat) (b.toNat < a.toNat) (a = b) :=
  compares_of_bits h BitVec.ult_iff_toNat_lt BitVec.ult_iff_toNat_lt beq_iff_eq

theorem sext_toInt (v : BitVec 16) : (sext v).toInt = v.toInt := BitVec.toInt_signExtend_of_le (by decide)
theorem zext_toNat (v : BitVec 16) : (zext v).toNat = v.toNat := BitVec.toNat_setWidth_of_le (by decide)

/-- Settles O4: the compares differ in their second operand and in whether it has a sign. -/
theorem integerCompares : Obligations.IntegerCompares := by
  intro s crfD l rA rB imm
  refine ⟨compares_signed rfl, ?_, compares_unsigned rfl, ?_⟩
  · rw [← sext_toInt imm, BitVec.toInt_inj]
    exact compares_signed rfl
  · rw [← zext_toNat imm, BitVec.toNat_inj]
    exact compares_unsigned rfl

/-! ### Logical instructions, rotates (R428 to R447) -/

theorem writesBits_of_logical {i : Instr} {s : State} {r : BitVec 5} {v : Word} {f : Nat → Bool} {rc : Bool}
    (h : exec i s = s.logical r v rc) (hf : ∀ n, n < 32 → v.getLsbD n = f n) : WritesBits i s r f rc := by
  rw [State.logical_eq] at h
  refine does_wrote h rfl (agreeBut_recordedCr ..) ?_
  rw [wrote_getGpr_self]
  exact ⟨hf, records_wrote _ _ _ _ _⟩

theorem writes_of_logical {i : Instr} {s : State} {r : BitVec 5} {v : Word} {rc : Bool}
    (h : exec i s = s.logical r v rc) : Writes i s r v False false rc := by
  rw [State.logical_eq] at h
  exact does_wrote h rfl (agreeBut_recordedCr ..) ⟨wrote_getGpr_self .., nofun, records_wrote _ _ _ _ _⟩

theorem upper_bit (v : BitVec 16) {n : Nat} :
    (upper v).getLsbD n = (decide (16 ≤ n) && v.getLsbD (n - 16)) := by
  unfold upper
  rw [BitVec.getLsbD_append]
  by_cases h : n < 16 <;> simp [h]
  omega

theorem zext_bit (v : BitVec 16) {n : Nat} (hn : n < 32) : (zext v).getLsbD n = v.getLsbD n := by
  simp [zext, hn]

/-- Settles O5: each logical operation acts on the bits one by one. -/
theorem logic : Obligations.Logic := by
  intro s rS rA rB uimm rc a b low high
  refine ⟨⟨writesBits_of_logical rfl ?_, writesBits_of_logical rfl ?_, writesBits_of_logical rfl ?_,
    writesBits_of_logical rfl ?_, writesBits_of_logical rfl ?_, writesBits_of_logical rfl ?_⟩,
    writesBits_of_logical rfl ?_, writesBits_of_logical rfl ?_, writesBits_of_logical rfl ?_,
    writesBits_of_logical rfl ?_, writesBits_of_logical rfl ?_, writesBits_of_logical rfl ?_,
    writesBits_of_logical rfl ?_, writesBits_of_logical rfl ?_⟩
  all_goals
    intro n hn
    simp [a, b, low, high, hn, zext_bit, upper_bit, -BitVec.getLsbD_eq_getElem]

/-- An initial run of numbers that have a property: all of them have it, and the next one, if there is one, has not. -/
theorem takeWhile_range' (p : Nat → Bool) (m i : Nat) :
    ((List.range' i m).takeWhile p).length ≤ m ∧
      (∀ k < ((List.range' i m).takeWhile p).length, p (i + k) = true) ∧
      (((List.range' i m).takeWhile p).length < m → p (i + ((List.range' i m).takeWhile p).length) = false) := by
  induction m generalizing i with
  | zero => simp
  | succ m ih =>
    rw [List.range'_succ, List.takeWhile_cons]
    obtain ⟨hle, hall, hnext⟩ := ih (i + 1)
    split
    · next hp =>
      rw [List.length_cons]
      refine ⟨by omega, fun k hk => ?_, fun hlt => ?_⟩
      · cases k with
        | zero => exact hp
        | succ k => exact Nat.add_right_comm i 1 k ▸ hall k (by omega)
      · rw [← Nat.add_assoc, Nat.add_right_comm]
        exact hnext (by omega)
    · next hp => simpa using hp

/-- The count of leading zeros is where the first one stands. -/
theorem leadingZeros_spec (v : Word) :
    leadingZeros v ≤ 32 ∧ (∀ k < leadingZeros v, v.getLsbD (31 - k) = false) ∧
      (leadingZeros v < 32 → v.getLsbD (31 - leadingZeros v) = true) := by
  have h := takeWhile_range' (fun i => !v.getLsbD (31 - i)) 32 0
  simp only [← List.range_eq_range', Nat.zero_add, Bool.not_eq_true', Bool.not_eq_false'] at h
  exact h

theorem signExtend_eq_ofInt {n : Nat} (v : BitVec n) : v.signExtend 32 = BitVec.ofInt 32 v.toInt := rfl

/-- Settles O6: a sign extension is the same number in 32 bits. -/
theorem extendAndCount : Obligations.ExtendAndCount := by
  intro s rS rA rc
  obtain ⟨hle, hzeros, hone⟩ := leadingZeros_spec (s.getGpr rS)
  exact ⟨writes_of_logical rfl, writes_of_logical rfl, _, hle, hzeros, hone, writes_of_logical rfl⟩

/-- Bit n of a word rotated left, counted from the right. -/
theorem rotateLeft_bit (v : Word) {r n : Nat} (hr : r < 32) (hn : n < 32) :
    (v.rotateLeft r).getLsbD n = v.getLsbD ((n + 32 - r) % 32) := by
  rw [BitVec.getLsbD_rotateLeft, Nat.mod_eq_of_lt hr]
  by_cases h : n < r
  · rw [decide_eq_true h, cond_true]
    congr 1
    omega
  · rw [decide_eq_false h, cond_false, decide_eq_true hn, Bool.true_and]
    congr 1
    omega

theorem allOnes_bit (n : Nat) : (0xFFFFFFFF : Word).getLsbD n = decide (n < 32) :=
  BitVec.getLsbD_allOnes

/-- The mask of a rotation holds the positions from MB to ME, around the end if MB is greater. -/
theorem maskOf_bit (mb me : BitVec 5) {n : Nat} (hn : n < 32) :
    (maskOf mb me).getLsbD n = inMask mb me (31 - n) := by
  have hb := mb.isLt
  have he := me.isLt
  have hfrom : ((0xFFFFFFFF : Word) >>> mb.toNat).getLsbD n = decide (mb.toNat ≤ 31 - n) := by
    rw [BitVec.getLsbD_ushiftRight, allOnes_bit]
    exact decide_eq_decide.mpr (by omega)
  have hto : ((0xFFFFFFFF : Word) <<< (31 - me.toNat)).getLsbD n = decide (31 - n ≤ me.toNat) := by
    rw [BitVec.getLsbD_shiftLeft, allOnes_bit]
    simp only [← Bool.decide_and, ← decide_not]
    exact decide_eq_decide.mpr (by omega)
  unfold maskOf inMask
  split
  · rw [BitVec.getLsbD_and, hfrom, hto, Bool.decide_and]
  · rw [BitVec.getLsbD_or, hfrom, hto, Bool.decide_or]

/-- Settles O7: the rotated word and the mask, bit by bit. -/
theorem rotatesUnderMask : Obligations.RotatesUnderMask := by
  intro s rS rA rB sh mb me rc rotated
  refine ⟨writesBits_of_logical rfl fun n hn => ?_, writesBits_of_logical rfl fun n hn => ?_,
    writesBits_of_logical rfl fun n hn => ?_⟩
  · rw [BitVec.getLsbD_and, rotateLeft_bit _ sh.isLt hn, maskOf_bit _ _ hn, Bool.and_comm]
  · rw [BitVec.getLsbD_and, rotateLeft_bit _ (BitVec.isLt _) hn, maskOf_bit _ _ hn, Bool.and_comm,
      BitVec.toNat_setWidth]
  · unfold mix
    simp only [BitVec.getLsbD_or, BitVec.getLsbD_and, BitVec.getLsbD_not, rotateLeft_bit _ sh.isLt hn, maskOf_bit _ _ hn]
    cases inMask mb me (31 - n) <;> simp [hn, rotated, -BitVec.getLsbD_eq_getElem]

/-! ### Shifts (R448 to R451) -/

theorem shiftAmount_eq (w : Word) : shiftAmount w = w.toNat % 64 := BitVec.toNat_setWidth ..

theorem sshiftRight_toInt (v : Word) (n : Nat) : (v.sshiftRight n).toInt = v.toInt / 2 ^ n := by
  rw [BitVec.toInt_sshiftRight, Int.shiftRight_eq_div_pow]
  norm_cast

/-- An algebraic right shift and back. -/
theorem sshiftRight_shiftLeft (v : Word) (n : Nat) :
    (v.sshiftRight n) <<< n = BitVec.ofInt 32 (v.toInt / 2 ^ n * 2 ^ n) := by
  rw [BitVec.ofInt_mul, ← sshiftRight_toInt, BitVec.ofInt_toInt, BitVec.shiftLeft_eq_mul_twoPow]
  congr 1
  rw [← Nat.cast_two, ← Nat.cast_pow, BitVec.ofInt_natCast]
  exact BitVec.eq_of_toNat_eq (by rw [BitVec.toNat_twoPow, BitVec.toNat_ofNat])

/-- CA of an algebraic right shift: the bits shifted out are the remainder, which 2^32 cannot divide. -/
theorem shiftCa_iff (v : Word) (n : Nat) : shiftCa v n = true ↔ v.toInt < 0 ∧ v.toInt % 2 ^ n ≠ 0 := by
  unfold shiftCa
  rw [Bool.and_eq_true, BitVec.msb_eq_toInt, decide_eq_true_iff, bne_iff_ne, sshiftRight_shiftLeft, ne_eq,
    ← BitVec.toInt_inj, BitVec.toInt_ofInt]
  refine and_congr_right fun hneg => not_congr ⟨fun h => ?_, fun h => ?_⟩
  · have hdiv : (2 ^ 32 : Int) ∣ v.toInt % 2 ^ n := by
      have hd : ((2 ^ 32 : Nat) : Int) ∣ _ - v.toInt / 2 ^ n * 2 ^ n := h ▸ Int.dvd_bmod_sub_self
      rwa [Int.emod_def, Int.mul_comm]
    have hlow : -2 ^ 31 ≤ v.toInt := v.le_toInt
    rcases Nat.le_total n 32 with hn | hn
    · have hp : (2 : Int) ^ n ≤ 2 ^ 32 := pow_le_pow_right₀ (by decide) hn
      exact Int.eq_zero_of_dvd_of_nonneg_of_lt (Int.emod_nonneg _ (by positivity))
        (lt_of_lt_of_le (Int.emod_lt_of_pos _ (by positivity)) hp) hdiv
    · have hv : v.toInt % 2 ^ 32 = 0 := by
        rw [← Int.emod_emod_of_dvd _ (pow_dvd_pow (2 : Int) hn)]
        exact Int.emod_eq_zero_of_dvd hdiv
      omega
  · rw [Int.ediv_mul_cancel (Int.dvd_of_emod_eq_zero h)]
    exact (BitVec.toInt_ofInt ..).symm.trans (by rw [BitVec.ofInt_toInt])

theorem shiftsAlgebraic_of {i : Instr} {s : State} {rA : BitVec 5} {v : Word} {n : Nat} {rc : Bool}
    (h : exec i s = s.shiftAlgebraic rA v n rc) :
    ShiftsAlgebraic i s rA (v.toInt / 2 ^ n) (v.toInt < 0 ∧ v.toInt % 2 ^ n ≠ 0) rc := by
  rw [State.shiftAlgebraic_eq] at h
  refine does_wrote h (agreeBut_withCa ..) (agreeBut_recordedCr ..) ?_
  rw [wrote_getGpr_self, sshiftRight_toInt, ← shiftCa_iff]
  exact ⟨rfl, (congrArg (· = true) (ca_withCa (shiftCa v n) s.xer)).to_iff, records_wrote _ _ _ _ _⟩

/-- Settles O8: the shifts are products with a power of two and quotients by it. -/
theorem shifts : Obligations.Shifts := by
  intro s rS rA rB sh rc n v
  have hn : shiftAmount (s.getGpr rB) = n := shiftAmount_eq _
  have hl : v <<< n = BitVec.ofNat 32 (v.toNat * 2 ^ n) :=
    BitVec.eq_of_toNat_eq (by rw [BitVec.toNat_shiftLeft, BitVec.toNat_ofNat, Nat.shiftLeft_eq])
  have hr : v >>> n = BitVec.ofNat 32 (v.toNat / 2 ^ n) := by
    apply BitVec.eq_of_toNat_eq
    rw [BitVec.toNat_ushiftRight, BitVec.toNat_ofNat, Nat.shiftRight_eq_div_pow,
      Nat.mod_eq_of_lt (Nat.lt_of_le_of_lt (Nat.div_le_self ..) v.isLt)]
  refine ⟨hl ▸ writes_of_logical ?_, hr ▸ writes_of_logical ?_, shiftsAlgebraic_of ?_, shiftsAlgebraic_of rfl⟩
  all_goals
    rw [← hn]
    rfl

end Sys2Proof.Machine

/-! Condition register, branches, traps, calls and barriers (43_branch_cr_system.md, 44_sync_cache.md section 1). -/

namespace Sys2Proof.Machine

/-! ### The condition register (R1010 to R1034) -/

/-- An instruction that only writes CR. -/
theorem does_setCr {i : Instr} {s : State} {c m : Word} {p : State → Prop} (h : exec i s = (s.setCr c).finish)
    (hc : agreeBut m c s.cr) (hp : p (s.setCr c).advance) : Does i s { cr := m } [] p :=
  does_finish h rfl (keeps_setCr s hc) (storageKept_of_mem _ rfl) hp

/-- An instruction that only writes a register. -/
theorem does_setGpr {i : Instr} {s : State} {r : BitVec 5} {v : Word} (h : exec i s = (s.setGpr r v).finish) :
    Does i s { gprs := [r] } [] (fun t => t.getGpr r = v) :=
  does_finish h rfl (keeps_setGpr s v (List.mem_singleton_self r)) (storageKept_of_mem _ rfl)
    ((State.getGpr_setGpr s r r v).trans (if_pos rfl))

theorem agreeBut_all (a b : Word) : agreeBut 0xFFFFFFFF a b := by simp [agreeBut]

theorem crBitMask_bit (n : BitVec 5) : bit (crBitMask n) (32 + n.toNat) = true := by revert n; decide

theorem withCrBit_bit (n : BitVec 5) (v : Bool) (cr : Word) : bit (withCrBit n v cr) (32 + n.toNat) = v := by
  have hm := crBitMask_bit n
  refine (bit_mix cr (maskIf v (crBitMask n)) (crBitMask n) _).trans ((if_pos hm).trans ?_)
  cases v
  · exact bit_zero _
  · exact hm

theorem setsCrBit_of_crLogical {i : Instr} {s : State} {d a b : BitVec 5} (f : Bool → Bool → Bool)
    (h : exec i s = s.crLogical d a b f) :
    SetsCrBit i s d (f (bit s.cr (32 + a.toNat)) (bit s.cr (32 + b.toNat))) :=
  does_setCr h (agreeBut_mix ..) (withCrBit_bit ..)

/-- A bit of a field read. -/
theorem crField_bit (w : Word) (n : BitVec 3) {k : Nat} (hk : k < 4) :
    (crField w n).getLsbD (3 - k) = bit w (32 + 4 * n.toNat + k) := by
  have hn := n.isLt
  unfold crField bit
  rw [BitVec.getLsbD_setWidth, BitVec.getLsbD_ushiftRight, decide_eq_true (by omega), Bool.true_and]
  congr 1
  omega

theorem withCrField_bit (n : BitVec 3) (v : BitVec 4) (cr : Word) {k : Nat} (hk : k < 4) :
    bit (withCrField n v cr) (32 + 4 * n.toNat + k) = v.getLsbD (3 - k) := by
  rw [show 32 + 4 * n.toNat + k = 32 + k + 4 * n.toNat by omega]
  exact bit_withCrField n v cr ⟨k, hk⟩

theorem crmMask_bit (crm : BitVec 8) (n : Fin 32) : bit (crmMask crm) (32 + n) = crm.getLsbD (7 - n / 4) := by
  revert crm n
  decide +kernel

theorem crFields_mix (crm : BitVec 8) (w : Word) (s : State) :
    crFields crm w s.cr (s.setCr (mix s.cr w (crmMask crm))).advance := by
  intro n hn
  show bit (mix s.cr w (crmMask crm)) (32 + n) = _
  rw [bit_mix, crmMask_bit crm ⟨n, hn⟩]

theorem does_mcrxr (s : State) (crfD : BitVec 3) :
    Does (.mcrxr crfD) s { cr := crFieldMask crfD, xer := 0xF0000000 } [] (fun t =>
      (∀ n, n < 4 → bit t.cr (32 + 4 * crfD.toNat + n) = bit s.xer (32 + n)) ∧
      ∀ n, n < 4 → bit t.xer (32 + n) = false) := by
  have hx : agreeBut 0xF0000000 (s.xer &&& 0x0FFFFFFF) s.xer := by
    unfold agreeBut
    rw [BitVec.and_assoc]
    rfl
  refine does_finish (t := (s.setCr (withCrField crfD (crField s.xer 0) s.cr)).setXer (s.xer &&& 0x0FFFFFFF)) rfl rfl
    ((keeps_setCr s (agreeBut_withCrField ..)).trans (keeps_setXer _ hx)) (storageKept_of_mem _ rfl)
    ⟨fun n hn => ?_, fun n hn => ?_⟩
  · exact (withCrField_bit crfD _ s.cr hn).trans (crField_bit s.xer 0 hn)
  · show bit (s.xer &&& 0x0FFFFFFF) (32 + n) = false
    unfold bit
    rw [BitVec.getLsbD_and]
    have h : ∀ n : Fin 4, (0x0FFFFFFF : Word).getLsbD (63 - (32 + n)) = false := by decide
    rw [h ⟨n, hn⟩, Bool.and_false]

/-- Settles O9: one CR bit, one field, the fields of a mask, or a register. -/
theorem conditionMoves : Obligations.ConditionMoves := by
  intro s rD rA rB crbD crbA crbB crfD crfS crm a b
  exact ⟨⟨setsCrBit_of_crLogical (fun a b => a && b) rfl, setsCrBit_of_crLogical (fun a b => a && !b) rfl,
      setsCrBit_of_crLogical (fun a b => !(a ^^ b)) rfl, setsCrBit_of_crLogical (fun a b => !(a && b)) rfl,
      setsCrBit_of_crLogical (fun a b => !(a || b)) rfl, setsCrBit_of_crLogical (fun a b => a || b) rfl,
      setsCrBit_of_crLogical (fun a b => a || !b) rfl, setsCrBit_of_crLogical (fun a b => a ^^ b) rfl⟩,
    does_setGpr rfl,
    does_setCr rfl (agreeBut_withCrField ..) fun n hn =>
      (withCrField_bit crfD _ s.cr hn).trans (crField_bit s.cr crfS hn),
    does_mcrxr s crfD,
    does_setCr rfl (agreeBut_all ..) (crFields_mix crm _ s), does_setCr rfl (agreeBut_all ..) (crFields_mix crm _ s),
    does_setGpr rfl, does_setGpr rfl⟩

/-! ### Branches (R1000 to R1006) -/

/-- Conditions that nothing responds to leave the instruction to go on. -/
theorem debugBefore_ignore {bits : Word} {de : Bool} {s : State} (h : s.debugAction bits de = .ignore) :
    s.debugBefore bits de = .ok () s := by
  unfold State.debugBefore
  rw [h]

theorem State.link_eq (lk : Bool) (s : State) : s.link lk = s.setLr (if lk then s.pc + 4 else s.lr) := by
  cases lk <;> rfl

/-- What a branch leaves that is no debug event. -/
theorem State.branch_eq {s : State} {taken : Bool} (target ctr : Word) (lk : Bool)
    (h : taken = true → s.debugAction (s.enabledBit 37 dbBrt) s.de = .ignore) :
    s.branch taken target ctr lk =
      .next (((s.setLr (if lk then s.pc + 4 else s.lr)).setCtr ctr).goto (if taken then target else s.pc + 4)) := by
  cases taken
  · unfold State.branch
    rw [State.link_eq]
    rfl
  · unfold State.branch
    rw [if_pos rfl, debugBefore_ignore (h rfl), if_pos rfl, ← State.link_eq]
    rfl

/-- A branch changes the next address, LR and CTR. -/
theorem keeps_branch (s : State) (target lr ctr : Word) :
    Keeps { lr := true, ctr := true } s (((s.setLr lr).setCtr ctr).goto target) :=
  (keeps_groups s (lr := lr) (ctr := ctr) (.inl rfl) (.inl rfl) (.inr rfl) (.inr rfl) (.inr rfl) (.inr rfl)
    (.inr rfl)).trans (keeps_minor _ _ _ _ _ _)

theorem branches_of_branch {i : Instr} {s : State} {taken : Bool} {target ctr : Word} {lk : Bool}
    (h : exec i s = s.branch taken target ctr lk) : Branches i s taken target ctr lk :=
  fun hd => ⟨_, h.trans (State.branch_eq target ctr lk hd), rfl, rfl, rfl, keeps_branch .., storageKept_of_mem _ rfl⟩

theorem taken_eq (s : State) (bo bi : BitVec 5) :
    (s.ctrOk bo && s.condOk bo bi) = branchTaken bo bi (s.branchCtr bo) s.cr := by
  unfold State.ctrOk State.condOk branchTaken
  rw [show (s.branchCtr bo != 0) = decide (s.branchCtr bo ≠ 0) from
    Bool.eq_iff_iff.mpr (by rw [bne_iff_ne, decide_eq_true_iff])]
  rfl

/-- The invalid form of bcctr: both values are drawn. -/
theorem bcctr_invalid (s : State) (bo bi : BitVec 5) (bh : BitVec 2) (lk : Bool) (hbo : bo.getLsbD 2 = false)
    (hd : s.debugAction (s.enabledBit 37 dbBrt) s.de = .ignore) :
    ∃ t, exec (.bcctr bo bi bh lk) s = .next t ∧ (t.pc = s.pc + 4 ∨ t.pc = s.ctr &&& 0xFFFFFFFC) ∧
      t.lr = (if lk then s.pc + 4 else s.lr) ∧ Keeps { lr := true, ctr := true } s t ∧ StorageKept [] s t := by
  let u : State := { s with draws := s.draws + 2 }
  have hx : exec (.bcctr bo bi bh lk) s =
      u.branch s.drawBit.1 (wordAligned s.ctr) s.drawBit.2.drawWord.1 lk :=
    if_neg (ne_true_of_eq_false hbo)
  refine ⟨_, hx.trans (State.branch_eq _ _ lk fun _ => hd), ?_, rfl,
    (keeps_draws _ s _).trans (keeps_branch u _ _ _), storageKept_of_mem _ rfl⟩
  cases s.drawBit.1
  · exact .inl rfl
  · exact .inr rfl

/-- Settles O10: the branches differ in target, condition and counter. -/
theorem branchResults : Obligations.BranchResults := by
  intro s li bd bo bi bh aa lk far near ctr
  refine ⟨branches_of_branch rfl, branches_of_branch ?_, branches_of_branch ?_, fun hbo => branches_of_branch ?_,
    fun hbo hd => bcctr_invalid s bo bi bh lk hbo hd⟩
  · rw [show ctr = s.branchCtr bo from rfl, ← taken_eq]; rfl
  · rw [show ctr = s.branchCtr bo from rfl, ← taken_eq]; rfl
  · refine (if_pos hbo).trans ?_
    rw [show branchTaken bo bi ctr s.cr = s.condOk bo bi by rw [branchTaken, hbo, Bool.true_or, Bool.true_and]; rfl]
    rfl

/-! ### Traps and calls (R1020 to R1023) -/

theorem trapHolds_iff (tO : BitVec 5) (a b : Word) : trapHolds tO a b = true ↔ Traps tO a b := by
  unfold trapHolds Traps boBit
  simp only [Bool.or_eq_true, Bool.and_eq_true, beq_iff_eq, BitVec.slt_iff_toInt_lt, BitVec.ult_iff_toNat_lt, or_assoc]

theorem does_trapIf {i : Instr} {s : State} {c : Bool} (h : exec i s = s.trapIf c) (hc : ¬c = true) :
    Does i s {} [] fun _ => True :=
  does_finish (h.trans (if_neg hc)) rfl (Keeps.refl _ _) (storageKept_of_mem _ rfl) trivial

theorem enters_trapIf {i : Instr} {s : State} {c : Bool} (h : exec i s = s.trapIf c) (hc : c = true)
    (hd : s.debugAction (s.enabledBit 39 dbTrap) s.de = .ignore) :
    Enters i s .program false s.pc (some 0x02000000) none := by
  refine enters_of_takeHere (t := s.setLog { s.log with trapTaken := true }) ?_ rfl
  rw [h, State.trapIf, if_pos hc, debugBefore_ignore hd]
  rfl

theorem enters_systemCall {i : Instr} {s : State} {k : IntKind} {g : Bool} (h : exec i s = s.systemCall k g) :
    Enters i s k g (s.pc + 4) none none := ⟨_, s.draws, h⟩

/-- Settles O11: a trap by whether its condition holds, a call by the low bit of LEV. -/
theorem trapsAndCalls : Obligations.TrapsAndCalls := by
  intro s tO rA rB simm lev oc
  simp only [← trapHolds_iff]
  exact ⟨does_trapIf rfl, does_trapIf rfl, fun hd => ⟨fun h => enters_trapIf rfl h hd, fun h => enters_trapIf rfl h hd⟩,
    fun h => enters_systemCall (if_neg (ne_true_of_eq_false h)), fun h => enters_systemCall (if_pos h),
    enters_hvPrivilege rfl⟩

/-! ### Barriers and wait (R1038, R1060 to R1062) -/

theorem State.synchronize_eq (l : BitVec 2) (s : State) :
    s.synchronize l = { s with cache := { s.cache with recent := (s.synchronize l).cache.recent } } := by
  unfold State.synchronize
  split <;> rfl

/-- Settles O12: nothing but the next address, the window of mixed touches, or the waiting state. -/
theorem barriersAndWait : Obligations.BarriersAndWait := by
  intro s l wc mo
  have hx : exec (.sync l) s = ((s.synchronize l).noteStores 1).finish := rfl
  rw [State.synchronize_eq] at hx
  exact ⟨does_finish rfl rfl (Keeps.refl _ _) (storageKept_of_mem _ rfl) trivial,
    does_finish hx rfl ((keeps_cache s _ rfl).trans (keeps_setLog _ _ _)) (storageKept_of_mem _ rfl) rfl,
    does_finish rfl rfl (keeps_setLog _ _ _) (storageKept_of_mem _ rfl) trivial,
    does_finish rfl rfl (keeps_hid s _ rfl) (storageKept_of_mem _ rfl) rfl⟩

end Sys2Proof.Machine

/-! Loads and stores that reach storage (41_load_store.md): the lemmas of Laws/LoadStore say what each shared operation
does; here the instructions are named, byte reversal is read as arithmetic on numbers, and the decorated, multiple-word,
undefined-conversion and reservation forms are added. -/

namespace Sys2Proof.Machine

/-! ### Byte reversal (R511 to R514) -/

theorem swap16_toNat (w : BitVec 16) : (swap16 w).toNat = w.toNat % 256 * 256 + w.toNat / 256 := by
  have hw := w.isLt
  unfold swap16
  rw [append_toNat, BitVec.toNat_setWidth, BitVec.extractLsb'_toNat, Nat.shiftRight_eq_div_pow]
  omega

theorem swap32_toNat (w : Word) : (swap32 w).toNat =
    w.toNat % 256 * 2 ^ 24 + w.toNat / 2 ^ 8 % 256 * 2 ^ 16 + w.toNat / 2 ^ 16 % 256 * 2 ^ 8 + w.toNat / 2 ^ 24 := by
  have hw := w.isLt
  unfold swap32
  rw [append_toNat, append_toNat, append_toNat]
  simp only [BitVec.toNat_setWidth, BitVec.extractLsb'_toNat, Nat.shiftRight_eq_div_pow]
  omega

/-- The function of a load counts only for the numbers that its bytes can hold. -/
theorem LoadsGpr.congr {i : Instr} {s : State} {a : Access} {ea : Word} {n : Nat} {r : BitVec 5} {f g : Nat → Word}
    (h : LoadsGpr i s a ea n r f) (hfg : ∀ v < 256 ^ n, f v = g v) : LoadsGpr i s a ea n r g := by
  intro p hp
  obtain ⟨v, rfl, hv, hd⟩ := h p hp
  exact ⟨v, rfl, hv, hfg v hv.1 ▸ hd⟩

theorem lhbrx_value {v : Nat} (hv : v < 256 ^ 2) :
    (swap16 (BitVec.ofNat 16 v)).setWidth 32 = BitVec.ofNat 32 (v % 256 * 256 + v / 256) := by
  apply BitVec.eq_of_toNat_eq
  rw [BitVec.toNat_setWidth, swap16_toNat, BitVec.toNat_ofNat, BitVec.toNat_ofNat,
    Nat.mod_eq_of_lt (show v < 2 ^ 16 by omega)]

theorem lwbrx_value {v : Nat} (hv : v < 256 ^ 4) : swap32 (BitVec.ofNat 32 v) = BitVec.ofNat 32
    (v % 256 * 2 ^ 24 + v / 2 ^ 8 % 256 * 2 ^ 16 + v / 2 ^ 16 % 256 * 2 ^ 8 + v / 2 ^ 24) := by
  apply BitVec.eq_of_toNat_eq
  rw [swap32_toNat, BitVec.toNat_ofNat, BitVec.toNat_ofNat, Nat.mod_eq_of_lt (show v < 2 ^ 32 by omega)]
  omega

/-- Settles O14: every load is one of the two shared operations, with its address, size and function. -/
theorem integerLoads : Obligations.IntegerLoads := by
  intro s rD rA rB d eaD eaX eaDU eaXU zero algebraic
  exact ⟨⟨loadGpr_of_reaches rfl, loadGpr_of_reaches rfl, loadGpr_of_reaches rfl, loadGpr_of_reaches rfl,
      loadGpr_of_reaches rfl, loadGpr_of_reaches rfl, loadGpr_of_reaches rfl, loadGpr_of_reaches rfl,
      (loadGpr_of_reaches rfl).congr fun v hv => lhbrx_value hv,
      (loadGpr_of_reaches rfl).congr fun v hv => lwbrx_value hv⟩,
    loadGprUpdate_of_reaches rfl, loadGprUpdate_of_reaches rfl, loadGprUpdate_of_reaches rfl,
    loadGprUpdate_of_reaches rfl, loadGprUpdate_of_reaches rfl, loadGprUpdate_of_reaches rfl,
    loadGprUpdate_of_reaches rfl, loadGprUpdate_of_reaches rfl⟩

/-- Settles O15: every store is the shared operation, with its address, size and number. -/
theorem integerStores : Obligations.IntegerStores := by
  intro s rS rA rB d hw eaD eaX v
  have store {i : Instr} {ea : Word} {n v : Nat} (hn : n ≤ 4096) (h : exec i s = s.storeValue .store ea n v) :
      StoresBytes i s .store ea n v := storesBytes_of_storeValue hn hw h
  refine ⟨store (by decide) rfl, store (by decide) rfl, store (by decide) rfl, store (by decide) rfl,
    store (by decide) rfl, store (by decide) rfl, ?sthbrx, ?stwbrx⟩
  case sthbrx =>
    have hv : v % 256 * 256 + v / 256 % 256 = (swap16 ((s.getGpr rS).setWidth 16)).toNat := by
      rw [swap16_toNat, BitVec.toNat_setWidth]
      omega
    exact hv ▸ store (by decide) rfl
  case stwbrx => exact swap32_toNat (s.getGpr rS) ▸ store (by decide) rfl

/-- An instruction that is a store with update. -/
theorem storesUpdate_of_storeUpdate {i : Instr} {s : State} {a : Access} {ea : Word} {n v : Nat} {rA : BitVec 5}
    (hn : n ≤ 4096) (hw : s.mem.wf) (h : exec i s = s.storeUpdate a ea n v rA) : StoresUpdate i s a ea n v rA :=
  fun _ hp => storeUpdate_of_reaches h hw (place_nodup hn hp.placed) hp

/-- Settles O16: every store with update is the shared operation. -/
theorem integerStoresWithUpdate : Obligations.IntegerStoresWithUpdate := by
  intro s rS rA rB d hw eaD eaX v
  refine ⟨?_, ?_, ?_, ?_, ?_, ?_⟩
  all_goals exact storesUpdate_of_storeUpdate (by decide) hw rfl

/-! ### Multiple words (R515, R516) -/

/-- Settles O17: an lmw all of whose words are placed runs out of words. -/
theorem loadMultiple : Obligations.LoadMultiple := by
  intro s rD rA d loaded ps hd hloaded hp
  have hr := rD.isLt
  obtain ⟨moves, g, hx, hkept, hval⟩ := lmw_after_words (n := fun _ => 32 - rD.toNat) hd
    (fun h0 hle _ => hloaded h0 hle) (fun _ => by omega) (fun _ => by omega) fun m k hk => hp m k (by omega)
  exact ⟨moves, loadsWords_of_goesOn hd (by omega) hx hkept hval⟩

/-- Settles O18: a stmw all of whose words are placed runs out of words. -/
theorem storeMultiple : Obligations.StoreMultiple := by
  intro s rS rA d ps hw hd hp all
  have hr := rS.isLt
  obtain ⟨m, ⟨ev, l, hx⟩, -, hkept, hval⟩ := stmw_after_words (rS := rS) hw hd (32 - rS.toNat) (by omega)
    fun k hk => hp k (by omega)
  rw [drop_regsFrom_end rS (show rS.toNat + (32 - rS.toNat) = 32 by omega), State.storeWords,
    debugBefore_off (s := { s with mem := m, log := l }) hd] at hx
  exact does_finish hx rfl (keeps_minor {} s s.pc m s.draws l) hkept fun hn k hk => hval hn k (by omega)

/-! ### Floating-point loads and stores (R517 to R533) -/

/-- Settles O19: every floating-point load is one of the two shared operations. -/
theorem floatLoads : Obligations.FloatLoads := by
  intro s frD rA rB d hfp eaD eaX eaDU eaXU double
  exact ⟨loadFpr_of_reaches rfl hfp, loadFpr_of_reaches rfl hfp, loadFprUpdate_of_reaches rfl hfp,
    loadFprUpdate_of_reaches rfl hfp, loadFpr_of_reaches rfl hfp, loadFpr_of_reaches rfl hfp,
    loadFprUpdate_of_reaches rfl hfp, loadFprUpdate_of_reaches rfl hfp⟩

/-- Where the conversion to single is defined, no free value is taken. -/
theorem singleWord_defined {s : State} {frS : BitVec 5} (h : singleDefined (s.getFpr frS) = true) :
    s.singleWord frS = (singleOf (s.getFpr frS), s) := if_pos h

/-- A store after a free value: what it stores aside, it only stores. -/
theorem does_storeValue_drawn {i : Instr} {s : State} {d v : Nat} {a : Access} {ea : Word} {n : Nat} {p : Placed}
    (hw : s.mem.wf) (hp : Reaches s a ea n p) (h : exec i s = ({ s with draws := d } : State).storeValue a ea n v) :
    Does i s {} p.bytes fun _ => True := by
  obtain ⟨l, -, he⟩ := store_of_reaches (s := { s with draws := d }) (v := v) ⟨hp.placed, hp.storage, hp.quiet⟩
    State.finish
  exact does_finish (h.trans he) rfl
    (((keeps_draws _ s d).trans (keeps_writeBytes _ _ _)).trans (keeps_setLog _ _ l)) (storageKept_writeBytes hw rfl)
    trivial

/-- The same with update. -/
theorem does_storeUpdate_drawn {i : Instr} {s : State} {d v : Nat} {a : Access} {ea : Word} {n : Nat} {rA : BitVec 5}
    {p : Placed} (hw : s.mem.wf) (hp : Reaches s a ea n p)
    (h : exec i s = ({ s with draws := d } : State).storeUpdate a ea n v rA) :
    Does i s { gprs := [rA] } p.bytes fun t => rA ≠ 0 → t.getGpr rA = ea := by
  obtain ⟨l, -, he⟩ := store_of_reaches (s := { s with draws := d }) (v := v) ⟨hp.placed, hp.storage, hp.quiet⟩ fun t =>
    if rA = 0 then (t.drawWord.2.setGpr rA t.drawWord.1).finish else (t.setGpr rA ea).finish
  have hk := ((keeps_draws { gprs := [rA] } s d).trans (keeps_writeBytes _ _ (p.cells v))).trans (keeps_setLog _ _ l)
  have hmem := List.mem_singleton_self rA
  by_cases h0 : rA = 0
  · rw [if_pos h0] at he
    exact does_finish (h.trans he) rfl ((hk.trans (keeps_draws _ _ _)).trans (keeps_setGpr _ _ hmem))
      (storageKept_writeBytes hw rfl) fun hne => absurd h0 hne
  · rw [if_neg h0] at he
    exact does_finish (h.trans he) rfl (hk.trans (keeps_setGpr _ _ hmem)) (storageKept_writeBytes hw rfl)
      fun _ => (State.getGpr_setGpr _ rA rA ea).trans (if_pos rfl)

/-- Only the low bytes of the number count. -/
theorem StoresBytes.congr {i : Instr} {s : State} {a : Access} {ea : Word} {n v w : Nat} (h : StoresBytes i s a ea n v)
    (hvw : v % 256 ^ n = w % 256 ^ n) : StoresBytes i s a ea n w := by
  unfold StoresBytes at *
  rwa [← hvw]

/-- Settles O20: a store of a double, of a single whose conversion is defined, and of one whose conversion is not. -/
theorem floatStores : Obligations.FloatStores := by
  intro s frS rA rB d hfp hw eaD eaX eaDU eaXU v w someWord
  have double {i : Instr} {ea : Word} {n v : Nat} (hn : n ≤ 4096) (h : exec i s = s.storeFp .fpStore ea n v) :
      StoresBytes i s .fpStore ea n v := storesBytes_of_storeFp hn hw hfp h
  have doubleU {i : Instr} {ea : Word} {n v : Nat} (hn : n ≤ 4096) (h : exec i s = s.storeFpUpdate ea n v rA) :
      StoresUpdate i s .fpStore ea n v rA := storesUpdate_of_storeUpdate hn hw (h.trans (needFp_ok hfp _))
  have drawn_fp (d : Nat) : bit ({ s with draws := d } : State).msr 50 = true := hfp
  refine ⟨fun hdef => ?_, fun _ => ?_, double (by decide) rfl, double (by decide) rfl, doubleU (by decide) rfl,
    doubleU (by decide) rfl, ?_⟩
  · have hs := singleWord_defined hdef
    have single {i : Instr} {ea : Word} (h : exec i s =
        (s.singleWord frS).2.storeFp .fpStore ea 4 (s.singleWord frS).1.toNat) : StoresBytes i s .fpStore ea 4 w :=
      double (by decide) (h.trans (by rw [hs]))
    have singleU {i : Instr} {ea : Word} (h : exec i s =
        (s.singleWord frS).2.storeFpUpdate ea 4 (s.singleWord frS).1.toNat rA) : StoresUpdate i s .fpStore ea 4 w rA :=
      doubleU (by decide) (h.trans (by rw [hs]))
    exact ⟨single rfl, single rfl, singleU rfl, singleU rfl⟩
  · have drawn {i : Instr} {ea : Word} (h : exec i s =
        (s.singleWord frS).2.storeFp .fpStore ea 4 (s.singleWord frS).1.toNat) : someWord i ea [] := by
      intro p hp
      rw [singleWord_state] at h
      obtain ⟨t, he, hpc, hk, hs, -⟩ := does_storeValue_drawn hw hp (h.trans (needFp_ok (drawn_fp _) _))
      exact ⟨t, he, hpc, hk, hs, nofun⟩
    have drawnU {i : Instr} {ea : Word} (h : exec i s =
        (s.singleWord frS).2.storeFpUpdate ea 4 (s.singleWord frS).1.toNat rA) : someWord i ea [rA] := by
      intro p hp
      rw [singleWord_state] at h
      obtain ⟨t, he, hpc, hk, hs, hea⟩ := does_storeUpdate_drawn hw hp (h.trans (needFp_ok (drawn_fp _) _))
      refine ⟨t, he, hpc, hk, hs, fun r hr hne => ?_⟩
      obtain rfl := List.mem_singleton.1 hr
      exact hea hne
    exact ⟨drawn rfl, drawn rfl, drawnU rfl, drawnU rfl⟩
  · refine (double (v := ((s.getFpr frS).setWidth 32).toNat) (by decide) rfl).congr ?_
    rw [BitVec.toNat_setWidth]
    exact Nat.mod_mod_of_dvd _ (by decide)

/-! ### Decorated accesses (R534 to R543) -/

/-- Storage ignores the decoration. -/
theorem reaches_decorate {s : State} {a : Access} {ea : Word} {n : Nat} {p : Placed} (h : Reaches s a ea n p) :
    Reaches s a.decorate ea n p := ⟨h.placed, h.storage, h.quiet⟩

/-- A decorated load that goes through. -/
theorem loadDecorated_of_reaches {s : State} {a : Access} {rA rB : BitVec 5} {n : Nat} {p : Placed}
    (h : Reaches s a (s.getGpr rB) n p) (k : Nat → State → State) :
    ∃ v l, p.bytes.length = n ∧ Holds s p v ∧ s.loadDecorated a rA rB n k = (k v (s.setLog l)).finish := by
  obtain ⟨l, hl⟩ := access_of_reaches (reaches_decorate h)
  refine ⟨s.readPlaced p, (((s.setLog l).noteLoads (partCount (s.getGpr rB) n)).noteDecorated false p.inhibited).log,
    length_place h.placed, holds_readPlaced s p, ?_⟩
  unfold State.loadDecorated
  rw [hl]
  simp only [Res.andThen, loadPlaced_storage (s := s.setLog l) h.storage]
  rfl

theorem loadsGpr_of_loadDecorated {i : Instr} {s : State} {rA rB rD : BitVec 5} {n : Nat}
    (h : exec i s = s.loadDecorated .load rA rB n fun v t => t.setGpr rD (BitVec.ofNat 32 v)) :
    LoadsGpr i s .load (s.getGpr rB) n rD (BitVec.ofNat 32) := by
  intro p hp
  obtain ⟨v, l, hn, hv, he⟩ := loadDecorated_of_reaches (rA := rA) hp fun v t => t.setGpr rD (BitVec.ofNat 32 v)
  exact ⟨v, hn, hv, does_finish (h.trans he) rfl
    ((keeps_setLog _ s l).trans (keeps_setGpr _ _ (List.mem_singleton_self rD))) (storageKept_of_mem _ rfl)
    ((State.getGpr_setGpr _ rD rD _).trans (if_pos rfl))⟩

theorem loadsFpr_of_loadDecorated {i : Instr} {s : State} {rA rB fr : BitVec 5} {n : Nat}
    (h : exec i s = s.loadDecorated .fpLoad rA rB n fun v t => t.setFpr fr (BitVec.ofNat 64 v)) :
    LoadsFpr i s .fpLoad (s.getGpr rB) n fr (BitVec.ofNat 64) := by
  intro p hp
  obtain ⟨v, l, hn, hv, he⟩ := loadDecorated_of_reaches (rA := rA) hp fun v t => t.setFpr fr (BitVec.ofNat 64 v)
  exact ⟨v, hn, hv, does_finish (h.trans he) rfl
    ((keeps_setLog _ s l).trans (keeps_setFpr _ _ (List.mem_singleton_self fr))) (storageKept_of_mem _ rfl)
    ((State.getFpr_setFpr _ fr fr _).trans (if_pos rfl))⟩

theorem storesBytes_of_storeDecorated {i : Instr} {s : State} {a : Access} {rA rB : BitVec 5} {n v : Nat}
    (hn : n ≤ 4096) (hw : s.mem.wf) (h : exec i s = s.storeDecorated a rA rB n v) :
    StoresBytes i s a (s.getGpr rB) n v := by
  intro p hp
  obtain ⟨l, hl⟩ := access_of_reaches (reaches_decorate hp)
  have hs := storePlaced_storage (s := s.setLog l) hp.storage (some ((s.setLog l).decoration rA)) v
  have hlen := length_place hp.placed
  have he : exec i s = ((((s.setLog l).writeBytes (p.cells v)).noteStores (partCount (s.getGpr rB) n)).noteDecorated
      true p.inhibited).finish := by
    rw [h, State.storeDecorated, hl]
    exact congrArg (fun u : State => ((u.noteStores (partCount (s.getGpr rB) n)).noteDecorated true p.inhibited).finish) hs
  refine ⟨hlen, does_finish he rfl ?_ (storageKept_writeBytes hw rfl) ?_⟩
  · exact (((keeps_setLog _ s l).trans (keeps_writeBytes _ _ _)).trans (keeps_setLog _ _ _)).trans (keeps_setLog _ _ _)
  · rw [← hlen]
    exact holds_writeBytes hw (place_nodup hn hp.placed) rfl

/-- A notification of storage changes nothing. -/
theorem does_dsn {s : State} {rA rB : BitVec 5} {p : Placed} (hp : Reaches s .store (s.getGpr rB) 1 p) :
    Does (.dsn rA rB) s {} [] fun _ => True := by
  obtain ⟨l, hl⟩ := access_of_reaches (reaches_decorate hp)
  have hs : (s.setLog l).notifyPlaced ((s.setLog l).decoration rA) p = s.setLog l := by
    unfold State.notifyPlaced
    rw [show (s.setLog l).regionOf p.bytes = none from hp.storage]
  have he : exec (.dsn rA rB) s = (((s.setLog l).noteStores 1).noteDecorated true p.inhibited).finish := by
    rw [show exec (.dsn rA rB) s = execDsn rA rB s from rfl, execDsn, hl]
    exact congrArg (fun u : State => ((u.noteStores 1).noteDecorated true p.inhibited).finish) hs
  exact does_finish he rfl (((keeps_setLog _ s l).trans (keeps_setLog _ _ _)).trans (keeps_setLog _ _ _))
    (storageKept_of_mem _ rfl) trivial

/-- Settles O21: every decorated form is one of the shared operations; dsn is checked as a store and makes none. -/
theorem decoratedAccesses : Obligations.DecoratedAccesses := by
  intro s rD rA rB fr hw ea v
  have store {i : Instr} {a : Access} {n v : Nat} (hn : n ≤ 4096) (h : exec i s = s.storeDecorated a rA rB n v) :
      StoresBytes i s a ea n v := storesBytes_of_storeDecorated hn hw h
  exact ⟨loadsGpr_of_loadDecorated rfl, loadsGpr_of_loadDecorated rfl, loadsGpr_of_loadDecorated rfl,
    store (by decide) rfl, store (by decide) rfl, store (by decide) rfl, fun _ => does_dsn,
    fun hfp => ⟨loadsFpr_of_loadDecorated (needFp_ok hfp _), store (by decide) (needFp_ok hfp _)⟩⟩

/-! ### Reservations (R1066, R1067) -/

theorem does_lwarx {s : State} {r rA rB : BitVec 5} {p : Placed}
    (hp : Reaches s .lwarx (orZero s rA + s.getGpr rB) 4 p) :
    Does (.lwarx r rA rB) s { gprs := [r], hid := true } [] fun t =>
      Holds s p (t.getGpr r).toNat ∧
        t.hid = { s.hid with reserve := some { granule := (p.bytes.headD 0).extractLsb' 6 30, coherent := p.m } } := by
  obtain ⟨l, hl⟩ := access_of_reaches hp
  have hload := loadPlaced_storage (s := s.setLog l) hp.storage none
  let v : Word := BitVec.ofNat 32 (s.readPlaced p)
  have he : exec (.lwarx r rA rB) s =
      ((((s.setLog l).setGpr r v).setReserve (some { granule := p.granule, coherent := p.m })).noteLoads 1).finish := by
    rw [show exec (.lwarx r rA rB) s = execLwarx r rA rB s from rfl, execLwarx,
      show s.eaX rA rB = orZero s rA + s.getGpr rB from rfl, hl]
    simp only [Res.andThen, hload]
    rfl
  refine does_finish he rfl ?_ (storageKept_of_mem _ rfl) ⟨?_, rfl⟩
  · exact (((keeps_setLog _ s l).trans (keeps_setGpr _ _ (List.mem_singleton_self r))).trans
      (keeps_hid _ _ rfl)).trans (keeps_setLog _ _ _)
  · have hv : ((s.setLog l).setGpr r v).getGpr r = v := (State.getGpr_setGpr (s.setLog l) r r v).trans (if_pos rfl)
    show Holds s p (((s.setLog l).setGpr r v).getGpr r).toNat
    rw [hv]
    exact holds_ofNat_readPlaced (length_place hp.placed)

/-- The end of stwcx. from a state: CR0 and the reservation. -/
theorem does_concludeStwcx {i : Instr} {s t : State} {ok : Bool} {but : List (BitVec 36)} {p : State → Prop}
    (h : exec i s = t.concludeStwcx ok) (hpc : t.pc = s.pc) (hk : Keeps { cr := 0xF0000000, hid := true } s t)
    (hs : StorageKept but s t) (hhid : t.hid = s.hid) (hxer : t.xer = s.xer)
    (hp : ∀ u : State, u.mem = t.mem → p u) :
    Does i s { cr := 0xF0000000, hid := true } but fun u =>
      p u ∧ CrFieldIs 0 False False (ok = true) (bit s.xer 32 = true) u ∧ u.hid = { s.hid with reserve := none } := by
  have hcr : agreeBut 0xF0000000 (withCrField 0 (compareBits false false ok t.so) t.cr) t.cr :=
    agreeBut_withCrField 0 _ _
  refine does_finish h hpc (((hk.trans (keeps_setCr _ hcr)).trans (keeps_hid _ _ rfl)).trans
    ((keeps_setLog _ _ _).trans (keeps_setLog _ _ _))) hs ⟨hp _ rfl, ?_, ?_⟩
  · have hb (k : Fin 4) := bit_withCrField 0 (compareBits false false ok t.so) t.cr k
    obtain ⟨h3, h2, h1, h0⟩ := compareBits_bits false false ok t.so
    rw [← hxer]
    exact ⟨(congrArg (· = true) ((hb 0).trans h3)).to_iff.trans Bool.false_eq_true.to_iff,
      (congrArg (· = true) ((hb 1).trans h2)).to_iff.trans Bool.false_eq_true.to_iff,
      (congrArg (· = true) ((hb 2).trans h1)).to_iff, (congrArg (· = true) ((hb 3).trans h0)).to_iff⟩
  · rw [← hhid]
    rfl

theorem reserved_iff (s : State) (p : Placed) : s.reserved p = true ↔
    ∃ c, s.hid.reserve = some { granule := (p.bytes.headD 0).extractLsb' 6 30, coherent := c } := by
  unfold State.reserved
  split
  · next r hr =>
    rw [hr, beq_iff_eq]
    constructor
    · rintro h
      exact ⟨r.coherent, congrArg (fun g => some ({ granule := g, coherent := r.coherent } : Reservation)) h⟩
    · rintro ⟨c, hc⟩
      rw [Option.some.inj hc]
      rfl
  · next hr => simp [hr]

/-- stwcx. once its access goes through. -/
theorem stwcx_of_reaches {s : State} {r rA rB : BitVec 5} {p : Placed}
    (hp : Reaches s .stwcx (orZero s rA + s.getGpr rB) 4 p) :
    ∃ l, exec (.stwcxDot r rA rB) s = if s.reserved p then
        ((s.setLog l).storePlaced none p (s.getGpr r).toNat).concludeStwcx true
      else (s.setLog l).concludeStwcx false := by
  obtain ⟨l, hl⟩ := access_of_reaches hp
  refine ⟨l, ?_⟩
  rw [show exec (.stwcxDot r rA rB) s = _ from (access_andThen s Access.stwcx (orZero s rA + s.getGpr rB) 4 (fun p u => if u.reserved p then
    (u.storePlaced none p (s.getGpr r).toNat).concludeStwcx true else u.concludeStwcx false)).symm, hl]
  rfl

/-- Settles O24: lwarx holds the granule; stwcx. stores exactly if its own is held. -/
theorem reservedAccesses : Obligations.ReservedAccesses := by
  intro s r rA rB p hw ea granule held
  refine ⟨does_lwarx, fun hp hheld => ?_, fun hp hheld => ?_⟩
  · obtain ⟨l, he⟩ := stwcx_of_reaches (r := r) hp
    rw [if_pos ((reserved_iff s p).2 hheld), storePlaced_storage (s := s.setLog l) hp.storage] at he
    have hlen := length_place hp.placed
    have hd := does_concludeStwcx (p := fun u => Holds u p (s.getGpr r).toNat) he rfl
      ((keeps_setLog _ s l).trans (keeps_writeBytes _ _ _)) (storageKept_writeBytes hw rfl) rfl rfl fun u hu => by
        have h := holds_writeBytes hw (place_nodup (by decide) hp.placed) hu
        rwa [hlen, Nat.mod_eq_of_lt (show (s.getGpr r).toNat < 256 ^ 4 from (s.getGpr r).isLt)] at h
    simpa only [eq_self] using hd
  · obtain ⟨l, he⟩ := stwcx_of_reaches (r := r) hp
    rw [if_neg (fun h => hheld ((reserved_iff s p).1 h))] at he
    have hd := does_concludeStwcx (but := []) (p := fun _ => True) he rfl (keeps_setLog _ s l) (storageKept_of_mem _ rfl) rfl rfl
      fun _ _ => trivial
    simpa only [true_and, Bool.false_eq_true] using hd

end Sys2Proof.Machine

/-! Reset, interrupt entry, supervisor instructions (60_exceptions.md sections 1 and 2; 45_supervisor.md). -/

namespace Sys2Proof.Machine

/-- Settles O55: storage is empty, the address a constant, the registers 0. -/
theorem resetInvariant : Obligations.ResetInvariant := ⟨Memory.reset_wf, rfl, rfl, rfl, rfl, rfl⟩

/-- Settles O56: each word is a closed term. -/
theorem decodesWords : Obligations.DecodesWords := by
  unfold Obligations.DecodesWords
  decide +kernel

/-! ### Entry (60 R601 to R606) -/

/-- What the syndrome registers receive aside, an entry writes its pair. -/
theorem syndrome_save (p : SavePair) (pc msr : Word) (guest : Bool) (esr dear : Option Word) (r : IntRegs) :
    { (r.save p pc msr).syndrome guest esr dear with
      esr := r.esr, dear := r.dear, gesr := r.gesr, gdear := r.gdear } = r.save p pc msr := by
  cases p <;> cases guest <;> rfl

/-- The syndrome registers of an entry. -/
theorem syndrome_fields (p : SavePair) (pc msr : Word) (guest : Bool) (esr dear : Option Word) (r : IntRegs) :
    let t := (r.save p pc msr).syndrome guest esr dear
    t.esr = (if guest then r.esr else esr.getD r.esr) ∧ t.dear = (if guest then r.dear else dear.getD r.dear) ∧
      t.gesr = (if guest then esr.getD r.gesr else r.gesr) ∧
      t.gdear = (if guest then dear.getD r.gdear else r.gdear) := by
  cases p <;> cases guest <;> exact ⟨rfl, rfl, rfl, rfl⟩

/-- The handler of an interrupt directed to the guest. -/
theorem vector_guest {k : IntKind} {v : Fin 6} (h : k.givor = v) (r : IntRegs) :
    r.vector k true = (r.givpr &&& 0xFFFF0000) ||| (r.givor[v] &&& 0xFFF0) := by
  subst h
  rfl

/-- The MSR bits that an entry keeps follow from its pair, the guest doorbell apart. -/
theorem keepMask_srr {k : IntKind} (h : k.savePair false = .srr) (msrp : Word) : keepMask k false msrp = 0x00021202 := by
  cases k <;> first | rfl | cases h

theorem keepMask_csrr {k : IntKind} (h : k.savePair false = .csrr) (msrp : Word) :
    keepMask k false msrp = 0x00001202 := by
  cases k <;> first | rfl | cases h

theorem keepMask_mcsrr {k : IntKind} (h : k.savePair false = .mcsrr) (msrp : Word) : keepMask k false msrp = 0 := by
  cases k <;> first | rfl | cases h

/-- Settles O51: the row of each kind; what the syndrome registers, the reservation and the rest receive. -/
theorem interruptEntry : Obligations.InterruptEntry := by
  intro s i t standard critical machineCheck guest saved enters keepGuest
  have hsaved : saved = s.int.save (i.kind.savePair i.guest) i.ret s.msr := syndrome_save ..
  have enters_of {k : IntKind} {ivor : Fin 23} {keep : Word} (hv : k.ivor = ivor)
      (hm : keepMask k false s.ctl.msrp = keep) : enters k ivor (s.int.save (k.savePair false) i.ret s.msr) keep := by
    intro hk hg
    rw [hsaved, ← hk, ← hv, ← hm, ← hk, hg]
    refine ⟨rfl, ?_, ?_⟩
    · show s.msr &&& keepMask i.kind i.guest s.ctl.msrp = _
      rw [hg]
    · show s.int.vector i.kind i.guest = _
      rw [hg]
      rfl
  obtain ⟨hesr, hdear, hgesr, hgdear⟩ :=
    syndrome_fields (i.kind.savePair i.guest) i.ret s.msr i.guest i.esr i.dear s.int
  refine ⟨fun x hx => ?_, enters_of (k := .guestDoorbell) rfl rfl, fun x hx => ?_, enters_of (k := .debug) rfl rfl,
    fun x hx => ?_, fun x hx hk hg => ?_, hesr, hdear, hgesr, hgdear, rfl, rfl⟩
  · have hpair : x.1.savePair false = .srr := by revert x; decide
    have h := enters_of (show x.1.ivor = x.2 by revert x; decide) (keepMask_srr hpair _)
    rwa [hpair] at h
  · have hpair : x.1.savePair false = .csrr := by revert x; decide
    have h := enters_of (show x.1.ivor = x.2 by revert x; decide) (keepMask_csrr hpair _)
    rwa [hpair] at h
  · have hpair : x.1.savePair false = .mcsrr := by revert x; decide
    have h := enters_of (show x.1.ivor = x.2 by revert x; decide) (keepMask_mcsrr hpair _)
    rwa [hpair] at h
  · have hpair : ∀ x ∈ guest, x.1.savePair true = .gsrr ∧ x.1.givor = x.2 := by decide
    have hmask : ∀ x ∈ guest, keepMask x.1 true s.ctl.msrp = keepGuest := by simp [guest, keepMask, keepGuest, maskIf]
    obtain ⟨hsave, hvec⟩ := hpair x hx
    have hmsr : t.msr = s.msr &&& keepMask i.kind i.guest s.ctl.msrp := rfl
    have hpc : t.pc = s.int.vector i.kind i.guest := rfl
    rw [hsaved, hmsr, hpc, hk, hg, hsave, hmask x hx, vector_guest hvec]
    exact ⟨rfl, rfl, rfl⟩

/-! ### Privilege (45 R1110) -/

/-- The supervisor class tests for user state first. -/
theorem exec_of_supervisorClass {i : Instr} (s : State) (h : supervisorClass i = true) :
    ∃ o, exec i s = s.supervisorOnly o := by
  cases i
  case rfi | rfgi | mfmsr | mtmsr | wrtee | wrteei | dcbi | lbepx | lhepx | lwepx | lfdepx | stbepx | sthepx | stwepx
      | stfdepx | dcbfep | dcbstep | dcbtep | dcbtstep | dcbzep | dcbzlep | icbiep | tlbilx => exact ⟨_, rfl⟩
  all_goals cases h

/-- The hypervisor class tests for user state, then for guest state, first. -/
theorem exec_of_hypervisorClass {i : Instr} (s : State) (h : hypervisorClass i = true) :
    ∃ o, exec i s = s.hypervisorOnly o := by
  cases i
  case rfci | rfdi | rfmci | msgsnd | msgclr | tlbivax | tlbre | tlbsx | tlbsync | tlbwe => exact ⟨_, rfl⟩
  all_goals cases h

/-- Settles O40: by the test with which each class starts; tlbilx tests EPCR[DGTMI] next. -/
theorem privilegeGates : Obligations.PrivilegeGates := by
  intro s i
  refine ⟨fun hpr hc => ?_, fun hpr hgs hc => ?_⟩
  · rcases hc with hc | hc
    · obtain ⟨o, hx⟩ := exec_of_supervisorClass s hc
      exact enters_privileged (hx.trans (supervisorOnly_user hpr o))
    · obtain ⟨o, hx⟩ := exec_of_hypervisorClass s hc
      exact enters_privileged (hx.trans (hypervisorOnly_user hpr o))
  · rcases hc with hc | ⟨t, rA, rB, rfl, hd⟩
    · obtain ⟨o, hx⟩ := exec_of_hypervisorClass s hc
      exact enters_hvPrivilege (hx.trans (hypervisorOnly_guest hpr hgs o))
    · refine enters_hvPrivilege ((supervisorOnly_ok hpr _).trans (if_pos ?_))
      rw [show s.gs = true from hgs, hd]
      rfl

/-! ### Performance monitor registers (45 R1160, R1161; 14 R270, R271) -/

/-- A PMR number names a register and, 16 lower, the number of its reads in user state. -/
def NamesPmr (k : Nat) (r : Pmr) : Prop :=
  pmrRow (BitVec.ofNat 10 k) = some (r, false) ∧ pmrRow (BitVec.ofNat 10 (k - 16)) = some (r, true)

theorem namesPmr_pmgc0 : NamesPmr 400 .pmgc0 := by unfold NamesPmr; decide
theorem namesPmr_pmc (n : Fin 4) : NamesPmr (16 + n) (.pmc n) := by unfold NamesPmr; revert n; decide
theorem namesPmr_pmlca (n : Fin 4) : NamesPmr (144 + n) (.pmlca n) := by unfold NamesPmr; revert n; decide
theorem namesPmr_pmlcb (n : Fin 4) : NamesPmr (272 + n) (.pmlcb n) := by unfold NamesPmr; revert n; decide

/-- The other numbers name none. -/
theorem pmrRow_none (n : BitVec 10) (h0 : n.toNat ≠ 400) (h1 : n.toNat ≠ 384)
    (h : n.toNat / 4 ∉ [4, 36, 68, 0, 32, 64]) : pmrRow n = none := by
  revert n
  decide +kernel

theorem pmProtected_iff (s : State) : s.pmProtected = true ↔ bit s.ctl.msrp 61 = true ∧ bit s.msr 35 = true :=
  Bool.and_eq_true_iff

/-- mfpmr of a register: by its number, and by the one 16 lower. -/
theorem exec_mfpmr {s : State} {r : Gpr} {n : BitVec 10} {p : Pmr} {user : Bool} (h : pmrRow n = some (p, user)) :
    exec (.mfpmr r n) s =
      if !user && s.pr then s.privileged
      else if s.pmProtected then if s.pr then (s.setGpr r 0).finish else s.hvPrivilege
      else (s.setGpr r (s.pm.read p)).finish := by
  show execMfpmr r n s = _
  unfold execMfpmr
  rw [h]

theorem exec_mtpmr {s : State} {r : Gpr} {n : BitVec 10} {p : Pmr} (h : pmrRow n = some (p, false)) :
    exec (.mtpmr r n) s =
      if s.pr then s.privileged else if s.pmProtected then s.hvPrivilege
      else { s with pm := s.pm.write p (s.getGpr r) }.finish := by
  show execMtpmr r n s = _
  unfold execMtpmr
  rw [h]

theorem exec_mtpmr_alias {s : State} {r : Gpr} {n : BitVec 10} {p : Pmr} (h : pmrRow n = some (p, true)) :
    exec (.mtpmr r n) s = s.illegal := by
  show execMtpmr r n s = _
  unfold execMtpmr
  rw [h]

theorem exec_pmr_none {s : State} {n : BitVec 10} (h : pmrRow n = none) (r : Gpr) :
    exec (.mfpmr r n) s = s.illegal ∧ exec (.mtpmr r n) s = s.illegal := by
  constructor
  · show execMfpmr r n s = _
    unfold execMfpmr
    rw [h]
  · show execMtpmr r n s = _
    unfold execMtpmr
    rw [h]

/-- Settles O39: each number names one register, which user state reads by the one 16 lower; then the tests of the state. -/
theorem performanceMoves : Obligations.PerformanceMoves := by
  intro s r n pmrn pr shut v reads writes value numbers
  have hn := n.isLt
  have hnames : ∀ k ∈ numbers, ∃ p, NamesPmr k p ∧ s.pm.read p = value k := by
    intro k hk
    simp only [numbers, List.mem_cons, List.not_mem_nil, or_false] at hk
    rcases hk with rfl | rfl | rfl | rfl
    · exact ⟨_, namesPmr_pmgc0, (if_pos rfl).symm⟩
    · exact ⟨_, namesPmr_pmc n, ((if_neg (by omega)).trans (if_pos rfl)).symm⟩
    · exact ⟨_, namesPmr_pmlca n, ((if_neg (by omega)).trans ((if_neg (by omega)).trans (if_pos rfl))).symm⟩
    · exact ⟨_, namesPmr_pmlcb n, ((if_neg (by omega)).trans ((if_neg (by omega)).trans (if_neg (by omega)))).symm⟩
  have user (h : pr) : s.pr = true := h
  have super (h : ¬pr) : s.pr = false := eq_false_of_ne_true h
  have shutOn (h : shut) : s.pmProtected = true := (pmProtected_iff s).2 h
  have shutOff (h : ¬shut) : s.pmProtected = false := eq_false_of_ne_true fun e => h ((pmProtected_iff s).1 e)
  have writes_of {k : Nat} {p : Pmr} (h : NamesPmr k p) (hs : ¬shut) (hp : ¬pr) : writes k (s.pm.write p v) := by
    show exec _ s = _
    rw [exec_mtpmr h.1, super hp, shutOff hs]
    rfl
  refine ⟨fun hs hp k hk => ?_, fun hs k hk => ?_, fun hs hp k hk => ?_, fun hs hp =>
    ⟨writes_of namesPmr_pmgc0 hs hp, writes_of (namesPmr_pmc n) hs hp, writes_of (namesPmr_pmlca n) hs hp,
      writes_of (namesPmr_pmlcb n) hs hp⟩, fun k hk => ?_, fun h0 h1 h => ?_⟩
  · obtain ⟨p, ⟨hrow, -⟩, hread⟩ := hnames k hk
    refine does_setGpr ((exec_mfpmr hrow).trans ?_)
    rw [super hp, shutOff hs, ← hread]
    rfl
  · obtain ⟨p, ⟨-, hrow⟩, hread⟩ := hnames k hk
    refine does_setGpr ((exec_mfpmr hrow).trans ?_)
    rw [shutOff hs, ← hread]
    rfl
  · obtain ⟨p, ⟨-, hrow⟩, -⟩ := hnames k hk
    refine does_setGpr ((exec_mfpmr hrow).trans ?_)
    rw [shutOn hs, user hp]
    rfl
  · obtain ⟨p, ⟨hrow, halias⟩, -⟩ := hnames k hk
    refine ⟨fun hp => ⟨enters_privileged ((exec_mfpmr hrow).trans ?_), enters_privileged ((exec_mtpmr hrow).trans ?_)⟩,
      fun hs hp => ⟨enters_hvPrivilege ((exec_mfpmr hrow).trans ?_), enters_hvPrivilege ((exec_mfpmr halias).trans ?_),
        enters_hvPrivilege ((exec_mtpmr hrow).trans ?_)⟩, enters_illegal (exec_mtpmr_alias halias)⟩
    · rw [user hp]; rfl
    · rw [user hp]; rfl
    · rw [super hp, shutOn hs]; rfl
    · rw [super hp, shutOn hs]; rfl
    · rw [super hp, shutOn hs]; rfl
  · obtain ⟨hread, hwrite⟩ := exec_pmr_none (s := s) (pmrRow_none pmrn h0 h1 h) r
    exact ⟨enters_illegal hread, enters_illegal hwrite⟩

/-! ### The machine state register (45 R1111 to R1123) -/

/-- What a return leaves that is no debug event. -/
theorem returnAfter_ignore {s : State} {event : Word} (srr0 srr1 : Word) (h : s.debugAction event s.de = .ignore) :
    s.returnAfter event srr0 srr1 = .next (s.returnTo srr0 srr1) := by
  unfold State.returnAfter
  rw [debugBefore_ignore h]
  rfl

/-- Settles O41: the returns, MSR written and read, MSR[EE]. -/
theorem msrMoves : Obligations.MsrMoves := by
  intro s r e hs gs keep msr returns ee
  have hkeep : s.msrKept = keep := by
    unfold State.msrKept State.pr
    rw [show bit s.msr 49 = false from hs, Bool.not_false, Bool.and_true]
    rfl
  have hwrite (v : Word) : s.writeMsr v = { s with msr := msr v } := by
    unfold State.writeMsr
    rw [hkeep]
    rfl
  have hreturn (srr0 srr1 : Word) : ∃ l, Host.Outcome.next (s.returnTo srr0 srr1) =
      (.next { s with pc := srr0 &&& 0xFFFFFFFC, msr := msr srr1, log := l } : Out) := by
    refine ⟨{ s.log with completed := true }, ?_⟩
    unfold State.returnTo
    rw [hwrite]
    rfl
  have returns_of {i : Instr} {srr0 srr1 : Word} (h : exec i s = .next (s.returnTo srr0 srr1)) :
      returns i srr0 srr1 := (hreturn srr0 srr1).imp fun _ => h.trans
  refine ⟨fun hd => ⟨?_, ?_⟩, fun hgs => ⟨fun hd => ?_, ?_, ?_⟩, ?_, ?_, ?_, ?_⟩
  · refine returns_of ((supervisorOnly_ok hs _).trans ?_)
    cases hg : gs
    · exact (if_neg (ne_true_of_eq_false hg)).trans (returnAfter_ignore _ _ hd)
    · exact (if_pos hg).trans (returnAfter_ignore _ _ hd)
  · exact returns_of ((supervisorOnly_ok hs _).trans (returnAfter_ignore _ _ hd))
  · exact returns_of ((hypervisorOnly_ok ⟨hs, hgs⟩ _).trans (returnAfter_ignore _ _ hd))
  · exact returns_of (hypervisorOnly_ok ⟨hs, hgs⟩ _)
  · exact returns_of (hypervisorOnly_ok ⟨hs, hgs⟩ _)
  · exact supervisorOnly_ok hs _
  · refine (supervisorOnly_ok hs _).trans ?_
    rw [hwrite]
    rfl
  · exact supervisorOnly_ok hs _
  · exact supervisorOnly_ok hs _

/-! ### Messages and the halt (45 R1139 to R1141, R1150) -/

theorem setDbell_get (s : State) (n : Nat) (v : Bool) (k : Fin 5) :
    (s.setDbell n v).hid.dbell[k] = if n = k then v else s.hid.dbell[k] := by
  unfold State.setDbell
  split
  · next h =>
    show (s.hid.dbell.set n v h)[(k : Nat)] = _
    rw [Vector.getElem_set]
    rfl
  · next h =>
    rw [if_neg (fun e : n = k => h (e ▸ k.isLt))]

theorem setDbell_eq (s : State) (n : Nat) (v : Bool) :
    s.setDbell n v = { s with hid := { s.hid with dbell := (s.setDbell n v).hid.dbell } } := by
  unfold State.setDbell
  split <;> rfl

theorem receive_eq (s : State) (m : Word) :
    s.receive m = { s with hid := { s.hid with dbell := (s.receive m).hid.dbell } } := by
  unfold State.receive
  split
  · exact setDbell_eq ..
  · rfl

theorem msgType_eq (m : Word) : msgType m = m.toNat / 2 ^ 27 := by
  have := m.isLt
  unfold msgType
  rw [extract_eq_ofNat, BitVec.toNat_ofNat, Nat.mod_eq_of_lt (by omega)]

theorem acceptsMessage_iff (s : State) (m : Word) : s.acceptsMessage m = true ↔
    m.toNat / 2 ^ 27 < 5 ∧
      (m.toNat / 2 ^ 14 % 256 = 0 ∨ m.toNat / 2 ^ 14 % 256 = s.mmu.lpidr.toNat % 256) ∧
      (m.toNat / 2 ^ 26 % 2 = 1 ∨
        m.toNat % 2 ^ 14 = (if m.toNat / 2 ^ 27 ≤ 1 then s.ctl.pir else s.ctl.gpir).toNat % 2 ^ 14) := by
  have hbit : bit m 37 = true ↔ m.toNat / 2 ^ 26 % 2 = 1 := by
    unfold bit
    rw [← BitVec.testBit_toNat, Nat.testBit_eq_decide_div_mod_eq, decide_eq_true_iff]
  unfold State.acceptsMessage
  simp only [Bool.and_eq_true, Bool.or_eq_true, decide_eq_true_iff, beq_iff_eq, ← BitVec.toNat_inj, msgType_eq,
    extract_eq_ofNat, BitVec.toNat_ofNat, BitVec.toNat_setWidth, hbit, and_assoc]
  exact and_congr_left fun _ => Nat.lt_succ_iff.symm

theorem prsr_dnhm (w : Word) (dui : BitVec 5) :
    ((w &&& 0xFFFFFFE0) ||| 0x10000000 ||| dui.setWidth 32).toNat % 32 = dui.toNat ∧
      bit ((w &&& 0xFFFFFFE0) ||| 0x10000000 ||| dui.setWidth 32) 35 = true := by
  constructor
  · have h : ((w &&& 0xFFFFFFE0) ||| 0x10000000 ||| dui.setWidth 32).setWidth 5 = dui := by
      rw [BitVec.setWidth_or, BitVec.setWidth_or, BitVec.setWidth_and]
      simp
    exact (BitVec.toNat_setWidth ..).symm.trans (congrArg BitVec.toNat h)
  · rw [bit_or, bit_or]
    simp [bit]

/-- Settles O42: the doorbell of a type, set by an accepted message and cleared by msgclr; dnh by EDBCR0[DNH_EN]. -/
theorem messagesAndHalt : Obligations.MessagesAndHalt := by
  intro s rB dui duis m type accepted
  have htype : msgType (s.getGpr rB) = type := msgType_eq _
  refine ⟨fun hh => ⟨⟨_, hypervisorOnly_ok hh _, rfl, ?_, ?_, fun k => ?_⟩,
      ⟨_, hypervisorOnly_ok hh _, ?_, ?_, fun k => ?_⟩⟩,
    fun hd => ⟨_, if_pos hd, rfl, (prsr_dnhm ..).1, (prsr_dnhm ..).2, rfl⟩,
    fun hd => enters_illegal (if_neg (ne_true_of_eq_false hd))⟩
  · rw [receive_eq]
    rfl
  · show { (s.receive (s.getGpr rB)).hid with dbell := s.hid.dbell } = s.hid
    rw [receive_eq]
  · show (s.receive (s.getGpr rB)).hid.dbell[k] = true ↔ _
    have hacc : s.acceptsMessage (s.getGpr rB) = true ↔ accepted := acceptsMessage_iff s _
    unfold State.receive
    by_cases ha : accepted
    · rw [if_pos (hacc.2 ha), setDbell_get, htype]
      by_cases hk : type = k <;> simp [hk, ha]
    · rw [if_neg (fun h => ha (hacc.1 h))]
      simp [ha]
  · rw [setDbell_eq]
    rfl
  · show { (s.setDbell (msgType (s.getGpr rB)) false).hid with dbell := s.hid.dbell } = s.hid
    rw [setDbell_eq]
  · show (s.setDbell (msgType (s.getGpr rB)) false).hid.dbell[k] = true ↔ _
    rw [setDbell_get, htype]
    by_cases hk : type = k <;> simp [hk]

end Sys2Proof.Machine


/-! What an instruction can change of the state that privilege guards (45 section 1; 10 section 9): all but a few
instructions leave MSR, the control, timer, interrupt and memory management registers as they are, or enter an
interrupt; and every one keeps the invariant. Each shared operation has one rule here, on the states that an instruction
passes through. -/

namespace Sys2Proof.Machine

/-! ### FPSCR and its summary bits -/

theorem fpSummary_getLsbD (f : Word) {i : Nat} (h29 : i ≠ 29) (h30 : i ≠ 30) :
    (fpSummary f).getLsbD i = f.getLsbD i := by
  by_cases hi : i < 32
  · simp only [fpSummary, maskIf, BitVec.getLsbD_or, BitVec.getLsbD_and]
    interval_cases i <;> (split <;> split <;> simp_all)
  · rw [BitVec.getLsbD_of_ge _ _ (by omega), BitVec.getLsbD_of_ge _ _ (by omega)]

theorem fpSummary_bit (f : Word) {n : Nat} (h33 : n ≠ 33) (h34 : n ≠ 34) (hn : n ≤ 63) : bit (fpSummary f) n = bit f n :=
  fpSummary_getLsbD f (by omega) (by omega)

/-- The summaries leave every bit of a mask without them. -/
theorem fpSummary_and (f m : Word) (h29 : m.getLsbD 29 = false) (h30 : m.getLsbD 30 = false) :
    fpSummary f &&& m = f &&& m := by
  refine BitVec.eq_of_getLsbD_eq fun i _ => ?_
  rw [BitVec.getLsbD_and, BitVec.getLsbD_and]
  rcases eq_or_ne i 29 with rfl | h29'
  · rw [h29, Bool.and_false, Bool.and_false]
  rcases eq_or_ne i 30 with rfl | h30'
  · rw [h30, Bool.and_false, Bool.and_false]
  rw [fpSummary_getLsbD f h29' h30']

theorem fpSummary_idem (f : Word) : fpSummary (fpSummary f) = fpSummary f := by
  have hv : fpSummary f &&& fpInvalid = f &&& fpInvalid := fpSummary_and f _ rfl rfl
  have hm : fpSummary f &&& 0x9FFFFFFF = f &&& 0x9FFFFFFF := fpSummary_and f _ rfl rfl
  conv_lhs => rw [fpSummary]
  simp only [hv, hm, fpSummary_bit f (n := 35), fpSummary_bit f (n := 36), fpSummary_bit f (n := 37),
    fpSummary_bit f (n := 38), fpSummary_bit f (n := 56), fpSummary_bit f (n := 57), fpSummary_bit f (n := 58),
    fpSummary_bit f (n := 59), fpSummary_bit f (n := 60), ne_eq, not_false_eq_true, Nat.reduceEqDiff,
    Nat.reduceLeDiff]
  rfl

/-- The reserved bit of FPSCR is 0 (10 R28). -/
def reservedClear (f : Word) : Prop := f.getLsbD 11 = false

theorem reservedClear_iff (f : Word) : reservedClear f ↔ f &&& 0x00000800 = 0 := by
  constructor
  · intro h
    refine BitVec.eq_of_getLsbD_eq fun i hi => ?_
    rw [BitVec.getLsbD_and]
    rcases eq_or_ne i 11 with rfl | hne
    · rw [show f.getLsbD 11 = false from h]; simp
    · interval_cases i <;> simp_all
  · intro h
    have := congrArg (·.getLsbD 11) h
    simpa [reservedClear] using this

theorem fpSummary_consistent {f : Word} (h : reservedClear f) : fpscrConsistent (fpSummary f) :=
  ⟨fpSummary_idem f, (reservedClear_iff _).1 ((fpSummary_getLsbD f (by decide) (by decide)).trans h)⟩

theorem fpscrConsistent.reservedClear {f : Word} (h : fpscrConsistent f) : reservedClear f := (reservedClear_iff f).2 h.2

theorem reservedClear_mix {f : Word} (h : reservedClear f) (v m : Word) (hm : m.getLsbD 11 = false) :
    reservedClear (mix f v m) := by
  rw [reservedClear, mix, BitVec.getLsbD_or, BitVec.getLsbD_and, BitVec.getLsbD_and, hm, show f.getLsbD 11 = false from h,
    Bool.false_and, Bool.and_false, Bool.or_false]

/-- Exceptions of the defined bits keep FPSCR consistent. -/
theorem fpRaise_consistent {f exc : Word} (h : reservedClear f) (he : exc.getLsbD 11 = false) :
    fpscrConsistent (fpRaise exc f) := by
  refine fpSummary_consistent ?_
  rw [reservedClear, BitVec.getLsbD_or, BitVec.getLsbD_or, he, show f.getLsbD 11 = false from h, maskIf]
  split <;> rfl

/-! ### The guarded state -/

/-- What privilege guards: without the machine check syndrome, which a lost access writes, and the debug status, which
debug events write. -/
structure Guarded where
  msr        : Word
  ctl        : Control
  int        : IntRegs
  tim        : Timers
  mmu        : Mmu
  sprgs      : Sprgs
  pm         : PerfMon
  dbg        : Debug
  env        : Env
  physMap    : List Region
  dbell      : Vector Bool 5
  interrupts : List IntKind

def State.guarded (s : State) : Guarded :=
  { msr := s.msr, ctl := s.ctl, int := { s.int with mcsr := 0, mcar := 0 }, tim := s.tim, mmu := s.mmu, sprgs := s.sprgs,
    pm := s.pm, dbg := { s.dbg with dbsr := 0, edbsr0 := 0, prsr := 0 }, env := s.env, physMap := s.physMap,
    dbell := s.hid.dbell, interrupts := s.log.interrupts }

/-- What the invariant is about, MSR apart. -/
def State.invPart (s : State) : Memory × Word × Word × Word := (s.mem, s.pc, s.xer, s.fpscr)

theorem State.Inv.congr {s t : State} (h : s.Inv) (hm : t.msr = s.msr) (he : t.invPart = s.invPart) : t.Inv := by
  obtain ⟨hmem, hpc, hmsr, hxer, hf⟩ := h
  simp only [State.invPart, Prod.mk.injEq] at he
  obtain ⟨e1, e2, e3, e4⟩ := he
  exact ⟨e1 ▸ hmem, e2 ▸ hpc, hm ▸ hmsr, e3 ▸ hxer, e4 ▸ hf⟩

/-- From s an instruction has come to t without touching what is guarded, and with the invariant kept. -/
structure Runs (s t : State) : Prop where
  guarded : t.guarded = s.guarded
  inv : s.Inv → t.Inv

/-- From s an instruction has entered an interrupt. -/
structure Entered (s t : State) : Prop where
  more : s.log.interrupts.length < t.log.interrupts.length
  inv : s.Inv → t.Inv

/-- An outcome that leaves what is guarded, or enters an interrupt. -/
def Ends (s : State) : Out → Prop
  | .next t => Runs s t ∨ Entered s t
  | .fault _ | .refused _ => True

/-- The same of a part of an instruction. -/
def Part {α : Type} (s : State) : Res α → Prop
  | .ok _ t => Runs s t
  | .done o => Ends s o

variable {s t u : State}

theorem Runs.refl (s : State) : Runs s s := ⟨rfl, id⟩

/-- An update of what is neither guarded nor in the invariant. -/
theorem Runs.step (h : Runs s t) (hg : u.guarded = t.guarded) (hi : u.invPart = t.invPart) : Runs s u :=
  ⟨hg.trans h.guarded, fun hs => (h.inv hs).congr (congrArg Guarded.msr hg) hi⟩

theorem Part.andThen {α : Type} {r : Res α} {k : α → State → Out} (h : Part s r)
    (hk : ∀ a t, Runs s t → Ends s (k a t)) : Ends s (r.andThen k) := by
  cases r with
  | ok a t => exact hk a t h
  | done o => exact h

theorem Part.bind {α β : Type} {r : Res α} {k : α → State → Res β} (h : Part s r)
    (hk : ∀ a t, Runs s t → Part s (k a t)) : Part s (r.bind k) := by
  cases r with
  | ok a t => exact hk a t h
  | done o => exact h

theorem Ends.ite {c : Prop} [Decidable c] {a b : Out} (ha : Ends s a) (hb : Ends s b) : Ends s (if c then a else b) := by
  split
  · exact ha
  · exact hb

theorem Runs.ite {c : Prop} [Decidable c] (ht : Runs s t) (hu : Runs s u) : Runs s (if c then t else u) := by
  split
  · exact ht
  · exact hu

/-! ### Updates of the registers -/

theorem Runs.xer (h : Runs s t) {v : Word} (hv : t.xer &&& 0x1FFFFF80 = 0 → v &&& 0x1FFFFF80 = 0) :
    Runs s (t.setXer v) where
  guarded := h.guarded
  inv hs := by
    obtain ⟨hmem, hpc, hmsr, hxer, hf⟩ := h.inv hs
    exact ⟨hmem, hpc, hmsr, hv hxer, hf⟩

/-- Bits of XER outside the reserved ones. -/
theorem xer_mix {x : Word} (h : x &&& 0x1FFFFF80 = 0) {v m : Word} (hm : m &&& 0x1FFFFF80 = 0) :
    mix x v m &&& 0x1FFFFF80 = 0 := by
  rw [mix, BitVec.and_or_distrib_right, BitVec.and_assoc, BitVec.and_comm (~~~m), ← BitVec.and_assoc, h, BitVec.and_assoc,
    hm]
  simp

theorem Runs.setGpr (h : Runs s t) (r : BitVec 5) (v : Word) : Runs s (t.setGpr r v) := h.step rfl rfl
theorem Runs.setFpr (h : Runs s t) (r : BitVec 5) (v : DWord) : Runs s (t.setFpr r v) := h.step rfl rfl
theorem Runs.noteLoads (h : Runs s t) (n : Nat) : Runs s (t.noteLoads n) := h.step rfl rfl
theorem Runs.noteStores (h : Runs s t) (n : Nat) : Runs s (t.noteStores n) := h.step rfl rfl
theorem Runs.drawWord (h : Runs s t) : Runs s t.drawWord.2 := h.step rfl rfl
theorem Runs.drawBit (h : Runs s t) : Runs s t.drawBit.2 := h.step rfl rfl

theorem Runs.setCa (h : Runs s t) (c : Bool) : Runs s (t.setCa c) := h.xer fun hx => xer_mix hx (by decide)

theorem Runs.setOv (h : Runs s t) (oe v : Bool) : Runs s (t.setOv oe v) := by
  rw [State.setOv]
  refine .ite (h.xer fun hx => ?_) h
  rw [withOv, BitVec.and_or_distrib_right, xer_mix hx (by decide)]
  cases v <;> decide

theorem Runs.fpscr (h : Runs s t) {v : Word} (hv : fpscrConsistent t.fpscr → fpscrConsistent v) :
    Runs s (t.setFpscr v) where
  guarded := h.guarded
  inv hs := by
    obtain ⟨hmem, hpc, hmsr, hxer, hf⟩ := h.inv hs
    exact ⟨hmem, hpc, hmsr, hxer, hv hf⟩

theorem Runs.record (h : Runs s t) (rc : Bool) (res : Word) : Runs s (t.record rc res) := by
  rw [State.record]
  exact .ite (h.step rfl rfl) h

theorem Runs.writeBytes (h : Runs s t) (l : List (BitVec 36 × Byte)) : Runs s (t.writeBytes l) where
  guarded := h.guarded
  inv hs := by
    obtain ⟨hmem, hpc, hmsr, hxer, hf⟩ := h.inv hs
    exact ⟨Memory.writeList_wf l hmem, hpc, hmsr, hxer, hf⟩

theorem Runs.goto (h : Runs s t) {a : Word} (ha : t.pc &&& 3 = 0 → a &&& 3 = 0) : Runs s (t.goto a) where
  guarded := h.guarded
  inv hs := by
    obtain ⟨hmem, hpc, hmsr, hxer, hf⟩ := h.inv hs
    exact ⟨hmem, ha hpc, hmsr, hxer, hf⟩

/-- Sums of word addresses are word addresses. -/
theorem aligned_add {a b : Word} (ha : a &&& 3 = 0) (hb : b &&& 3 = 0) : (a + b) &&& 3 = 0 := by
  have key : ∀ x : Word, x &&& 3 = 0 ↔ x.toNat % 4 = 0 := fun x => by
    rw [← BitVec.toNat_inj, BitVec.toNat_and]
    exact Nat.and_two_pow_sub_one_eq_mod x.toNat 2 ▸ Iff.rfl
  rw [key] at *
  rw [BitVec.toNat_add]
  omega

theorem aligned_mask (a : Word) : a &&& 0xFFFFFFFC &&& 3 = 0 := by
  rw [BitVec.and_assoc, show (0xFFFFFFFC : Word) &&& 3 = 0 from rfl]
  simp

theorem Runs.advance (h : Runs s t) : Runs s t.advance := h.goto fun hp => aligned_add hp rfl

theorem Runs.finish (h : Runs s t) : Ends s t.finish := .inl h.advance

end Sys2Proof.Machine


/-! The shared operations of instructions, each of which leaves what privilege guards or enters an interrupt. -/

namespace Sys2Proof.Machine

variable {s t u : State}

/-! ### Interrupts and debug events -/

theorem aligned_vectorOf (p o : Word) : vectorOf p o &&& 3 = 0 := by
  rw [vectorOf, BitVec.and_or_distrib_right, BitVec.and_assoc, BitVec.and_assoc,
    show (0xFFFF0000 : Word) &&& 3 = 0 from rfl, show (0x0000FFF0 : Word) &&& 3 = 0 from rfl]
  simp

theorem State.Inv.takeInterrupt (h : t.Inv) (i : Interrupt) : (t.takeInterrupt i).Inv := by
  obtain ⟨hmem, hpc, hmsr, hxer, hf⟩ := h
  refine ⟨hmem, ?_, ?_, hxer, hf⟩
  · change t.int.vector i.kind i.guest &&& 3 = 0
    rw [IntRegs.vector]
    split <;> exact aligned_vectorOf _ _
  · change t.msr &&& keepMask i.kind i.guest t.ctl.msrp &&& ~~~msrDefined = 0
    rw [BitVec.and_assoc, BitVec.and_comm (keepMask _ _ _), ← BitVec.and_assoc, hmsr]
    simp

/-- Entering an interrupt from a state whose record of interrupts is that of s. -/
theorem Entered.of (hl : t.log.interrupts = s.log.interrupts) (hi : s.Inv → t.Inv) (i : Interrupt) :
    Entered s (t.takeInterrupt i) where
  more := by
    change s.log.interrupts.length < (i.kind :: t.log.interrupts).length
    rw [hl, List.length_cons]
    exact Nat.lt_succ_self _
  inv hs := (hi hs).takeInterrupt i

theorem Runs.interrupts (h : Runs s t) : t.log.interrupts = s.log.interrupts := congrArg Guarded.interrupts h.guarded

theorem Runs.takeInterrupt (h : Runs s t) (i : Interrupt) : Ends s (.next (t.takeInterrupt i)) :=
  .inr (.of h.interrupts h.inv i)

theorem Runs.program (h : Runs s t) (esr : Word) : Ends s (t.program esr) := h.takeInterrupt _
theorem Runs.illegal (h : Runs s t) : Ends s t.illegal := h.program _
theorem Runs.privileged (h : Runs s t) : Ends s t.privileged := h.program _
theorem Runs.hvPrivilege (h : Runs s t) : Ends s t.hvPrivilege := h.takeInterrupt _

theorem Runs.supervisorOnly (h : Runs s t) {o : Out} (ho : Ends s o) : Ends s (t.supervisorOnly o) :=
  .ite h.privileged ho

theorem Runs.hypervisorOnly (h : Runs s t) {o : Out} (ho : Ends s o) : Ends s (t.hypervisorOnly o) :=
  .ite h.privileged (.ite h.hvPrivilege ho)

theorem Runs.needFp (h : Runs s t) {o : Out} (ho : Ends s o) : Ends s (t.needFp o) := .ite ho (h.takeInterrupt _)

theorem Runs.logMachineCheck (h : Runs s t) (bits : Word) (a : Option DWord) (ea : Bool) :
    Runs s (t.logMachineCheck bits a ea) := by
  unfold State.logMachineCheck
  split
  · exact h.step rfl rfl
  · exact .ite (h.step rfl rfl) (h.step rfl rfl)

theorem Runs.errorReport (h : Runs s t) (bits : Word) : Ends s (t.errorReport bits) :=
  (h.logMachineCheck bits none false).takeInterrupt _

theorem Runs.takeDebug (h : Runs s t) (bits a : Word) (async : Bool) : Ends s (.next (t.takeDebug bits a async)) :=
  Runs.takeInterrupt (t := t.setDbsr (t.dbg.dbsr ||| bits)) (h.step rfl rfl) _

theorem Runs.haltForDebug (h : Runs s t) (bits : Word) : Runs s (t.haltForDebug bits t.pc) := h.step rfl rfl

theorem Runs.debugBefore (h : Runs s t) (bits : Word) (de : Bool) : Part s (t.debugBefore bits de) := by
  rw [State.debugBefore]
  split
  · exact h
  · exact h.step rfl rfl
  · exact h.takeDebug _ _ _
  · exact .inl (h.haltForDebug _)
  · exact h.step rfl rfl

/-! ### Branches and calls -/

theorem Runs.branch (h : Runs s t) {target : Word} (ht : s.pc &&& 3 = 0 → target &&& 3 = 0)
    (taken lk : Bool) (ctr : Word) : Ends s (t.branch taken target ctr lk) := by
  rw [State.branch]
  refine .ite ((h.debugBefore _ _).andThen fun _ u hu => .inl ⟨?_, fun hI => ?_⟩) (Runs.finish ?_)
  · rw [← hu.guarded, State.link]
    split <;> rfl
  · obtain ⟨hmem, -, hmsr, hxer, hf⟩ := hu.inv hI
    rw [State.link]
    split <;> exact ⟨hmem, ht hI.aligned, hmsr, hxer, hf⟩
  · have hl : Runs s (t.link lk) := .ite (h.step rfl rfl) h
    exact hl.step rfl rfl

theorem Runs.trapIf (h : Runs s t) (holds : Bool) : Ends s (t.trapIf holds) :=
  .ite ((h.debugBefore _ _).andThen fun _ u hu =>
    Runs.program (t := u.setLog { u.log with trapTaken := true }) (hu.step rfl rfl) _) h.finish

theorem Runs.systemCall (h : Runs s t) (k : IntKind) (guest : Bool) : Ends s (t.systemCall k guest) :=
  Runs.takeInterrupt (t := t.setLog { t.log with completed := true }) (h.step rfl rfl) _

/-! ### Data accesses -/

theorem Runs.noteDac (h : Runs s t) (write : Bool) (a : Word) : Runs s (t.noteDac write a) := h.step rfl rfl

theorem Runs.noteParts (h : Runs s t) (write : Bool) (ea : Word) (n : Nat) : Runs s (t.noteParts write ea n) := by
  rw [State.noteParts]
  exact .ite ((h.noteDac _ _).noteDac _ _) (h.noteDac _ _)

theorem Runs.dataStorage (h : Runs s t) (esr ea : Word) (vf : Bool) : Ends s (.next (t.dataStorage esr ea vf)) :=
  h.takeInterrupt _

theorem State.Inv.loadMasOnMiss (h : t.Inv) (guest : Bool) (c : Ctx) (ea : Word) : (t.loadMasOnMiss guest c ea).Inv := by
  rw [State.loadMasOnMiss]
  split
  · exact h
  · exact h.congr rfl rfl

theorem State.loadMasOnMiss_interrupts (guest : Bool) (c : Ctx) (ea : Word) (s : State) :
    (s.loadMasOnMiss guest c ea).log.interrupts = s.log.interrupts := by
  rw [State.loadMasOnMiss]
  split <;> rfl

theorem Runs.dataTlbError (h : Runs s t) (a : Access) (ea : Word) : Ends s (.next (t.dataTlbError a ea)) :=
  .inr (.of ((State.loadMasOnMiss_interrupts _ _ _ t).trans h.interrupts) (fun hs => (h.inv hs).loadMasOnMiss _ _ _) _)

theorem Runs.multipleHit (h : Runs s t) (report ea : Word) : Ends s (t.multipleHit report ea) :=
  .ite ((h.logMachineCheck _ _ _).errorReport _) trivial

theorem Runs.accessFails (h : Runs s t) (a : Access) (f : AccessFail) (ea : Word) : Ends s (t.accessFails a f ea) := by
  unfold State.accessFails
  split
  · exact h.dataTlbError _ _
  · exact h.multipleHit _ _
  · exact h.dataStorage _ _ _
  · exact h.dataStorage _ _ _
  · exact h.dataStorage _ _ _
  · exact h.dataStorage _ _ _
  · exact h.takeInterrupt _

theorem Runs.answered (h : Runs s t) (a : Access) (p : Placed) : Part s (t.answered a p) := by
  rw [State.answered]
  split
  · exact h.errorReport _
  · exact h

theorem Runs.reach (h : Runs s t) (a : Access) (ea : Word) (n : Nat) : Part s (t.reach a ea n) := by
  rw [State.reach]
  split
  · exact (h.noteParts _ _ _).accessFails _ _ _
  · exact (h.noteParts _ _ _).answered _ _

theorem Runs.access (h : Runs s t) (a : Access) (ea : Word) (n : Nat) : Part s (t.access a ea n) :=
  (h.reach a ea n).bind fun _ _ hu => (hu.debugBefore _ _).bind fun _ _ hw => hw

theorem Runs.accessWord (h : Runs s t) (a : Access) (first : Bool) (ea : Word) : Part s (t.accessWord a first ea) := by
  refine (h.reach _ ea 4).bind fun p u hu => ?_
  dsimp only
  split
  · exact hu.takeDebug _ _ _
  · exact .inl (hu.haltForDebug _)
  · exact hu
  · exact hu
  · exact hu

theorem Runs.noteDevices (h : Runs s t) (l : List DeviceAccess) : Runs s (t.noteDevices l) := by
  rw [State.noteDevices]
  induction l.filter (·.addrs ≠ []) generalizing t with
  | nil => exact h
  | cons d l ih => exact ih (h.step rfl rfl)

theorem Runs.readDevice (h : Runs s t) (reads : List (List (BitVec 36) × Option (BitVec 4))) (p : Placed) :
    Runs s (t.readDevice reads p).2 := (h.step (u := t.drawDWord.2) rfl rfl).noteDevices _

theorem Runs.loadPlaced (h : Runs s t) (dec : Option (BitVec 4)) (p : Placed) : Runs s (t.loadPlaced dec p).2 := by
  rw [State.loadPlaced]
  split
  · exact h
  · exact h.readDevice _ _

theorem Runs.storeLost (h : Runs s t) : Runs s t.storeLost := h.logMachineCheck _ _ _

theorem Runs.writeDevice (h : Runs s t) (dec : Option (BitVec 4)) (p : Placed) (v : Nat) :
    Runs s (t.writeDevice dec p v) :=
  .ite ((h.writeBytes _).noteDevices _) ((h.writeBytes _).noteDevices _).storeLost

theorem Runs.storePlaced (h : Runs s t) (dec : Option (BitVec 4)) (p : Placed) (v : Nat) :
    Runs s (t.storePlaced dec p v) := .ite (h.writeBytes _) (h.writeDevice _ _ _)

theorem Runs.load (h : Runs s t) (a : Access) (ea : Word) (n : Nat) {k : Nat → State → Out}
    (hk : ∀ v u, Runs s u → Ends s (k v u)) : Ends s (t.load a ea n k) :=
  (h.access a ea n).andThen fun p _ hu => hk _ _ ((hu.loadPlaced none p).step rfl rfl)

theorem Runs.store (h : Runs s t) (a : Access) (ea : Word) (n v : Nat) {k : State → Out}
    (hk : ∀ u, Runs s u → Ends s (k u)) : Ends s (t.store a ea n v k) :=
  (h.access a ea n).andThen fun p _ hu => hk _ ((hu.storePlaced none p v).step rfl rfl)

/-! ### Loads and stores -/

theorem Runs.loadGpr (h : Runs s t) (a : Access) (ea : Word) (n : Nat) (rD : BitVec 5) (f : Nat → Word) :
    Ends s (t.loadGpr a ea n rD f) := h.load a ea n fun _ u hu => (hu.step (u := u.setGpr _ _) rfl rfl).finish

theorem Runs.loadGprUpdate (h : Runs s t) (ea : Word) (n : Nat) (rD rA : BitVec 5) (f : Nat → Word) :
    Ends s (t.loadGprUpdate ea n rD rA f) :=
  h.load _ ea n fun _ _ hu => .ite (Runs.finish (hu.step rfl rfl)) (Runs.finish (hu.step rfl rfl))

theorem Runs.storeValue (h : Runs s t) (a : Access) (ea : Word) (n v : Nat) : Ends s (t.storeValue a ea n v) :=
  h.store a ea n v fun _ hu => hu.finish

theorem Runs.storeUpdate (h : Runs s t) (a : Access) (ea : Word) (n v : Nat) (rA : BitVec 5) :
    Ends s (t.storeUpdate a ea n v rA) :=
  h.store a ea n v fun _ hu => .ite (Runs.finish (hu.step rfl rfl)) (Runs.finish (hu.step rfl rfl))

theorem Runs.loadFpr (h : Runs s t) (a : Access) (ea : Word) (n : Nat) (frD : BitVec 5) (f : Nat → DWord) :
    Ends s (t.loadFpr a ea n frD f) :=
  h.needFp (h.load a ea n fun _ u hu => (hu.step (u := u.setFpr _ _) rfl rfl).finish)

theorem Runs.loadFprUpdate (h : Runs s t) (ea : Word) (n : Nat) (frD rA : BitVec 5) (f : Nat → DWord) :
    Ends s (t.loadFprUpdate ea n frD rA f) :=
  h.needFp (h.load _ ea n fun _ _ hu => .ite (Runs.finish (hu.step rfl rfl)) (Runs.finish (hu.step rfl rfl)))

theorem Runs.singleWord (h : Runs s t) (frS : BitVec 5) : Runs s (t.singleWord frS).2 := by
  rw [State.singleWord]
  split
  · exact h
  · exact h.step rfl rfl

theorem Runs.storeFp (h : Runs s t) (a : Access) (ea : Word) (n v : Nat) : Ends s (t.storeFp a ea n v) :=
  h.needFp (h.storeValue a ea n v)

theorem Runs.storeFpUpdate (h : Runs s t) (ea : Word) (n v : Nat) (rA : BitVec 5) :
    Ends s (t.storeFpUpdate ea n v rA) := h.needFp (h.storeUpdate _ ea n v rA)

theorem Runs.loadWords (rA : BitVec 5) (rs : List (BitVec 5)) (first : Bool) (base off events : Word) (h : Runs s t) :
    Ends s (t.loadWords rA rs first base off events) := by
  induction rs generalizing first base off events t with
  | nil => exact (h.debugBefore _ _).andThen fun _ _ hu => hu.finish
  | cons r rest ih =>
    refine (h.accessWord _ first _).andThen fun x u hu => ih _ _ _ _ ?_
    exact (hu.loadPlaced none x.1).step rfl rfl

theorem Runs.storeWords (rs : List (BitVec 5)) (first : Bool) (ea events : Word) (h : Runs s t) :
    Ends s (t.storeWords rs first ea events) := by
  induction rs generalizing first ea events t with
  | nil => exact (h.debugBefore _ _).andThen fun _ _ hu => hu.finish
  | cons r rest ih =>
    refine (h.accessWord _ first _).andThen fun x u hu => ih _ _ _ ?_
    exact (hu.storePlaced none x.1 _).step rfl rfl

theorem Runs.noteDecorated (h : Runs s t) (write inhibited : Bool) : Runs s (t.noteDecorated write inhibited) :=
  h.step rfl rfl

theorem Runs.loadDecorated (h : Runs s t) (a : Access) (rA rB : BitVec 5) (n : Nat) {k : Nat → State → State}
    (hk : ∀ v u, Runs s u → Runs s (k v u)) : Ends s (t.loadDecorated a rA rB n k) :=
  (h.access _ _ n).andThen fun p _ hu =>
    (hk _ _ (((hu.loadPlaced (some _) p).noteLoads _).noteDecorated _ _)).finish

theorem Runs.storeDecorated (h : Runs s t) (a : Access) (rA rB : BitVec 5) (n v : Nat) :
    Ends s (t.storeDecorated a rA rB n v) :=
  (h.access _ _ n).andThen fun p _ hu => (((hu.storePlaced (some _) p v).noteStores _).noteDecorated _ _).finish

theorem Runs.notifyPlaced (h : Runs s t) (dec : BitVec 4) (p : Placed) : Runs s (t.notifyPlaced dec p) := by
  rw [State.notifyPlaced]
  split
  · exact h
  · exact h.step rfl rfl
  · exact h.storeLost

theorem Runs.concludeStwcx (h : Runs s t) (ok : Bool) : Ends s (t.concludeStwcx ok) := Runs.finish (h.step rfl rfl)

/-! ### Cache blocks -/

theorem Runs.located (h : Runs s t) (a : Access) (ea : Word) {k : Placed → Out} (hk : ∀ p, Ends s (k p)) :
    Ends s (t.located a ea k) := by
  rw [State.located]
  split
  · exact (h.noteDac _ _).accessFails _ _ _
  · exact hk _

theorem Runs.blockEvents (h : Runs s t) (write : Bool) (ea : Word) {k : State → Out} (hk : ∀ u, Runs s u → Ends s (k u)) :
    Ends s (t.blockEvents write ea k) := ((h.noteDac _ _).debugBefore _ _).andThen fun _ u hu => hk u hu

theorem Runs.withCache (h : Runs s t) (f : Cache → Cache) : Runs s (t.withCache f) := h.step rfl rfl

theorem Runs.noteCt (h : Runs s t) (l2 : Bool) (b : BitVec 30) : Runs s (t.noteCt l2 b) :=
  .ite (h.step rfl rfl) (h.step rfl rfl)

theorem Runs.lockL2 (h : Runs s t) (b : BitVec 30) : Runs s (t.lockL2 b) := by
  rw [State.lockL2]
  exact .ite (.ite (h.step rfl rfl) (h.step rfl rfl)) (h.step rfl rfl)

theorem Runs.setLock (h : Runs s t) (data : Bool) (ct : BitVec 4) (p : Placed) : Runs s (t.setLock data ct p) :=
  .ite ((h.lockL2 _).noteCt _ _) (.ite ((h.withCache _).noteCt _ _) (h.withCache _))

theorem Runs.clearLock (h : Runs s t) (data : Bool) (ct : BitVec 4) (b : BitVec 30) : Runs s (t.clearLock data ct b) :=
  .ite h (.ite ((h.withCache _).noteCt _ _) (.ite ((h.withCache _).noteCt _ _) (h.withCache _)))

theorem Runs.lockAllowed (h : Runs s t) (data dacWrite : Bool) (ea : Word) {o : Out} (ho : Ends s o) :
    Ends s (t.lockAllowed data dacWrite ea o) :=
  .ite (.ite ho ((h.noteDac _ _).dataStorage _ _ _)) (.ite h.hvPrivilege ho)

theorem Runs.lockAccess (h : Runs s t) (data dacWrite : Bool) (ct : BitVec 4) (ea : Word) {k : Placed → State → Out}
    (hk : ∀ p u, Runs s u → Ends s (k p u)) : Ends s (t.lockAccess data dacWrite ct ea k) :=
  h.lockAllowed _ _ _ (h.located _ _ fun p => h.blockEvents _ _ fun _ hu =>
    .ite (hk p _ (hu.step rfl rfl)) (Runs.finish (hu.step rfl rfl)))

theorem Runs.lockSet (h : Runs s t) (data dacWrite : Bool) (ct : BitVec 4) (ea : Word) :
    Ends s (t.lockSet data dacWrite ct ea) :=
  h.lockAccess _ _ _ _ fun _ _ hu => .ite (hu.withCache _).finish (hu.setLock _ _ _).finish

theorem Runs.lockClear (h : Runs s t) (data dacWrite : Bool) (ct : BitVec 4) (ea : Word) :
    Ends s (t.lockClear data dacWrite ct ea) := h.lockAccess _ _ _ _ fun _ _ hu => (hu.clearLock _ _ _).finish

theorem Runs.flushBlock (h : Runs s t) (ctx : PidContext) (ea : Word) : Ends s (t.flushBlock ctx ea) :=
  h.located _ _ fun _ => h.blockEvents _ _ fun _ hu => Runs.finish (hu.step rfl rfl)

theorem Runs.invalidateInstr (h : Runs s t) (ctx : PidContext) (ea : Word) : Ends s (t.invalidateInstr ctx ea) :=
  h.located _ _ fun _ => h.blockEvents _ _ fun _ hu => Runs.finish (hu.step rfl rfl)

theorem Runs.zeroBlock (h : Runs s t) (ea : Word) (n : Nat) (p : Placed) : Ends s (t.zeroBlock ea n p) :=
  h.blockEvents _ _ fun _ hu => Runs.finish ((hu.storePlaced none _ 0).step rfl rfl)

theorem Runs.zero (h : Runs s t) (a : Access) (ea : Word) (n : Nat) : Ends s (t.zero a ea n) :=
  h.located _ _ fun _ => .ite ((h.noteDac _ _).takeInterrupt _) (h.zeroBlock _ _ _)

theorem Runs.noteMultipleHit (h : Runs s t) (ea : Word) : Runs s (t.noteMultipleHit ea) := .ite (h.logMachineCheck _ _ _) h

theorem Runs.locatedOrNop (hn : Runs s u) (a : Access) (ea : Word) {k : Placed → Out} (hk : ∀ p, Ends s (k p)) :
    Ends s (t.locatedOrNop a ea u k) := by
  rw [State.locatedOrNop]
  split
  · exact (hn.noteMultipleHit _).finish
  · exact hn.finish
  · exact hk _

theorem Runs.allocate (h : Runs s t) (ea : Word) (n : Nat) : Ends s (t.allocate ea n) :=
  (h.noteStores 1).locatedOrNop _ _ fun _ => .ite (h.noteStores 1).finish (h.zeroBlock _ _ _)

theorem Runs.noteTouch (h : Runs s t) (ct : BitVec 4) (b : BitVec 30) : Runs s (t.noteTouch ct b) :=
  .ite (h.step rfl rfl) (.ite (h.step rfl rfl) (h.noteCt _ _))

theorem Runs.touch (h : Runs s t) (ctx : PidContext) (data : Bool) (ct : BitVec 4) (ea : Word) :
    Ends s (t.touch ctx data ct ea) :=
  .ite h.finish (h.locatedOrNop _ _ fun _ => .ite h.finish (h.blockEvents _ _ fun _ hu => (hu.noteTouch _ _).finish))

/-! ### Arithmetic -/

theorem Runs.arith (h : Runs s t) (rD : BitVec 5) (res : Word) (ov oe rc : Bool) : Ends s (t.arith rD res ov oe rc) :=
  (((h.setGpr rD res).setOv oe ov).record rc res).finish

theorem Runs.sumCa (h : Runs s t) (rD : BitVec 5) (x : Sum) (oe rc : Bool) : Ends s (t.sumCa rD x oe rc) :=
  (h.setCa x.ca).arith rD x.res x.ov oe rc

theorem Runs.undefinedQuotient (h : Runs s t) (rD : BitVec 5) (oe rc : Bool) : Ends s (t.undefinedQuotient rD oe rc) := by
  have hq : Runs s ((t.drawWord.2.setGpr rD t.drawWord.1).setOv oe true)  :=
    (h.drawWord.setGpr _ _).setOv oe true
  exact .ite (Runs.finish (hq.step rfl rfl)) hq.finish

theorem Runs.logical (h : Runs s t) (rA : BitVec 5) (res : Word) (rc : Bool) : Ends s (t.logical rA res rc) :=
  ((h.setGpr rA res).record rc res).finish

theorem Runs.shiftAlgebraic (h : Runs s t) (rA : BitVec 5) (v : Word) (n : Nat) (rc : Bool) :
    Ends s (t.shiftAlgebraic rA v n rc) := (h.setCa _).logical rA _ rc

/-! ### Floating-point -/

theorem Runs.recordFp (h : Runs s t) (rc : Bool) : Runs s (t.recordFp rc) := .ite (h.step rfl rfl) h

theorem Runs.finishFp (h : Runs s t) (rc : Bool) : Ends s (t.finishFp rc) :=
  .ite ((h.recordFp rc).program _) (h.recordFp rc).finish

theorem Runs.fpMove (h : Runs s t) (frD : BitVec 5) (d : DWord) (rc : Bool) : Ends s (t.fpMove frD d rc) :=
  h.needFp ((h.setFpr frD d).recordFp rc).finish

end Sys2Proof.Machine


/-! The exception bits that floating-point operations raise (42 R903): only the exception bits of FPSCR, whatever the
operands. -/

namespace Sys2Proof.Machine

/-! ### Exception bits -/

/-- No bit but exception bits of FPSCR. -/
abbrev OnlyExceptions (w : Word) : Prop := w &&& ~~~fpExceptions = 0

theorem OnlyExceptions.or {v w : Word} (hv : OnlyExceptions v) (hw : OnlyExceptions w) : OnlyExceptions (v ||| w) := by
  rw [OnlyExceptions, BitVec.and_or_distrib_right, show v &&& ~~~fpExceptions = 0 from hv,
    show w &&& ~~~fpExceptions = 0 from hw]
  rfl

theorem OnlyExceptions.and {v : Word} (hv : OnlyExceptions v) (w : Word) : OnlyExceptions (v &&& w) := by
  rw [OnlyExceptions, BitVec.and_comm v, BitVec.and_assoc, show v &&& ~~~fpExceptions = 0 from hv]
  simp

theorem onlyExceptions_zero : OnlyExceptions 0 := by decide

theorem OnlyExceptions.maskIf {v : Word} (hv : OnlyExceptions v) (c : Bool) : OnlyExceptions (maskIf c v) := by
  cases c
  · exact onlyExceptions_zero
  · exact hv

theorem OnlyExceptions.ite {v w : Word} {c : Prop} [Decidable c] (hv : OnlyExceptions v) (hw : OnlyExceptions w) :
    OnlyExceptions (if c then v else w) := by
  split
  · exact hv
  · exact hw

/-- An exception word has no other bit. -/
theorem OnlyExceptions.getLsbD {w : Word} (h : OnlyExceptions w) {i : Nat} (hi : fpExceptions.getLsbD i = false) :
    w.getLsbD i = false := by
  by_cases h32 : i < 32
  · have hb : (w &&& ~~~fpExceptions).getLsbD i = false := by rw [h]; exact BitVec.getLsbD_zero
    rwa [BitVec.getLsbD_and, BitVec.getLsbD_not, hi, decide_eq_true h32, Bool.not_false, Bool.and_true, Bool.and_true] at hb
  · exact BitVec.getLsbD_of_ge _ _ (by omega)

/-! ### Exact results -/

/-- An invalid operation names exception bits alone. -/
def FpExact.Sound (x : FpExact) : Prop := ∀ b, x = .invalid b → OnlyExceptions b

theorem FpExact.sound_invalid {b : Word} (h : OnlyExceptions b) : (FpExact.invalid b).Sound := by
  intro c hc
  cases hc
  exact h

theorem FpExact.Sound.ite {c : Prop} [Decidable c] {x y : FpExact} (hx : x.Sound) (hy : y.Sound) :
    (if c then x else y).Sound := by
  split
  · exact hx
  · exact hy

theorem FpExact.sound_of_isNan : FpExact.nan.Sound := nofun
theorem FpExact.sound_zeroDivide (t : Bool) : (FpExact.zeroDivide t).Sound := nofun
theorem FpExact.sound_inf (t : Bool) : (FpExact.inf t).Sound := nofun
theorem FpExact.sound_zero (t : Bool) : (FpExact.zero t).Sound := nofun
theorem FpExact.sound_finite (t : Bool) (m : Nat) (e : Int) : (FpExact.finite t m e).Sound := nofun

theorem exactOf_sound (t : Bool) (m : Nat) (e : Int) : (exactOf t m e).Sound :=
  .ite (FpExact.sound_zero t) (FpExact.sound_finite t m e)

theorem fpAdd_sound (rn : BitVec 2) (x y : FpVal) : (fpAdd rn x y).Sound := by
  unfold fpAdd
  split
  · exact FpExact.sound_of_isNan
  · exact FpExact.sound_of_isNan
  · exact .ite (FpExact.sound_inf _) (FpExact.sound_invalid (by decide))
  · exact FpExact.sound_inf _
  · exact FpExact.sound_inf _
  · exact .ite (FpExact.sound_zero _) (FpExact.sound_finite _ _ _)

theorem fpMul_sound (x y : FpVal) : (fpMul x y).Sound := by
  unfold fpMul
  split
  · exact FpExact.sound_of_isNan
  · exact FpExact.sound_of_isNan
  · exact FpExact.sound_inf _
  · exact .ite (FpExact.sound_invalid (by decide)) (FpExact.sound_inf _)
  · exact .ite (FpExact.sound_invalid (by decide)) (FpExact.sound_inf _)
  · exact exactOf_sound _ _ _

theorem fpDiv_sound (x y : FpVal) : (fpDiv x y).Sound := by
  unfold fpDiv
  split
  · exact FpExact.sound_of_isNan
  · exact FpExact.sound_of_isNan
  · exact FpExact.sound_invalid (by decide)
  · exact FpExact.sound_inf _
  · exact FpExact.sound_zero _
  · exact .ite (.ite (FpExact.sound_invalid (by decide)) (FpExact.sound_zeroDivide _)) (exactOf_sound _ _ _)

theorem fpMulAdd_sound (rn : BitVec 2) (x y z : FpVal) : (fpMulAdd rn x y z).Sound := by
  unfold fpMulAdd
  split
  · next b hb => exact FpExact.sound_invalid (fpMul_sound x y b hb)
  · exact fpAdd_sound _ _ _

theorem fresEstimate_sound (d : DWord) : (fresEstimate d).Sound := by
  unfold fresEstimate
  dsimp only
  split
  · split
    · exact .ite (FpExact.sound_finite _ _ _) (FpExact.sound_finite _ _ _)
    · exact FpExact.sound_finite _ _ _
  · exact FpExact.sound_of_isNan

theorem frsqrteEstimate_sound (d : DWord) : (frsqrteEstimate d).Sound := by
  unfold frsqrteEstimate
  dsimp only
  split
  · split
    · exact .ite (FpExact.sound_finite _ _ _) (FpExact.sound_finite _ _ _)
    · exact FpExact.sound_finite _ _ _
  · exact FpExact.sound_of_isNan

/-! ### Delivered results -/

theorem deliver_exc (fmt : FpFormat) (f : Word) (sign : Bool) (m : Nat) (e : Int) :
    OnlyExceptions (deliver fmt f sign m e).exc := by
  have hx : OnlyExceptions fpXX := by decide
  have ho : OnlyExceptions fpOX := by decide
  have hu : OnlyExceptions fpUX := by decide
  have hi : ∀ b : Bool, OnlyExceptions (if b then fpXX else 0) := fun b => .ite hx onlyExceptions_zero
  unfold deliver
  dsimp only
  split
  · split
    · exact ho.or (hi _)
    · exact ho.or hx
  · split
    · split
      · exact hu.or (hi _)
      · exact .ite (hu.or hx) onlyExceptions_zero
    · exact hi _

theorem ite_exc (c : Prop) [Decidable c] {r q : FpResult} (hr : OnlyExceptions r.exc) (hq : OnlyExceptions q.exc) :
    OnlyExceptions (if c then r else q).exc := by
  split
  · exact hr
  · exact hq

theorem conclude_exc {x : FpExact} (h : x.Sound) (fmt : FpFormat) (f : Word) (l : List DWord) :
    OnlyExceptions (conclude fmt f l x).exc := by
  have hs : OnlyExceptions (maskIf (l.any isSnan) fpVXSNAN) := .maskIf (by decide) _
  cases x with
  | invalid b => exact ite_exc _ (hs.or (h b rfl)) onlyExceptions_zero
  | nan => exact ite_exc _ (hs.or onlyExceptions_zero) onlyExceptions_zero
  | zeroDivide t => exact ite_exc _ (hs.or onlyExceptions_zero) (show OnlyExceptions fpZX by decide)
  | inf t => exact ite_exc _ (hs.or onlyExceptions_zero) onlyExceptions_zero
  | zero t => exact ite_exc _ (hs.or onlyExceptions_zero) onlyExceptions_zero
  | finite t m e => exact ite_exc _ (hs.or onlyExceptions_zero) (deliver_exc fmt f t m e)

theorem FpResult.negate_exc (r : FpResult) : r.negate.exc = r.exc := by
  unfold FpResult.negate
  split <;> rfl

theorem toIntWord_exc (rn : BitVec 2) (d : DWord) : OnlyExceptions (toIntWord rn d).exc := by
  have hc : OnlyExceptions fpVXCVI := by decide
  unfold toIntWord
  split
  · exact hc.or (OnlyExceptions.maskIf (by decide) _)
  · exact hc
  · next s m e _ =>
    dsimp only
    by_cases h1 : 2 ^ 31 - 1 < (if s then -((roundAt rn s m e 0).q : Int) else (roundAt rn s m e 0).q)
    · rw [if_pos h1]
      exact hc
    · rw [if_neg h1]
      by_cases h2 : (if s then -((roundAt rn s m e 0).q : Int) else (roundAt rn s m e 0).q) < -2 ^ 31
      · rw [if_pos h2]
        exact hc
      · rw [if_neg h2]
        exact .ite (by decide) onlyExceptions_zero

end Sys2Proof.Machine


/-! Which instructions write what privilege guards, and what the others do. -/

namespace Sys2Proof.Machine

variable {s t u : State}

/-! ### Floating-point -/

/-- VX and FEX of a summarised FPSCR. -/
theorem fpSummary_vx (f : Word) : (fpSummary f).getLsbD 29 = (f &&& fpInvalid != 0) := by
  simp only [fpSummary, maskIf, BitVec.getLsbD_or, BitVec.getLsbD_and]
  split <;> split <;> simp_all

theorem fpSummary_fex (f : Word) : (fpSummary f).getLsbD 30 =
    (((f &&& fpInvalid != 0) && bit f 56) || (bit f 35 && bit f 57) || (bit f 36 && bit f 58) ||
      (bit f 37 && bit f 59) || (bit f 38 && bit f 60)) := by
  simp only [fpSummary, maskIf, BitVec.getLsbD_or, BitVec.getLsbD_and]
  split <;> split <;> simp_all

/-- A field that no summary reads may be replaced. -/
theorem fpscrConsistent.mix {f : Word} (h : fpscrConsistent f) (v : Word) {m : Word} (hm : m &&& 0xFFF80FFF = 0) :
    fpscrConsistent (mix f v m) := by
  have hbit : ∀ i, (0xFFF80FFF : Word).getLsbD i = true → (Machine.mix f v m).getLsbD i = f.getLsbD i := fun i hi => by
    have hmi : m.getLsbD i = false := by
      have hb : (m &&& 0xFFF80FFF).getLsbD i = false := by rw [hm]; exact BitVec.getLsbD_zero
      rwa [BitVec.getLsbD_and, hi, Bool.and_true] at hb
    have h32 : i < 32 := by
      by_contra hc
      rw [BitVec.getLsbD_of_ge _ _ (by omega)] at hi
      cases hi
    rw [Machine.mix, BitVec.getLsbD_or, BitVec.getLsbD_and, BitVec.getLsbD_and, BitVec.getLsbD_not, hmi, decide_eq_true h32]
    simp
  have hinv : Machine.mix f v m &&& fpInvalid = f &&& fpInvalid := by
    refine BitVec.eq_of_getLsbD_eq fun i hi => ?_
    rw [BitVec.getLsbD_and, BitVec.getLsbD_and]
    by_cases hb : (0xFFF80FFF : Word).getLsbD i = true
    · rw [hbit i hb]
    · rw [show fpInvalid.getLsbD i = false by interval_cases i <;> simp_all [fpInvalid], Bool.and_false, Bool.and_false]
  refine ⟨BitVec.eq_of_getLsbD_eq fun i hi => ?_, (reservedClear_iff _).1 ((hbit 11 rfl).trans h.reservedClear)⟩
  rcases eq_or_ne i 29 with rfl | h29
  · rw [fpSummary_vx, hinv, ← fpSummary_vx, h.1, hbit 29 rfl]
  rcases eq_or_ne i 30 with rfl | h30
  · have hb : ∀ n, (0xFFF80FFF : Word).getLsbD (63 - n) = true → bit (Machine.mix f v m) n = bit f n := fun n => hbit _
    rw [fpSummary_fex, hinv, hb 56 rfl, hb 35 rfl, hb 57 rfl, hb 36 rfl, hb 58 rfl, hb 37 rfl, hb 59 rfl, hb 38 rfl,
      hb 60 rfl, ← fpSummary_fex, h.1, hbit 30 rfl]
  exact fpSummary_getLsbD _ h29 h30

theorem fpscrConsistent.withFprf {f : Word} (h : fpscrConsistent f) (c : BitVec 5) : fpscrConsistent (withFprf c f) :=
  h.mix _ (by decide)

theorem fpscrConsistent.withFrFi {f : Word} (h : fpscrConsistent f) (fr fi : Bool) :
    fpscrConsistent (withFrFi fr fi f) := h.mix _ (by decide)

theorem OnlyExceptions.raise {exc f : Word} (he : OnlyExceptions exc) (h : fpscrConsistent f) :
    fpscrConsistent (fpRaise exc f) := fpRaise_consistent h.reservedClear (he.getLsbD rfl)

theorem Runs.putFp (h : Runs s t) (frD : BitVec 5) (r : FpResult) (oof : Bool) : Runs s (t.putFp frD r oof) := by
  unfold State.putFp
  split
  · exact h
  · refine .ite ?_ ((h.setFpr _ _).fpscr fun hf => hf.withFprf _)
    exact Runs.fpscr (t := State.setFpr frD t.drawDWord.1 t.drawDWord.2.drawFprf.2) (h.step rfl rfl)
      fun hf => hf.withFprf _

theorem Runs.putFrFi (h : Runs s t) (fr : Option Bool) (fi : Bool) : Runs s (t.putFrFi fr fi) := by
  unfold State.putFrFi
  split
  · exact h.fpscr fun hf => hf.withFrFi _ _
  · exact h.drawBit.fpscr fun hf => hf.withFrFi _ _

theorem Runs.putResult (h : Runs s t) (frD : BitVec 5) {r : FpResult} (hr : OnlyExceptions r.exc) (oof rc : Bool) :
    Ends s (t.putResult frD r oof rc) :=
  (((h.putFp frD r oof).putFrFi r.fr r.fi).fpscr fun hf => hr.raise hf).finishFp rc

theorem Runs.putEstimate (h : Runs s t) (frD : BitVec 5) {r : FpResult} (hr : OnlyExceptions r.exc) (oof rc : Bool) :
    Ends s (t.putEstimate frD r oof rc) :=
  h.drawBit.putResult frD (r := { r with fr := none, fi := t.drawBit.1, exc := r.exc &&& ~~~fpXX }) (hr.and _) oof rc

theorem Runs.fpBinary (h : Runs s t) (single : Bool) {op : FpVal → FpVal → FpExact} (hop : ∀ x y, (op x y).Sound)
    (frD a b : BitVec 5) (rc : Bool) : Ends s (t.fpBinary single op frD a b rc) :=
  h.needFp (h.putResult _ (conclude_exc (hop _ _) _ _ _) _ _)

theorem Runs.fpFused (h : Runs s t) (single sub neg : Bool) (frD a c b : BitVec 5) (rc : Bool) :
    Ends s (t.fpFused single sub neg frD a c b rc) := by
  refine h.needFp (h.putResult _ ?_ _ _)
  split
  · rw [FpResult.negate_exc]
    exact conclude_exc (fpMulAdd_sound _ _ _ _) _ _ _
  · exact conclude_exc (fpMulAdd_sound _ _ _ _) _ _ _

theorem Runs.fpConvert (h : Runs s t) (rn : BitVec 2) (frD b : BitVec 5) (rc : Bool) :
    Ends s (t.fpConvert rn frD b rc) := by
  have hd : Runs s t.drawWord.2.drawFprf.2 := h.step rfl rfl
  refine h.needFp (Runs.finishFp (Runs.fpscr (.ite hd (hd.setFpr _ _)) fun hf => ?_) rc)
  exact (toIntWord_exc _ _).raise ((hf.withFprf _).withFrFi _ _)

theorem Runs.fpCompareInto (h : Runs s t) (crfD : BitVec 3) (a b : DWord) {exc : Word} (he : OnlyExceptions exc) :
    Ends s (t.fpCompareInto crfD a b exc) := by
  refine h.needFp (Runs.finishFp (Runs.fpscr (t := t.setCrField crfD _) (h.step rfl rfl) fun hf => ?_) false)
  exact he.raise (fpscrConsistent.mix hf _ (by decide))

theorem Runs.writeFpscr (h : Runs s t) (v mask : Word) : Runs s (t.writeFpscr v mask) :=
  h.fpscr fun hf => fpSummary_consistent (reservedClear_mix hf.reservedClear _ _ (by
    rw [BitVec.getLsbD_and, show (0x9FFFF7FF : Word).getLsbD 11 = false from rfl, Bool.and_false]))

end Sys2Proof.Machine


/-! The rule of every instruction that writes nothing of what privilege guards. -/

namespace Sys2Proof.Machine

variable {s t u : State}

/-- The instructions that write MSR, a TLB array, MAS registers, a doorbell, or a register by its number. -/
def writesGuarded : Instr → Bool
  | .mtspr .. | .mtpmr .. | .mtmsr .. | .wrtee .. | .wrteei .. | .rfi | .rfgi | .rfci | .rfdi | .rfmci | .tlbilx ..
  | .tlbivax .. | .tlbre | .tlbwe | .tlbsx .. | .msgsnd .. | .msgclr .. => true
  | _ => false

theorem Runs.onSpr (h : Runs s t) (n : BitVec 10) (write : Bool) {k : Spr → Out}
    (hk : ∀ r, t.sprAccess n write = .ok r → Ends s (k r)) : Ends s (t.onSpr n write k) := by
  unfold State.onSpr
  split
  · exact h.illegal
  · exact h.privileged
  · exact h.hvPrivilege
  · next r hr => exact hk r hr

theorem Runs.moveFromSpr (h : Runs s t) (rD : BitVec 5) (n : BitVec 10) : Ends s (t.moveFromSpr rD n) :=
  h.onSpr n false fun _ _ => (h.setGpr _ _).finish

theorem ends_mfpmr (rD : BitVec 5) (n : BitVec 10) : Ends s (execMfpmr rD n s) := by
  have h := Runs.refl s
  unfold execMfpmr
  split
  · exact h.illegal
  · exact .ite h.privileged (.ite (.ite (h.setGpr _ _).finish h.hvPrivilege) (h.setGpr _ _).finish)

theorem ends_mcrxr (crfD : BitVec 3) : Ends s (execMcrxr crfD s) := by
  refine Runs.finish (Runs.xer (t := s.setCrField crfD _) ((Runs.refl s).step rfl rfl) fun hx => ?_)
  change s.xer &&& 0x1FFFFF80 = 0 at hx
  rw [BitVec.and_assoc, BitVec.and_comm 0x0FFFFFFF, ← BitVec.and_assoc, hx]
  simp

theorem Runs.synchronize (h : Runs s t) (l : BitVec 2) : Runs s (t.synchronize l) := .ite h (h.step rfl rfl)

theorem ends_loadDecorated (rD rA rB : BitVec 5) (n : Nat) :
    Ends s (s.loadDecorated .load rA rB n fun v t => t.setGpr rD (BitVec.ofNat 32 v)) :=
  (Runs.refl s).loadDecorated _ _ _ _ fun _ _ hu => hu.setGpr _ _

theorem ends_lfddx (frD rA rB : BitVec 5) : Ends s (execLfddx frD rA rB s) :=
  (Runs.refl s).needFp ((Runs.refl s).loadDecorated _ _ _ _ fun _ _ hu => hu.setFpr _ _)

theorem ends_lwarx (rD rA rB : BitVec 5) : Ends s (execLwarx rD rA rB s) :=
  ((Runs.refl s).access _ _ 4).andThen fun p _ hu => Runs.finish ((hu.loadPlaced none p).step rfl rfl)

theorem ends_stwcxDot (rS rA rB : BitVec 5) : Ends s (execStwcxDot rS rA rB s) :=
  ((Runs.refl s).reach _ _ 4).andThen fun p _ hu => (hu.debugBefore _ _).andThen fun _ _ hw =>
    .ite ((hw.storePlaced none p _).concludeStwcx true) (hw.concludeStwcx false)

theorem ends_dsn (rA rB : BitVec 5) : Ends s (execDsn rA rB s) :=
  ((Runs.refl s).access _ _ 1).andThen fun _ _ hu =>
    (((hu.notifyPlaced _ _).noteStores 1).noteDecorated _ _).finish

theorem ends_dcbi (rA rB : BitVec 5) : Ends s (execDcbi rA rB s) :=
  (Runs.refl s).supervisorOnly ((Runs.refl s).located _ _ fun _ => (Runs.refl s).blockEvents _ _ fun _ hu =>
    (hu.withCache _).finish)

/-! ### Branch targets are word addresses -/

theorem aligned_offset {n : Nat} (d : BitVec n) : ((d ++ (0 : BitVec 2)).signExtend 32 : Word) &&& 3 = 0 := by
  refine BitVec.eq_of_getLsbD_eq fun i hi => ?_
  rw [BitVec.getLsbD_and, BitVec.getLsbD_signExtend, BitVec.getLsbD_append]
  by_cases h2 : i < 2
  · have h0 : (0 : BitVec 2).getLsbD i = false := BitVec.getLsbD_zero
    simp [h2, show i < n + 2 by omega]
  · have h3 : (3 : Word).getLsbD i = false := by interval_cases i <;> simp_all
    rw [h3, Bool.and_false]
    exact BitVec.getLsbD_zero.symm

/-- A branch to a word address or to an offset from one. -/
theorem ends_branchTo {n : Nat} (aa : Bool) (d : BitVec n) (taken lk : Bool) (ctr : Word) :
    Ends s (s.branch taken (if aa then (d ++ (0 : BitVec 2)).signExtend 32 else s.pc + (d ++ (0 : BitVec 2)).signExtend 32)
      ctr lk) := by
  refine (Runs.refl s).branch (fun hp => ?_) _ _ _
  split
  · exact aligned_offset d
  · exact aligned_add hp (aligned_offset d)

theorem ends_bcctr (bo bi : BitVec 5) (bh : BitVec 2) (lk : Bool) : Ends s (execBcctr bo bi bh lk s) :=
  .ite ((Runs.refl s).branch (fun _ => aligned_mask _) _ _ _)
    ((Runs.refl s).drawBit.drawWord.branch (fun _ => aligned_mask _) _ _ _)

/-! ### Floating-point instructions with a special operand -/

theorem ends_fres (frD frB : BitVec 5) (rc : Bool) : Ends s (execFres frD frB rc s) := by
  refine (Runs.refl s).needFp ((Runs.refl s).putEstimate _ (conclude_exc ?_ _ _ _) _ _)
  split
  · exact FpExact.sound_of_isNan
  · exact FpExact.sound_zero _
  · exact .ite (FpExact.sound_zeroDivide _) (fresEstimate_sound _)

theorem ends_frsqrte (frD frB : BitVec 5) (rc : Bool) : Ends s (execFrsqrte frD frB rc s) := by
  have hi : (FpExact.invalid fpVXSQRT).Sound := FpExact.sound_invalid (by decide)
  refine (Runs.refl s).needFp ((Runs.refl s).putEstimate _ (conclude_exc ?_ _ _ _) _ _)
  split
  · exact FpExact.sound_of_isNan
  · exact .ite hi (FpExact.sound_zero _)
  · exact .ite (FpExact.sound_zeroDivide _) (.ite hi (frsqrteEstimate_sound _))

theorem ends_frsp (frD frB : BitVec 5) (rc : Bool) : Ends s (execFrsp frD frB rc s) := by
  refine (Runs.refl s).needFp ((Runs.refl s).putResult _ (conclude_exc ?_ _ _ _) _ _)
  split
  · exact FpExact.sound_of_isNan
  · exact FpExact.sound_inf _
  · exact exactOf_sound _ _ _

theorem ends_fcmpu (crfD : BitVec 3) (frA frB : BitVec 5) : Ends s (execFcmpu crfD frA frB s) :=
  (Runs.refl s).fpCompareInto crfD _ _ (OnlyExceptions.maskIf (by decide) _)

theorem ends_fcmpo (crfD : BitVec 3) (frA frB : BitVec 5) : Ends s (execFcmpo crfD frA frB s) :=
  (Runs.refl s).fpCompareInto crfD _ _ (.ite (OnlyExceptions.or (by decide) (OnlyExceptions.maskIf (by decide) _))
    (OnlyExceptions.maskIf (by decide) _))

theorem ends_mcrfs (crfD crfS : BitVec 3) : Ends s (execMcrfs crfD crfS s) := by
  refine (Runs.refl s).needFp (Runs.finish (Runs.fpscr (t := s.setCrField crfD _) ((Runs.refl s).step rfl rfl) fun hf => ?_))
  refine fpSummary_consistent ?_
  rw [reservedClear, BitVec.getLsbD_and, show s.fpscr.getLsbD 11 = false from hf.reservedClear, Bool.false_and]

theorem ends_mtfsb1 (crbD : BitVec 5) (rc : Bool) : Ends s (execMtfsb1 crbD rc s) := by
  refine (Runs.refl s).needFp (Runs.finishFp ((Runs.refl s).fpscr fun hf => fpRaise_consistent hf.reservedClear ?_) rc)
  rw [BitVec.getLsbD_and, show (0x9FFFF7FF : Word).getLsbD 11 = false from rfl, Bool.and_false]

/-! ### All of them -/

/-- An instruction that writes nothing guarded leaves what is guarded, or enters an interrupt. -/
theorem ends_exec (i : Instr) (s : State) (hi : writesGuarded i = false) : Ends s (exec i s) := by
  have h := Runs.refl s
  cases i with
  | mtspr | mtpmr | mtmsr | wrtee | wrteei | rfi | rfgi | rfci | rfdi | rfmci | tlbilx | tlbivax | tlbre | tlbwe | tlbsx
  | msgsnd | msgclr => cases hi
  | addi | addis | mulli | isel | mfcr | mfocrf => exact (h.setGpr _ _).finish
  | cmp | cmpi | cmpl | cmpli | mcrf | mtcrf | mtocrf | crand | crandc | creqv | crnand | crnor | cror | crorc | crxor
  | wait => exact Runs.finish (h.step rfl rfl)
  | mcrxr => exact ends_mcrxr _
  | add | subf | neg | mullw | mulhw | mulhwu => exact h.arith _ _ _ _ _
  | addic | addicDot | subfic | addc | adde | addme | addze | subfc | subfe | subfme | subfze => exact h.sumCa _ _ _ _
  | divw | divwu => exact .ite (h.undefinedQuotient _ _ _) (h.arith _ _ _ _ _)
  | andiDot | andisDot | ori | oris | xori | xoris | and | andc | or | orc | xor | nand | nor | eqv | extsb | extsh | cntlzw
  | rlwimi | rlwinm | rlwnm | slw | srw => exact h.logical _ _ _
  | sraw | srawi => exact h.shiftAlgebraic _ _ _ _
  | tw | twi => exact h.trapIf _
  | sc => exact .ite (h.systemCall _ _) (h.systemCall _ _)
  | ehpriv => exact h.hvPrivilege
  | b li aa lk => exact ends_branchTo aa li true lk s.ctr
  | bc => exact ends_branchTo _ _ _ _ _
  | bclr => exact h.branch (fun _ => aligned_mask _) _ _ _
  | bcctr bo bi bh lk => exact ends_bcctr bo bi bh lk
  | isync => exact h.finish
  | mbar => exact (h.noteStores 1).finish
  | sync => exact ((h.synchronize _).noteStores 1).finish
  | mfspr | mftb => exact h.moveFromSpr _ _
  | mfpmr => exact ends_mfpmr _ _
  | dnh => exact .ite (.inl (h.step rfl rfl)) h.illegal
  | mfmsr => exact h.supervisorOnly (h.setGpr _ _).finish
  | tlbsync => exact h.hypervisorOnly h.finish
  | lhbrx rD rA rB => exact h.loadGpr .load (s.eaX rA rB) 2 rD fun v => (swap16 (BitVec.ofNat 16 v)).setWidth 32
  | lwbrx rD rA rB => exact h.loadGpr .load (s.eaX rA rB) 4 rD fun v => swap32 (BitVec.ofNat 32 v)
  | lbz | lbzx | lhz | lhzx | lha | lhax | lwz | lwzx => exact h.loadGpr _ _ _ _ _
  | lbzu | lbzux | lhzu | lhzux | lhau | lhaux | lwzu | lwzux => exact h.loadGprUpdate _ _ _ _ _
  | lbepx | lhepx | lwepx => exact h.supervisorOnly (h.loadGpr _ _ _ _ _)
  | stb | stbx | sth | sthx | stw | stwx | sthbrx | stwbrx => exact h.storeValue _ _ _ _
  | stbu | stbux | sthu | sthux | stwu | stwux => exact h.storeUpdate _ _ _ _ _
  | stbepx | sthepx | stwepx => exact h.supervisorOnly (h.storeValue _ _ _ _)
  | lmw => exact .ite (Runs.loadWords _ _ _ _ _ _ h.drawBit) (Runs.loadWords _ _ _ _ _ _ h)
  | stmw => exact Runs.storeWords _ _ _ _ h
  | lwarx => exact ends_lwarx _ _ _
  | stwcxDot => exact ends_stwcxDot _ _ _
  | lfs | lfsx | lfd | lfdx => exact h.loadFpr _ _ _ _ _
  | lfsu | lfsux | lfdu | lfdux => exact h.loadFprUpdate _ _ _ _ _
  | lfdepx => exact h.supervisorOnly (h.loadFpr _ _ _ _ _)
  | stfs | stfsx => exact (h.singleWord _).storeFp _ _ _ _
  | stfsu | stfsux => exact (h.singleWord _).storeFpUpdate _ _ _ _
  | stfd | stfdx | stfiwx => exact h.storeFp _ _ _ _
  | stfdu | stfdux => exact h.storeFpUpdate _ _ _ _
  | stfdepx => exact h.supervisorOnly (h.storeFp _ _ _ _)
  | lbdx => exact ends_loadDecorated _ _ _ _
  | lhdx => exact ends_loadDecorated _ _ _ _
  | lwdx => exact ends_loadDecorated _ _ _ _
  | lfddx => exact ends_lfddx _ _ _
  | stbdx | sthdx | stwdx => exact h.storeDecorated _ _ _ _ _
  | stfddx => exact h.needFp (h.storeDecorated _ _ _ _ _)
  | dsn => exact ends_dsn _ _
  | dcbt | dcbtst | icbt => exact h.touch _ _ _ _
  | dcbtep | dcbtstep => exact h.supervisorOnly (h.touch _ _ _ _)
  | dcbf | dcbst => exact h.flushBlock _ _
  | dcbfep | dcbstep => exact h.supervisorOnly (h.flushBlock _ _)
  | icbi => exact h.invalidateInstr _ _
  | icbiep => exact h.supervisorOnly (h.invalidateInstr _ _)
  | dcbi => exact ends_dcbi _ _
  | dcbz | dcbzl => exact h.zero _ _ _
  | dcbzep | dcbzlep => exact h.supervisorOnly (h.zero _ _ _)
  | dcba | dcbal => exact h.allocate _ _
  | dcbtls | dcbtstls | icbtls => exact h.lockSet _ _ _ _
  | dcblc | icblc => exact h.lockClear _ _ _ _
  | fadd | fadds => exact h.fpBinary _ (fun _ _ => fpAdd_sound _ _ _) _ _ _ _
  | fsub | fsubs => exact h.fpBinary _ (fun _ _ => fpAdd_sound _ _ _) _ _ _ _
  | fmul | fmuls => exact h.fpBinary _ fpMul_sound _ _ _ _
  | fdiv | fdivs => exact h.fpBinary _ fpDiv_sound _ _ _ _
  | fres => exact ends_fres _ _ _
  | frsqrte => exact ends_frsqrte _ _ _
  | fmadd | fmadds | fmsub | fmsubs | fnmadd | fnmadds | fnmsub | fnmsubs => exact h.fpFused _ _ _ _ _ _ _ _
  | frsp => exact ends_frsp _ _ _
  | fctiw | fctiwz => exact h.fpConvert _ _ _ _
  | fcmpu => exact ends_fcmpu _ _ _
  | fcmpo => exact ends_fcmpo _ _ _
  | fmr | fneg | fabs | fnabs | fsel => exact h.fpMove _ _ _
  | mffs => exact h.drawWord.fpMove _ _ _
  | mcrfs => exact ends_mcrfs _ _
  | mtfsfi | mtfsf => exact h.needFp ((h.writeFpscr _ _).finishFp _)
  | mtfsb0 => exact h.needFp ((h.writeFpscr _ _).recordFp _).finish
  | mtfsb1 => exact ends_mtfsb1 _ _

end Sys2Proof.Machine


/-! What user state and a guest cannot change (45 section 1; 10 sections 8 and 9). -/

namespace Sys2Proof.Machine

variable {s t u : State}

/-! ### Interrupts apart -/

theorem Entered.interrupts_ne (h : Entered s t) : t.log.interrupts ≠ s.log.interrupts := fun he =>
  absurd h.more (by rw [he]; exact Nat.lt_irrefl _)

/-- An instruction that ends in no interrupt ran. -/
theorem Ends.runs {o : Out} (h : Ends s o) (ho : o = .next t) (hl : t.log.interrupts = s.log.interrupts) : Runs s t := by
  subst ho
  exact h.resolve_right fun he => he.interrupts_ne hl

/-! ### Which register an mtspr writes -/

/-- The registers that user state writes by mtspr (10 R60). -/
def userWritable : List Spr := [.xer, .lr, .ctr, .usprg0, .npidr, .ddam, .devent]

theorem row_of_sprAccess {n : BitVec 10} {w : Bool} {r : Spr} (h : s.sprAccess n w = .ok r) :
    ∃ row ∈ sprTable, r = s.guestMapped row.reg ∧ (if w then row.writable else row.readable) = true ∧
      (s.pr = true → row.cls = .user) ∧ (s.gs = true → row.cls.hvOnly w = false) := by
  cases hrow : sprRow n with
  | none =>
    simp only [State.sprAccess, hrow] at h
    cases h
  | some row =>
    refine ⟨row, List.mem_of_find?_eq_some hrow, reg_of_sprAccess h hrow, ?_⟩
    simp only [State.sprAccess, hrow] at h
    by_cases h1 : (if w then row.writable else row.readable) = false
    · rw [if_pos h1] at h
      cases h
    rw [if_neg h1] at h
    by_cases h2 : row.cls ≠ .user ∧ s.pr = true
    · rw [if_pos h2] at h
      cases h
    rw [if_neg h2] at h
    by_cases h3 : row.cls.hvOnly w = true ∧ s.gs = true
    · rw [if_pos h3] at h
      cases h
    refine ⟨eq_true_of_ne_false h1, fun hp => ?_, fun hg => ?_⟩
    · by_contra hc
      exact h2 ⟨hc, hp⟩
    · rw [← Bool.not_eq_true]
      exact fun hc => h3 ⟨hc, hg⟩

theorem user_rows : ∀ row ∈ sprTable, row.cls = .user → row.writable = true → row.reg ∈ userWritable := by
  decide +kernel

theorem mem_userWritable {n : BitVec 10} {r : Spr} (hp : s.pr = true) (h : s.sprAccess n true = .ok r) :
    r ∈ userWritable := by
  obtain ⟨row, hmem, rfl, hw, hu, -⟩ := row_of_sprAccess h
  have hr := user_rows row hmem (hu hp) hw
  generalize row.reg = q at *
  have hq : s.guestMapped q = q := by
    unfold State.guestMapped
    split
    · rfl
    · unfold userWritable at hr
      fin_cases hr <;> rfl
  rwa [hq]

/-! ### User state -/

/-- What O59 says that an instruction in user state leaves as it is. -/
def UserKept (s t : State) : Prop :=
  t.msr = s.msr ∧ { t.int with mcsr := s.int.mcsr, mcar := s.int.mcar } = s.int ∧ t.ctl = s.ctl ∧ t.tim = s.tim ∧
    t.mmu = s.mmu ∧ { t.sprgs with usprg0 := s.sprgs.usprg0 } = s.sprgs ∧ t.pm = s.pm ∧
    { t.dbg with npidr := s.dbg.npidr, ddam := s.dbg.ddam, devent := s.dbg.devent, dbsr := s.dbg.dbsr,
                 edbsr0 := s.dbg.edbsr0, prsr := s.dbg.prsr } = s.dbg ∧
    t.env = s.env ∧ t.physMap = s.physMap ∧ t.hid.dbell = s.hid.dbell

theorem Runs.int_eq (h : Runs s t) : { t.int with mcsr := s.int.mcsr, mcar := s.int.mcar } = s.int :=
  congrArg (fun g : Guarded => { g.int with mcsr := s.int.mcsr, mcar := s.int.mcar }) h.guarded

theorem Runs.dbg_eq (h : Runs s t) :
    { t.dbg with npidr := s.dbg.npidr, ddam := s.dbg.ddam, devent := s.dbg.devent, dbsr := s.dbg.dbsr,
                 edbsr0 := s.dbg.edbsr0, prsr := s.dbg.prsr } = s.dbg :=
  congrArg (fun g : Guarded =>
    { g.dbg with npidr := s.dbg.npidr, ddam := s.dbg.ddam, devent := s.dbg.devent, dbsr := s.dbg.dbsr,
                 edbsr0 := s.dbg.edbsr0, prsr := s.dbg.prsr }) h.guarded

theorem Runs.sprgs_eq (h : Runs s t) : { t.sprgs with usprg0 := s.sprgs.usprg0 } = s.sprgs :=
  congrArg (fun g : Guarded => { g.sprgs with usprg0 := s.sprgs.usprg0 }) h.guarded

theorem Runs.userKept (h : Runs s t) : UserKept s t :=
  ⟨congrArg Guarded.msr h.guarded, h.int_eq, congrArg Guarded.ctl h.guarded, congrArg Guarded.tim h.guarded,
    congrArg Guarded.mmu h.guarded, h.sprgs_eq, congrArg Guarded.pm h.guarded, h.dbg_eq, congrArg Guarded.env h.guarded,
    congrArg Guarded.physMap h.guarded, congrArg Guarded.dbell h.guarded⟩

theorem userKept_writeSpr {r : Spr} (hr : r ∈ userWritable) (v : Word) : UserKept s (s.writeSpr r v).advance := by
  unfold userWritable at hr
  fin_cases hr <;> exact ⟨rfl, rfl, rfl, rfl, rfl, rfl, rfl, rfl, rfl, rfl, rfl⟩

/-- mtspr either is refused by an interrupt or writes a register that its state may write. -/
theorem mtspr_cases (rS : BitVec 5) (n : BitVec 10) (he : exec (.mtspr rS n) s = .next t)
    (hl : t.log.interrupts = s.log.interrupts) :
    ∃ r, s.sprAccess n true = .ok r ∧ t = (s.writeSpr r (s.getGpr rS)).advance := by
  have hno (i : Interrupt) (hx : exec (.mtspr rS n) s = .next (s.takeInterrupt i)) : False := by
    rw [he] at hx
    exact (Host.Outcome.next.inj hx ▸ Entered.of rfl id i : Entered s t).interrupts_ne hl
  have hspr : exec (.mtspr rS n) s = s.onSpr n true fun r => (s.writeSpr r (s.getGpr rS)).finish := rfl
  unfold State.onSpr at hspr
  cases ha : s.sprAccess n true with
  | ok r =>
    rw [exec_mtspr_ok ha] at he
    exact ⟨r, rfl, (Host.Outcome.next.inj he).symm⟩
  | illegal => exact (hno _ (by rw [hspr, ha]; rfl)).elim
  | privileged => exact (hno _ (by rw [hspr, ha]; rfl)).elim
  | hvPrivilege => exact (hno _ (by rw [hspr, ha]; rfl)).elim

/-- In user state every other instruction that writes guarded state enters an interrupt. -/
theorem user_interrupted {i : Instr} (hp : s.pr = true) (hw : writesGuarded i = true) (hi : ∀ rS n, i ≠ .mtspr rS n) :
    ∃ k, exec i s = .next (s.takeInterrupt k) := by
  cases i
  case mtspr rS n => exact absurd rfl (hi rS n)
  case mtmsr | wrtee | wrteei | rfi | rfgi | tlbilx => exact ⟨_, supervisorOnly_user hp _⟩
  case rfci | rfdi | rfmci | tlbivax | tlbre | tlbwe | tlbsx | msgsnd | msgclr => exact ⟨_, hypervisorOnly_user hp _⟩
  case mtpmr rS n =>
    show ∃ k, execMtpmr rS n s = _
    unfold execMtpmr
    split
    · exact ⟨_, rfl⟩
    · exact ⟨_, rfl⟩
    · exact ⟨_, if_pos hp⟩
  all_goals cases hw

/-- Settles O59: an instruction that writes nothing guarded runs; mtspr writes a user register; every other one is
privileged. -/
theorem userStateContained : Obligations.UserStateContained := by
  intro i s t hp he hl
  show UserKept s t
  cases hw : writesGuarded i with
  | false => exact ((ends_exec i s hw).runs he hl).userKept
  | true =>
    by_cases hi : ∃ rS n, i = .mtspr rS n
    · obtain ⟨rS, n, rfl⟩ := hi
      obtain ⟨r, hr, rfl⟩ := mtspr_cases rS n he hl
      exact userKept_writeSpr (mem_userWritable hp hr) _
    · obtain ⟨k, hk⟩ := user_interrupted hp hw fun rS n h => hi ⟨rS, n, h⟩
      rw [hk] at he
      exact ((Host.Outcome.next.inj he ▸ Entered.of rfl id k : Entered s t).interrupts_ne hl).elim

end Sys2Proof.Machine


/-! What a guest cannot change (45 section 1; 21 sections 5 and 9). -/

namespace Sys2Proof.Machine

variable {s t u : State}

/-- What O60 says of the TLB and of the memory management registers. -/
structure MmuKept (m n : Mmu) : Prop where
  lpidr : n.lpidr = m.lpidr
  mas5  : n.mas5 = m.mas5
  mas8  : n.mas8 = m.mas8
  eplc  : n.eplc &&& 0x203F0000 = m.eplc &&& 0x203F0000
  epsc  : n.epsc &&& 0x203F0000 = m.epsc &&& 0x203F0000
  entry : ∀ l, n.entry l = m.entry l ∨ n.entry l = { m.entry l with v := false }
  tlb1  : ∀ k, (m.entry (.tlb1 k)).iprot = true → n.entry (.tlb1 k) = m.entry (.tlb1 k)

theorem MmuKept.refl (m : Mmu) : MmuKept m m := ⟨rfl, rfl, rfl, rfl, rfl, fun _ => .inl rfl, fun _ _ => rfl⟩

/-- What O60 says that an instruction of a guest leaves as it is. -/
structure GuestKept (s t : State) : Prop where
  gs  : bit t.msr 35 = true
  ctl : t.ctl = s.ctl
  tim : t.tim = s.tim
  int : { t.int with gsrr0 := s.int.gsrr0, gsrr1 := s.int.gsrr1, gesr := s.int.gesr, gdear := s.int.gdear,
                     gepr := s.int.gepr, mcsr := s.int.mcsr, mcar := s.int.mcar } = s.int
  mmu : MmuKept s.mmu t.mmu

/-- An instruction that ran leaves it, also where it goes on from there with what a guest may write. -/
theorem Runs.guestKept (h : Runs s t) (hg : bit s.msr 35 = true) : GuestKept s t where
  gs := (congrArg (fun g : Guarded => bit g.msr 35) h.guarded).trans hg
  ctl := congrArg Guarded.ctl h.guarded
  tim := congrArg Guarded.tim h.guarded
  int := congrArg (fun g : Guarded =>
    { g.int with gsrr0 := s.int.gsrr0, gsrr1 := s.int.gsrr1, gesr := s.int.gesr, gdear := s.int.gdear,
                 gepr := s.int.gepr, mcsr := s.int.mcsr, mcar := s.int.mcar }) h.guarded
  mmu := by
    rw [show t.mmu = s.mmu from congrArg Guarded.mmu h.guarded]
    exact .refl _

/-! ### MSR -/

/-- In guest supervisor state a write of MSR keeps GS. -/
theorem writeMsr_gs (hg : bit s.msr 35 = true) (hp : bit s.msr 49 = false) (v : Word) : bit (s.writeMsr v).msr 35 = true := by
  have hk : s.msrKept.getLsbD 28 = true := by
    unfold State.msrKept State.gs State.pr
    rw [hg, hp]
    simp
  have hm : s.msr.getLsbD 28 = true := hg
  show ((s.msr &&& s.msrKept) ||| (v &&& msrDefined &&& ~~~s.msrKept)).getLsbD 28 = true
  rw [BitVec.getLsbD_or, BitVec.getLsbD_and, hk, hm]
  rfl

theorem setEe_gs (hg : bit s.msr 35 = true) (v : Bool) : bit (s.setEe v).msr 35 = true := by
  have hm : s.msr.getLsbD 28 = true := hg
  show ((s.msr &&& 0xFFFF7FFF) ||| maskIf v 0x00008000).getLsbD 28 = true
  rw [BitVec.getLsbD_or, BitVec.getLsbD_and, hm]
  rfl

/-- A return of a guest that is not replaced by a debug event. -/
theorem guestKept_return {event a b : Word} (hg : bit s.msr 35 = true) (hp : bit s.msr 49 = false)
    (he : s.returnAfter event a b = .next t) (hl : t.log.interrupts = s.log.interrupts) : GuestKept s t := by
  unfold State.returnAfter at he
  have hd := (Runs.refl s).debugBefore event s.de
  cases hr : s.debugBefore event s.de with
  | done o =>
    rw [hr] at he hd
    exact (Ends.runs hd he hl).guestKept hg
  | ok x u =>
    rw [hr] at he hd
    obtain ⟨gs, ctl, tim, int, mmu⟩ := Runs.guestKept hd hg
    obtain rfl : u.returnTo a b = t := Host.Outcome.next.inj he
    refine ⟨?_, ctl, tim, int, mmu⟩
    exact writeMsr_gs gs ((congrArg (fun g : Guarded => bit g.msr 49) hd.guarded).trans hp) b

/-! ### tlbilx -/

theorem entry_invalidate0 (p : TlbEntry → Bool) (m : Mmu) (set : BitVec 7) (way : BitVec 2) :
    (m.invalidate0 p).entry (.tlb0 set way) =
      if p (m.entry (.tlb0 set way)) then { m.entry (.tlb0 set way) with v := false } else m.entry (.tlb0 set way) := by
  show (m.tlb0.map fun e => if p e then { e with v := false } else e)[(set ++ way).toNat]'(set ++ way).isLt = _
  rw [Vector.getElem_map]
  rfl

theorem entry_invalidate1 (p : TlbEntry → Bool) (m : Mmu) (n : BitVec 6) :
    (m.invalidate1 p).entry (.tlb1 n) = (m.entry (.tlb1 n)).invalidateIf (p (m.entry (.tlb1 n))) := by
  simp only [Mmu.entry, Mmu.invalidate1, Vector.getElem_map]

/-- An invalidation of both arrays by tests. -/
theorem mmuKept_invalidate (p q : TlbEntry → Bool) (m : Mmu) : MmuKept m ((m.invalidate0 p).invalidate1 q) := by
  have h1 (n : BitVec 6) : ((m.invalidate0 p).invalidate1 q).entry (.tlb1 n) =
      (m.entry (.tlb1 n)).invalidateIf (q (m.entry (.tlb1 n))) := entry_invalidate1 q (m.invalidate0 p) n
  refine ⟨rfl, rfl, rfl, rfl, rfl, fun l => ?_, fun n hn => ?_⟩
  · cases l with
    | tlb0 set way =>
      rw [show ((m.invalidate0 p).invalidate1 q).entry (.tlb0 set way) = _ from entry_invalidate0 p m set way]
      split
      · exact .inr rfl
      · exact .inl rfl
    | tlb1 n =>
      rw [h1, TlbEntry.invalidateIf]
      split
      · exact .inr rfl
      · exact .inl rfl
  · rw [h1, TlbEntry.invalidateIf, hn, Bool.not_true, Bool.and_false]
    rfl

theorem mmuKept_freeNv {m : Mmu} (h : MmuKept m s.mmu) : MmuKept m s.freeNv.mmu := by
  obtain ⟨h1, h2, h3, h4, h5, h6, h7⟩ := h
  exact ⟨h1, h2, h3, h4, h5, fun l => entry_freeNv s l ▸ h6 l, fun n hn => (entry_freeNv s _).trans (h7 n hn)⟩

/-! ### mtspr -/

/-- The registers that a guest writes by mtspr in one of its states (10 R50, R60), EPLC and EPSC apart. -/
def guestWholly : List Spr :=
  userWritable ++ [.pid, .gsprg 0, .gsprg 1, .gsprg 2, .gsprg 3, .sprg 4, .sprg 5, .sprg 6, .sprg 7, .sprg 9, .gsrr0,
    .gsrr1, .gepr, .gdear, .gesr, .mas0, .mas1, .mas2, .mas3, .mas4, .mas6, .mas7]

/-- With EPLC and EPSC, of which a guest writes some fields alone. -/
def guestWritable : List Spr := guestWholly ++ [.eplc, .epsc]

/-- The registers that the guest mapping replaces. -/
def guestReplaced : List Spr := [.srr0, .srr1, .dear, .esr, .sprg 0, .sprg 1, .sprg 2, .sprg 3]

theorem guest_rows : ∀ row ∈ sprTable, row.cls.hvOnly true = false → row.writable = true →
    row.reg ∈ guestWritable ++ guestReplaced := by decide +kernel

theorem guestMapped_writable (hg : s.gs = true) (hp : s.pr = false) {r : Spr} (hr : r ∈ guestWritable ++ guestReplaced) :
    s.guestMapped r ∈ guestWritable := by
  unfold State.guestMapped
  rw [hg, hp]
  revert r
  decide +kernel

theorem mem_guestWritable {n : BitVec 10} {r : Spr} (hg : s.gs = true) (hp : s.pr = false)
    (h : s.sprAccess n true = .ok r) : r ∈ guestWritable := by
  obtain ⟨row, hmem, rfl, hw, -, hgu⟩ := row_of_sprAccess h
  exact guestMapped_writable hg hp (guest_rows row hmem (hgu hg) hw)

/-- EPLC and EPSC keep their hypervisor fields. -/
theorem writeExternal_and (hg : s.gs = true) (old v : Word) : s.writeExternal old v &&& 0x203F0000 = old &&& 0x203F0000 := by
  unfold State.writeExternal
  rw [if_pos hg, BitVec.and_or_distrib_right, BitVec.and_assoc, BitVec.and_assoc,
    show (0xC00000FF : Word) &&& 0x203F0000 = 0 from rfl, BitVec.and_self]
  simp

theorem guestKept_writeSpr (hg : bit s.msr 35 = true) {r : Spr} (hr : r ∈ guestWritable) (v : Word) :
    GuestKept s (s.writeSpr r v).advance := by
  have he := writeExternal_and (s := s) hg
  have hm {m : Mmu} (h1 : m.lpidr = s.mmu.lpidr) (h2 : m.mas5 = s.mmu.mas5) (h3 : m.mas8 = s.mmu.mas8)
      (h4 : m.eplc &&& 0x203F0000 = s.mmu.eplc &&& 0x203F0000) (h5 : m.epsc &&& 0x203F0000 = s.mmu.epsc &&& 0x203F0000)
      (h6 : m.tlb0 = s.mmu.tlb0) (h7 : m.tlb1 = s.mmu.tlb1) : MmuKept s.mmu m := by
    have h (l : TlbLoc) : m.entry l = s.mmu.entry l := by
      cases l <;> simp only [Mmu.entry, h6, h7]
    exact ⟨h1, h2, h3, h4, h5, fun l => .inl (h l), fun k _ => h _⟩
  unfold guestWritable at hr
  rw [List.mem_append, List.mem_pair] at hr
  obtain hr | rfl | rfl := hr
  · unfold guestWholly userWritable at hr
    simp only [List.cons_append, List.nil_append] at hr
    fin_cases hr <;> exact ⟨hg, rfl, rfl, rfl, hm rfl rfl rfl rfl rfl rfl rfl⟩
  · exact ⟨hg, rfl, rfl, rfl, hm rfl rfl rfl (he _ v) rfl rfl rfl⟩
  · exact ⟨hg, rfl, rfl, rfl, hm rfl rfl rfl rfl (he _ v) rfl rfl⟩

theorem mmuKept_tlbilx (c : BitVec 2) (ea : Word) (m : Mmu) : MmuKept m (m.tlbilx c ea) := mmuKept_invalidate _ _ m

theorem guestKept_freeNv (hg : bit s.msr 35 = true) {m : Mmu} (h : MmuKept s.mmu m) :
    GuestKept s (({ s with mmu := m } : State).freeNv.noteStores 1).advance :=
  ⟨hg, rfl, rfl, rfl, mmuKept_freeNv (s := { s with mmu := m }) h⟩

theorem guestKept_tlbilx (hg : bit s.msr 35 = true) (c : BitVec 2) (rA rB : BitVec 5)
    (he : exec (.tlbilx c rA rB) s = .next t) (hp : bit s.msr 49 = false) (hl : t.log.interrupts = s.log.interrupts) :
    GuestKept s t := by
  have hx : exec (.tlbilx c rA rB) s = _ := supervisorOnly_ok hp _
  rw [hx] at he
  split at he
  · exact (Ends.runs (Runs.refl s).hvPrivilege he hl).guestKept hg
  split at he
  · exact (Ends.runs ((Runs.refl s).noteStores 1).finish he hl).guestKept hg
  · obtain rfl := Host.Outcome.next.inj he
    exact guestKept_freeNv hg (mmuKept_tlbilx _ _ _)

/-- In guest supervisor state an instruction that writes guarded state leaves what O60 says. -/
theorem guestKept_supervisor {i : Instr} (hg : bit s.msr 35 = true) (hp : bit s.msr 49 = false)
    (hw : writesGuarded i = true) (he : exec i s = .next t) (hl : t.log.interrupts = s.log.interrupts) :
    GuestKept s t := by
  have h := Runs.refl s
  cases i
  case mtspr rS n =>
    obtain ⟨r, hr, rfl⟩ := mtspr_cases rS n he hl
    exact guestKept_writeSpr hg (mem_guestWritable hg hp hr) _
  case mtpmr rS n =>
    have hx : exec (.mtpmr rS n) s = execMtpmr rS n s := rfl
    rw [hx] at he
    unfold execMtpmr at he
    split at he
    · exact (Ends.runs h.illegal he hl).guestKept hg
    · exact (Ends.runs h.illegal he hl).guestKept hg
    split at he
    · exact (Ends.runs h.privileged he hl).guestKept hg
    split at he
    · exact (Ends.runs h.hvPrivilege he hl).guestKept hg
    · obtain rfl := Host.Outcome.next.inj he
      exact ⟨hg, rfl, rfl, rfl, .refl _⟩
  case tlbilx c rA rB => exact guestKept_tlbilx hg c rA rB he hp hl
  case mtmsr rS =>
    obtain rfl := Host.Outcome.next.inj ((supervisorOnly_ok hp _).symm.trans he)
    exact ⟨writeMsr_gs hg hp _, rfl, rfl, rfl, .refl _⟩
  case wrtee rS =>
    obtain rfl := Host.Outcome.next.inj ((supervisorOnly_ok hp _).symm.trans he)
    exact ⟨setEe_gs hg _, rfl, rfl, rfl, .refl _⟩
  case wrteei e =>
    obtain rfl := Host.Outcome.next.inj ((supervisorOnly_ok hp _).symm.trans he)
    exact ⟨setEe_gs hg _, rfl, rfl, rfl, .refl _⟩
  case rfi => exact guestKept_return hg hp (((supervisorOnly_ok hp _).trans (if_pos hg)).symm.trans he) hl
  case rfgi => exact guestKept_return hg hp ((supervisorOnly_ok hp _).symm.trans he) hl
  case rfci | rfdi | rfmci | tlbivax | tlbre | tlbwe | tlbsx | msgsnd | msgclr =>
    exact (Ends.runs h.hvPrivilege ((hypervisorOnly_guest hp hg _).symm.trans he) hl).guestKept hg
  all_goals cases hw

/-- Settles O60: as O59, and in guest supervisor state by what MSR writes, tlbilx and mtspr leave alone. -/
theorem guestContained : Obligations.GuestContained := by
  intro i s t hg he hl
  have h : GuestKept s t := by
    cases hw : writesGuarded i with
    | false => exact ((ends_exec i s hw).runs he hl).guestKept hg
    | true =>
      cases hp : bit s.msr 49 with
      | false => exact guestKept_supervisor hg hp hw he hl
      | true =>
        by_cases hi : ∃ rS n, i = .mtspr rS n
        · obtain ⟨rS, n, rfl⟩ := hi
          obtain ⟨r, hr, rfl⟩ := mtspr_cases rS n he hl
          exact guestKept_writeSpr hg (List.mem_append_left _ (List.mem_append_left _ (mem_userWritable hp hr))) _
        · obtain ⟨k, hk⟩ := user_interrupted hp hw fun rS n h => hi ⟨rS, n, h⟩
          rw [hk] at he
          exact ((Host.Outcome.next.inj he ▸ Entered.of rfl id k : Entered s t).interrupts_ne hl).elim
  obtain ⟨gs, ctl, tim, int, lpidr, mas5, mas8, eplc, epsc, entry, tlb1⟩ := h
  exact ⟨gs, ctl, tim, int, lpidr, mas5, mas8, eplc, epsc, fun l => ⟨entry l, fun n hn => hn ▸ fun hi => tlb1 n hi⟩⟩

end Sys2Proof.Machine


/-! Every step keeps the invariant: the instructions, the events of the environment, and what a step does around them. -/

namespace Sys2Proof.Machine

variable {s t u : State}

/-! ### Instructions -/

/-- An outcome that keeps the invariant of the state it came from. -/
def KeepsInv (s : State) : Out → Prop
  | .next t => s.Inv → t.Inv
  | .fault _ | .refused _ => True

theorem Ends.keepsInv {o : Out} (h : Ends s o) : KeepsInv s o := by
  cases o with
  | next t => exact h.elim (·.inv) (·.inv)
  | fault | refused => trivial

theorem KeepsInv.ite {c : Prop} [Decidable c] {a b : Out} (ha : KeepsInv s a) (hb : KeepsInv s b) :
    KeepsInv s (if c then a else b) := by
  split
  · exact ha
  · exact hb

theorem State.Inv.advance (h : t.Inv) : t.advance.Inv := (Runs.refl t).advance.inv h

theorem keepsInv_finish (h : s.Inv → t.Inv) : KeepsInv s t.finish := fun hs => (h hs).advance

theorem keepsInv_supervisorOnly {o : Out} (h : KeepsInv s o) : KeepsInv s (s.supervisorOnly o) :=
  .ite (Runs.refl s).privileged.keepsInv h

theorem keepsInv_hypervisorOnly {o : Out} (h : KeepsInv s o) : KeepsInv s (s.hypervisorOnly o) :=
  .ite (Runs.refl s).privileged.keepsInv (.ite (Runs.refl s).hvPrivilege.keepsInv h)

/-- MSR takes a value that sets reserved bits only where they were set. -/
theorem State.Inv.withMsr (h : s.Inv) {v : Word} (hv : s.msr &&& ~~~msrDefined = 0 → v &&& ~~~msrDefined = 0) :
    ({ s with msr := v } : State).Inv := by
  obtain ⟨hmem, hpc, hmsr, hxer, hf⟩ := h
  exact ⟨hmem, hpc, hv hmsr, hxer, hf⟩

theorem State.Inv.writeMsr (h : s.Inv) (v : Word) : (s.writeMsr v).Inv := by
  refine h.withMsr fun hm => ?_
  rw [BitVec.and_or_distrib_right, BitVec.and_assoc, BitVec.and_comm s.msrKept, ← BitVec.and_assoc, hm, BitVec.and_assoc v,
    BitVec.and_comm msrDefined, ← BitVec.and_assoc, BitVec.and_assoc, show msrDefined &&& ~~~msrDefined = 0 from rfl]
  simp

theorem State.Inv.setEe (h : s.Inv) (v : Bool) : (s.setEe v).Inv := by
  refine h.withMsr fun hm => ?_
  rw [BitVec.and_or_distrib_right, BitVec.and_assoc, BitVec.and_comm 0xFFFF7FFF, ← BitVec.and_assoc, hm]
  cases v <;> decide

theorem State.Inv.returnTo (h : s.Inv) (a b : Word) : (s.returnTo a b).Inv := by
  obtain ⟨hmem, -, hmsr, hxer, hf⟩ := h.writeMsr b
  exact ⟨hmem, aligned_mask a, hmsr, hxer, hf⟩

theorem keepsInv_returnAfter (event a b : Word) : KeepsInv s (s.returnAfter event a b) := by
  have hd := (Runs.refl s).debugBefore event s.de
  unfold State.returnAfter
  cases hr : s.debugBefore event s.de with
  | done o =>
    rw [hr] at hd
    exact Ends.keepsInv hd
  | ok x u =>
    rw [hr] at hd
    exact fun hs => State.Inv.returnTo (Runs.inv hd hs) a b

theorem State.Inv.freeNv (h : s.Inv) : s.freeNv.Inv := h.congr rfl rfl

theorem State.Inv.setDbsr (h : s.Inv) (v : Word) : (s.setDbsr v).Inv := h.congr rfl rfl
theorem State.Inv.setMmu (h : s.Inv) (m : Mmu) : ({ s with mmu := m } : State).Inv := h.congr rfl rfl
theorem State.Inv.noteStores (h : s.Inv) (n : Nat) : (s.noteStores n).Inv := h.congr rfl rfl

theorem State.Inv.writeMmucsr0 (h : s.Inv) (v : Word) : (s.writeMmucsr0 v).Inv := by
  rw [writeMmucsr0_eq]
  split
  · exact h.congr rfl rfl
  · exact h

theorem State.Inv.writeDebugSpr (h : s.Inv) (r : Spr) (v : Word) : (s.writeDebugSpr r v).Inv := by
  cases r <;> exact h.congr rfl rfl

theorem State.Inv.writeSpr (h : s.Inv) (r : Spr) (v : Word) : (s.writeSpr r v).Inv := by
  have hdebug (r : Spr) : (if s.edm then s else s.writeDebugSpr r v).Inv := by
    split
    · exact h
    · exact h.writeDebugSpr r v
  cases r with
  | xer =>
    obtain ⟨hmem, hpc, hmsr, -, hf⟩ := h
    refine ⟨hmem, hpc, hmsr, ?_, hf⟩
    show v &&& 0xE000007F &&& 0x1FFFFF80 = 0
    rw [BitVec.and_assoc, show (0xE000007F : Word) &&& 0x1FFFFF80 = 0 from rfl]
    simp
  | mmucsr0 => exact h.writeMmucsr0 v
  | dbcr0 | dbcr1 | dbcr2 | dbcr4 | dbsr | dbsrwr | iac1 | iac2 | dac1 | dac2 | nspc | nspd => exact hdebug _
  | _ => exact h.congr rfl rfl

theorem keepsInv_mtspr (rS : BitVec 5) (n : BitVec 10) : KeepsInv s (exec (.mtspr rS n) s) := by
  have h := Runs.refl s
  show KeepsInv s (s.onSpr n true _)
  unfold State.onSpr
  split
  · exact h.illegal.keepsInv
  · exact h.privileged.keepsInv
  · exact h.hvPrivilege.keepsInv
  · exact keepsInv_finish fun hs => hs.writeSpr _ _

theorem keepsInv_mtpmr (rS : BitVec 5) (n : BitVec 10) : KeepsInv s (execMtpmr rS n s) := by
  have h := Runs.refl s
  unfold execMtpmr
  split
  · exact h.illegal.keepsInv
  · exact h.illegal.keepsInv
  · exact .ite h.privileged.keepsInv (.ite h.hvPrivilege.keepsInv (keepsInv_finish fun hs => hs.congr rfl rfl))

theorem State.Inv.setDbell (h : s.Inv) (n : Nat) (v : Bool) : (s.setDbell n v).Inv := by
  unfold State.setDbell
  split
  · exact h.congr rfl rfl
  · exact h

theorem State.Inv.receive (h : s.Inv) (m : Word) : (s.receive m).Inv := by
  unfold State.receive
  split
  · exact h.setDbell _ _
  · exact h

theorem keepsInv_tlbsx (rA rB : BitVec 5) : KeepsInv s (execTlbsx rA rB s) := by
  refine keepsInv_hypervisorOnly (.ite (Runs.refl s).illegal.keepsInv ?_)
  split
  · exact keepsInv_finish fun hs => hs.setMmu _
  · exact keepsInv_finish fun hs => hs.setMmu _
  · exact ((Runs.refl s).multipleHit _ _).keepsInv

/-- Every instruction keeps the invariant. -/
theorem keepsInv_exec (i : Instr) (s : State) : KeepsInv s (exec i s) := by
  cases hw : writesGuarded i with
  | false => exact (ends_exec i s hw).keepsInv
  | true =>
    cases i
    case mtspr => exact keepsInv_mtspr _ _
    case mtpmr => exact keepsInv_mtpmr _ _
    case mtmsr => exact keepsInv_supervisorOnly (keepsInv_finish fun hs => hs.writeMsr _)
    case wrtee | wrteei => exact keepsInv_supervisorOnly (keepsInv_finish fun hs => hs.setEe _)
    case rfi =>
      exact keepsInv_supervisorOnly (.ite (keepsInv_returnAfter _ _ _) (keepsInv_returnAfter _ _ _))
    case rfgi => exact keepsInv_supervisorOnly (keepsInv_returnAfter _ _ _)
    case rfci => exact keepsInv_hypervisorOnly (keepsInv_returnAfter _ _ _)
    case rfdi | rfmci => exact keepsInv_hypervisorOnly fun hs => hs.returnTo _ _
    case tlbilx =>
      exact keepsInv_supervisorOnly (.ite (Runs.refl s).hvPrivilege.keepsInv
        (.ite ((Runs.refl s).noteStores 1).finish.keepsInv
          (keepsInv_finish fun hs => (hs.setMmu _).freeNv.noteStores 1)))
    case tlbivax => exact keepsInv_hypervisorOnly (keepsInv_finish fun hs => (hs.setMmu _).freeNv.noteStores 1)
    case tlbre | tlbwe => exact keepsInv_hypervisorOnly (keepsInv_finish fun hs => hs.setMmu _)
    case tlbsx => exact keepsInv_tlbsx _ _
    case msgsnd =>
      exact keepsInv_hypervisorOnly (keepsInv_finish fun hs => (hs.receive _).congr rfl rfl)
    case msgclr => exact keepsInv_hypervisorOnly (keepsInv_finish fun hs => hs.setDbell _ _)
    all_goals cases hw

/-! ### The start of a step -/

theorem State.Inv.ite {c : Prop} [Decidable c] (hs : s.Inv) (ht : t.Inv) : (if c then s else t).Inv := by
  split
  · exact hs
  · exact ht

theorem State.Inv.timerTick (h : s.Inv) : s.timerTick.Inv := .ite (h.congr rfl rfl) h

theorem State.Inv.timerTicks (n : Nat) (h : s.Inv) : (State.timerTicks n s).Inv := by
  induction n generalizing s with
  | zero => exact h
  | succ n ih => exact ih h.timerTick

theorem State.Inv.logMachineCheck (h : s.Inv) (bits : Word) (a : Option DWord) (ea : Bool) :
    (s.logMachineCheck bits a ea).Inv := ((Runs.refl s).logMachineCheck bits a ea).inv h

theorem State.Inv.writeList (h : s.Inv) (l : List (BitVec 36 × Byte)) :
    ({ s with mem := s.mem.writeList l } : State).Inv := ((Runs.refl s).writeBytes l).inv h

theorem State.Inv.loseReservation (h : s.Inv) (l : List (BitVec 36)) : (s.loseReservation l).Inv := by
  unfold State.loseReservation
  split
  · exact .ite (h.congr rfl rfl) h
  · exact h

theorem State.Inv.hardReset (h : s.Inv) (wrs : BitVec 2) : (s.hardReset wrs).Inv :=
  ⟨h.memory, resetInvariant.aligned, resetInvariant.reserved, resetInvariant.xer, resetInvariant.fpscr⟩

theorem State.Inv.apply (h : s.Inv) (e : HostEvent) : (s.apply e).Inv := by
  cases e with
  | tbTick => exact h.timerTick
  | ude => exact .ite (h.congr rfl rfl) h
  | message m => exact .ite h (h.receive m)
  | tlbSyncConflict => exact .ite h (h.logMachineCheck _ _ _)
  | store a l => exact .ite (h.writeList _) ((h.writeList _).loseReservation _)
  | claim a => exact .ite h (h.loseReservation _)
  | snoopData a | snoopIcbi a => exact .ite h (.ite (h.congr rfl rfl) h)
  | loseLock a | tlbInvalidate => exact .ite h (h.congr rfl rfl)
  | coreResume => exact .ite (h.congr rfl rfl) h
  | hardReset wrs => exact h.hardReset wrs
  | _ => exact h.congr rfl rfl

theorem State.Inv.applyAll (l : List HostEvent) (h : s.Inv) : (s.applyAll l).Inv := by
  induction l generalizing s with
  | nil => exact h
  | cons e l ih => exact ih (h.apply e)

theorem State.Inv.beginStep (h : s.Inv) : s.beginStep.Inv := by
  have hr : ({ s with log := StepLog.empty, env := { s.env with script := s.env.script.tail } } : State).Inv :=
    h.congr rfl rfl
  have ht := State.Inv.timerTicks s.env.tbTicks (State.Inv.applyAll (s.env.script.head?.getD []) hr)
  have ha : (State.timerTicks s.env.tbTicks (State.applyAll (s.env.script.head?.getD [])
      { s with log := StepLog.empty, env := { s.env with script := s.env.script.tail } })).atbTick.Inv :=
    .ite ht (ht.congr rfl rfl)
  exact .ite (ha.logMachineCheck _ _ _) ha

/-! ### Debug events and asynchronous interrupts -/

theorem State.Inv.takeDebug (h : s.Inv) (bits a : Word) (async : Bool) : (s.takeDebug bits a async).Inv :=
  (h.setDbsr _).takeInterrupt _

theorem State.Inv.debugAfter (h : s.Inv) (bits : Word) (de async : Bool) : (s.debugAfter bits de async).Inv := by
  unfold State.debugAfter
  split
  · exact h
  · exact h.congr rfl rfl
  · exact h.takeDebug _ _ _
  · exact h.congr rfl rfl
  · exact h.congr rfl rfl

theorem State.Inv.noteUde (h : s.Inv) : s.noteUde.Inv := by
  unfold State.noteUde
  refine .ite ?_ h
  have hc : ({ s with env := { s.env with ude := false } } : State).Inv := h.congr rfl rfl
  split
  · exact h
  · exact h
  · exact hc.debugAfter _ _ _
  · exact hc.debugAfter _ _ _
  · exact hc.debugAfter _ _ _

theorem State.Inv.takeAsync (h : s.Inv) (k : IntKind) : (s.takeAsync k).Inv := by
  have hk (k : IntKind) (esr : Option Word) {u : State} (hu : u.Inv) : (u.enterAsync k false esr).Inv := hu.takeInterrupt _
  have hc : ({ s with env := { s.env with ude := false } } : State).Inv := h.congr rfl rfl
  have hn : ({ s with env := { s.env with nmi := s.env.nmi - 1 } } : State).Inv := h.congr rfl rfl
  cases k with
  | nmi => exact hk _ _ (hn.logMachineCheck _ _ _)
  | debug => exact .ite (hc.debugAfter _ _ _) (h.takeDebug _ _ _)
  | externalInput => exact State.Inv.congr (h.takeInterrupt _) rfl rfl
  | doorbell | doorbellCritical | guestDoorbell | guestDoorbellCritical | guestDoorbellMachineCheck =>
    exact hk _ _ (h.setDbell _ _)
  | _ => exact hk _ _ h

theorem State.Inv.afterEvents (h : s.Inv) (de : Bool) : (s.afterEvents de).Inv := h.debugAfter _ _ _

theorem State.Inv.recordIac (h : s.Inv) (a : DebugAction) : (s.recordIac a).Inv := by
  unfold State.recordIac
  refine .ite h ?_
  split
  · exact h.congr rfl rfl
  · exact h.congr rfl rfl
  · exact h
  · exact h
  · exact h

/-! ### Fetch -/

theorem runs_fetchPlaced (p : Placed) : Runs s (s.fetchPlaced p).2 := by
  unfold State.fetchPlaced
  split
  · exact .refl s
  · exact (Runs.refl s).readDevice _ _

theorem keepsInv_fetchError {o : Out} (h : s.fetch = .error o) : KeepsInv s o := by
  unfold State.fetch at h
  split at h
  · cases h
    exact fun hs => (hs.loadMasOnMiss _ _ _).takeInterrupt _
  · cases h
    exact ((Runs.refl s).multipleHit _ _).keepsInv
  · cases h
    exact fun hs => hs.takeInterrupt _
  · split at h
    · cases h
      exact ((Runs.refl s).errorReport _).keepsInv
    · cases h

theorem runs_fetch {w : Word} (h : s.fetch = .ok (w, t)) : Runs s t := by
  unfold State.fetch at h
  split at h
  · cases h
  · cases h
  · cases h
  · split at h
    · cases h
    · cases h
      exact runs_fetchPlaced _

theorem keepsInv_fetchExec (s : State) : KeepsInv s s.fetchExec.2 := by
  cases hf : s.fetch with
  | error o =>
    rw [fetchExec_error hf]
    exact keepsInv_fetchError hf
  | ok x =>
    obtain ⟨w, u⟩ := x
    have hu := runs_fetch hf
    cases hd : decode w with
    | error e =>
      rw [fetchExec_undecoded hf hd]
      exact fun hs => (hu.inv hs).takeInterrupt _
    | ok i =>
      rw [fetchExec_decoded hf hd]
      have hx := keepsInv_exec i u
      show KeepsInv s (exec i u)
      cases ho : exec i u with
      | next t =>
        rw [ho] at hx
        exact fun hs => hx (hu.inv hs)
      | fault | refused => trivial

theorem keepsInv_runFetched (s : State) : KeepsInv s s.runFetched.2 := by
  have h := keepsInv_fetchExec s
  rcases hx : s.fetchExec with ⟨i, o⟩
  rw [hx] at h
  cases o with
  | next t =>
    rw [runFetched_next hx]
    exact fun hs => (State.Inv.recordIac (h hs) _).afterEvents _
  | fault r =>
    rw [runFetched_fault hx]
    trivial
  | refused r =>
    rw [runFetched_refused hx]
    trivial

theorem keepsInv_runInstr (s : State) : KeepsInv s s.runInstr.2 := by
  have hr := keepsInv_runFetched s
  unfold State.runInstr
  split
  · split
    · exact hr
    · exact fun hs => hs.takeDebug _ _ _
  · split
    · exact hr
    · exact fun hs => hs.congr rfl rfl
  · exact hr
  · exact hr
  · exact hr

theorem keepsInv_act (s : State) : KeepsInv s s.act.2 := by
  unfold State.act
  split
  · split
    · exact fun hs => (hs.takeAsync _).afterEvents _
    · split
      · exact id
      · have hr := keepsInv_runInstr s.noteIac
        cases ho : s.noteIac.runInstr.2 with
        | next t =>
          rw [ho] at hr
          exact fun hs => hr (hs.congr rfl rfl)
        | fault | refused => trivial
  · exact id

/-- Settles O58: the start of the step, the instruction or interrupt, and the end of the step each keep the invariant. -/
theorem stepKeepsInvariant : Obligations.StepKeepsInvariant := by
  intro s t hs h
  have hb : s.beginStep.noteUde.Inv := hs.beginStep.noteUde
  have ha := keepsInv_act s.beginStep.noteUde
  rcases hx : s.beginStep.noteUde.act with ⟨i, o⟩
  rw [hx] at ha
  cases o with
  | next u =>
    rw [step_next hx] at h
    obtain rfl := Host.Outcome.next.inj h
    rw [closeStep_state]
    exact State.Inv.congr (ha hb) rfl rfl
  | fault f =>
    rw [step_fault hx] at h
    cases h
  | refused f =>
    rw [step_refused hx] at h
    cases h

end Sys2Proof.Machine


/-! Floating-point instructions: what they may change (O26), by one rule for each part of the end of an arithmetic
instruction. -/

namespace Sys2Proof.Machine

variable {s t u : State}

/-! ### FPSCR after exceptions -/

theorem fpRaise_getLsbD (exc f : Word) {i : Nat} (h29 : i ≠ 29) (h30 : i ≠ 30) (h31 : i ≠ 31) :
    (fpRaise exc f).getLsbD i = (f.getLsbD i || exc.getLsbD i) := by
  have hm : ∀ c : Bool, (maskIf c 0x80000000).getLsbD i = false := fun c => by
    cases c
    · exact BitVec.getLsbD_zero
    · by_cases hi : i < 32
      · interval_cases i <;> simp_all [maskIf]
      · exact BitVec.getLsbD_of_ge _ _ (by omega)
  rw [fpRaise, fpSummary_getLsbD _ h29 h30, BitVec.getLsbD_or, BitVec.getLsbD_or, hm, Bool.or_false]

/-- Words that agree bit by bit outside a mask. -/
theorem agreeBut_of_bits {m a b : Word} (h : ∀ i, m.getLsbD i = false → a.getLsbD i = b.getLsbD i) : agreeBut m a b := by
  refine BitVec.eq_of_getLsbD_eq fun i hi => ?_
  rw [BitVec.getLsbD_and, BitVec.getLsbD_and, BitVec.getLsbD_not, decide_eq_true hi, Bool.true_and]
  cases hm : m.getLsbD i
  · rw [h i hm]
  · simp

/-- Raising exceptions changes the exception bits and the summaries alone. -/
theorem agreeBut_fpRaise {exc : Word} (he : OnlyExceptions exc) (f : Word) : agreeBut 0xFFFFFF00 (fpRaise exc f) f := by
  refine agreeBut_of_bits fun i hi => ?_
  have hx : fpExceptions.getLsbD i = false := by
    by_cases h32 : i < 32
    · interval_cases i <;> simp_all [fpExceptions]
    · exact BitVec.getLsbD_of_ge _ _ (by omega)
  rw [fpRaise_getLsbD _ _ (by rintro rfl; simp at hi) (by rintro rfl; simp at hi) (by rintro rfl; simp at hi),
    he.getLsbD hx, Bool.or_false]

/-- No exception bit of f is 0 in g. -/
def Sticky (f g : Word) : Prop := ∀ i, fpExceptions.getLsbD i = true → f.getLsbD i = true → g.getLsbD i = true

theorem Sticky.trans {f g h : Word} (a : Sticky f g) (b : Sticky g h) : Sticky f h := fun i hi hf => b i hi (a i hi hf)

theorem Sticky.and_not {f g : Word} (h : Sticky f g) : f &&& fpExceptions &&& ~~~g = 0 := by
  refine BitVec.eq_of_getLsbD_eq fun i hi => ?_
  rw [BitVec.getLsbD_and, BitVec.getLsbD_and, BitVec.getLsbD_not, decide_eq_true hi, Bool.true_and,
    show (0 : Word).getLsbD i = false from BitVec.getLsbD_zero]
  cases hf : f.getLsbD i <;> cases hx : fpExceptions.getLsbD i <;> simp
  exact h i hx hf

theorem exceptions_lt {i : Nat} (h : fpExceptions.getLsbD i = true) : i < 29 := by
  by_contra hc
  have high : ∀ i < 32, 29 ≤ i → fpExceptions.getLsbD i = false := by decide
  have h2 : fpExceptions.getLsbD i = false := by
    by_cases h32 : i < 32
    · exact high i h32 (by omega)
    · exact BitVec.getLsbD_of_ge _ _ (by omega)
  simp [h2] at h

theorem sticky_fpRaise (exc f : Word) : Sticky f (fpRaise exc f) := fun i hi hf => by
  have hlt := exceptions_lt hi
  rw [fpRaise_getLsbD _ _ (by omega) (by omega) (by omega), hf, Bool.true_or]

theorem sticky_mix (f v : Word) {m : Word} (hm : m &&& fpExceptions = 0) : Sticky f (mix f v m) := fun i hi hf => by
  have hb : (m &&& fpExceptions).getLsbD i = false := by rw [hm]; exact BitVec.getLsbD_zero
  rw [BitVec.getLsbD_and, hi, Bool.and_true] at hb
  rw [mix, BitVec.getLsbD_or, BitVec.getLsbD_and, BitVec.getLsbD_and, BitVec.getLsbD_not, hb, hf,
    decide_eq_true (by have := exceptions_lt hi; omega : i < 32)]
  rfl

/-! ### What a computation may change -/

/-- What a part of an arithmetic instruction may change: its register and the status bits of FPSCR. -/
def fpEffect (frD : BitVec 5) (rc : Bool) : Effect := { fprs := [frD], cr := rcMask1 rc, fpscr := 0xFFFFFF00 }

structure FpRuns (frD : BitVec 5) (rc : Bool) (s t : State) : Prop where
  keeps : Keeps (fpEffect frD rc) s t
  mem   : t.mem = s.mem
  pc    : t.pc = s.pc
  sticky : Sticky s.fpscr t.fpscr

variable {frD : BitVec 5} {rc : Bool}

theorem FpRuns.refl (s : State) : FpRuns frD rc s s := ⟨.refl _ s, rfl, rfl, fun _ _ => id⟩

theorem FpRuns.setFpr (h : FpRuns frD rc s t) (v : DWord) : FpRuns frD rc s (t.setFpr frD v) :=
  ⟨h.keeps.trans (keeps_setFpr t v (List.mem_singleton_self _)), h.mem, h.pc, h.sticky⟩

theorem FpRuns.setFpscr (h : FpRuns frD rc s t) {f : Word} (hf : agreeBut 0xFFFFFF00 f t.fpscr) (hs : Sticky t.fpscr f) :
    FpRuns frD rc s (t.setFpscr f) :=
  ⟨h.keeps.trans (keeps_setFpscr t hf), h.mem, h.pc, h.sticky.trans hs⟩

theorem FpRuns.draw (h : FpRuns frD rc s t) (n : Nat) : FpRuns frD rc s { t with draws := n } :=
  ⟨h.keeps.trans (keeps_draws _ t n), h.mem, h.pc, h.sticky⟩

theorem FpRuns.withFprf (h : FpRuns frD rc s t) (c : BitVec 5) : FpRuns frD rc s (t.setFpscr (withFprf c t.fpscr)) :=
  h.setFpscr (agreeBut_mono (m := 0x0001F000) (by decide) (agreeBut_mix _ _ _)) (sticky_mix _ _ (by decide))

theorem FpRuns.withFrFi (h : FpRuns frD rc s t) (fr fi : Bool) :
    FpRuns frD rc s (t.setFpscr (withFrFi fr fi t.fpscr)) :=
  h.setFpscr (agreeBut_mono (m := 0x00060000) (by decide) (agreeBut_mix _ _ _)) (sticky_mix _ _ (by decide))

theorem FpRuns.raise (h : FpRuns frD rc s t) {exc : Word} (he : OnlyExceptions exc) :
    FpRuns frD rc s (t.setFpscr (fpRaise exc t.fpscr)) := h.setFpscr (agreeBut_fpRaise he _) (sticky_fpRaise _ _)

theorem FpRuns.putFp (h : FpRuns frD rc s t) (r : FpResult) (oof : Bool) : FpRuns frD rc s (t.putFp frD r oof) := by
  unfold State.putFp
  split
  · exact h
  · split
    · exact ((((h.draw _).draw _).setFpr _).withFprf _)
    · exact (h.setFpr _).withFprf _

theorem FpRuns.putFrFi (h : FpRuns frD rc s t) (fr : Option Bool) (fi : Bool) : FpRuns frD rc s (t.putFrFi fr fi) := by
  unfold State.putFrFi
  split
  · exact h.withFrFi _ _
  · exact (h.draw _).withFrFi _ _

/-! ### Their end -/

theorem recordFp_copies (t : State) : CopiesToCr1 rc (t.recordFp rc) := by
  rintro rfl n hn
  show bit (withCrField 1 (crField t.fpscr 0) t.cr) (36 + n) = _
  exact (withCrField_bit 1 _ _ hn).trans (crField_bit _ 0 hn)

theorem FpRuns.recordFp (h : FpRuns frD rc s t) : FpRuns frD rc s (t.recordFp rc) := by
  unfold State.recordFp
  split
  · next hc =>
    subst hc
    refine ⟨h.keeps.trans (keeps_setCr t (agreeBut_withCrField 1 _ t.cr)), h.mem,
      h.pc, h.sticky⟩
  · exact h

theorem recordFp_fpscr (rc : Bool) (t : State) : (t.recordFp rc).fpscr = t.fpscr := by
  unfold State.recordFp
  split <;> rfl

theorem fe_iff (s : State) : s.fe = false ↔ FeOff s := by
  unfold State.fe FeOff
  rw [Bool.or_eq_false_iff]

/-- An instruction that ends by raising exceptions and by the end of floating-point instructions computes. -/
theorem computes_of {i : Instr} {exc : Word} (h : FpRuns frD rc s t) (he : OnlyExceptions exc)
    (hx : exec i s = (t.setFpscr (fpRaise exc t.fpscr)).finishFp rc) : Computes i s frD rc := by
  have hu := (h.raise he).recordFp
  generalize hw : t.setFpscr (fpRaise exc t.fpscr) = w at *
  have hfp : (w.recordFp rc).fpscr = fpRaise exc t.fpscr := (recordFp_fpscr rc w).trans (by rw [← hw]; rfl)
  have hfe : (w.recordFp rc).fe = s.fe := by
    unfold State.fe
    rw [hu.keeps.msr rfl]
  refine ⟨w.recordFp rc, hu.pc, hu.keeps, storageKept_of_mem _ hu.mem, recordFp_copies w, hu.sticky.and_not, ?_, ?_, ?_⟩
  · rw [hfp]
    exact fpSummary_idem _
  · intro hc
    refine hx.trans (if_neg ?_)
    rw [hfe]
    rcases hc with hc | hc
    · simp [(fe_iff s).2 hc]
    · simp [hc]
  · rintro ⟨hc, hf⟩
    refine hx.trans (if_pos ?_)
    rw [hfe, hf, Bool.true_and, ← Bool.not_eq_false, ← fe_iff] at *
    exact hc

theorem computes_putResult {i : Instr} (h : FpRuns frD rc s t) {r : FpResult} (hr : OnlyExceptions r.exc) {oof : Bool}
    (hx : exec i s = t.putResult frD r oof rc) : Computes i s frD rc :=
  computes_of ((h.putFp r oof).putFrFi r.fr r.fi) hr hx

theorem computes_putEstimate {i : Instr} {r : FpResult} (hr : OnlyExceptions r.exc) {oof : Bool}
    (hx : exec i s = s.putEstimate frD r oof rc) : Computes i s frD rc :=
  computes_putResult (r := { r with fr := none, fi := s.drawBit.1, exc := r.exc &&& ~~~fpXX }) ((FpRuns.refl s).draw _)
    (hr.and _) hx

theorem computes_fpBinary {i : Instr} (hfp : bit s.msr 50 = true) {single : Bool} {op : FpVal → FpVal → FpExact}
    (hop : ∀ x y, (op x y).Sound) {a b : BitVec 5} (hx : exec i s = s.fpBinary single op frD a b rc) :
    Computes i s frD rc :=
  computes_putResult (.refl s) (conclude_exc (hop _ _) _ _ _) (hx.trans (needFp_ok hfp _))

theorem computes_fpFused {i : Instr} (hfp : bit s.msr 50 = true) {single sub neg : Bool} {a c b : BitVec 5}
    (hx : exec i s = s.fpFused single sub neg frD a c b rc) : Computes i s frD rc := by
  refine computes_putResult (.refl s) ?_ (hx.trans (needFp_ok hfp _))
  split
  · rw [FpResult.negate_exc]
    exact conclude_exc (fpMulAdd_sound _ _ _ _) _ _ _
  · exact conclude_exc (fpMulAdd_sound _ _ _ _) _ _ _

theorem computes_fpConvert {i : Instr} (hfp : bit s.msr 50 = true) {rn : BitVec 2} {b : BitVec 5}
    (hx : exec i s = s.fpConvert rn frD b rc) : Computes i s frD rc := by
  have hd : FpRuns frD rc s s.drawWord.2.drawFprf.2 := ((FpRuns.refl s).draw _).draw _
  have hw : FpRuns frD rc s (if (toIntWord rn (s.operand false b)).exc &&& fpInvalid ≠ 0 ∧ bit s.fpscr 56 then
      s.drawWord.2.drawFprf.2
    else s.drawWord.2.drawFprf.2.setFpr frD (s.drawWord.1 ++ (toIntWord rn (s.operand false b)).res)) := by
    split
    · exact hd
    · exact hd.setFpr _
  exact computes_of ((hw.withFprf s.drawWord.2.drawFprf.1).withFrFi _ _) (toIntWord_exc _ _) (hx.trans (needFp_ok hfp _))

/-! ### The operations on one operand -/

/-- The exact result of fres, special operands included. -/
def fresExact (x : DWord) : FpExact :=
  match unpack x with
  | .nan => .nan
  | .inf t => .zero t
  | .num t m _ => if m = 0 then .zeroDivide t else fresEstimate x

/-- The exact result of frsqrte. -/
def frsqrteExact (x : DWord) : FpExact :=
  match unpack x with
  | .nan => .nan
  | .inf t => if t then .invalid fpVXSQRT else .zero false
  | .num t m _ => if m = 0 then .zeroDivide t else if t then .invalid fpVXSQRT else frsqrteEstimate x

/-- The exact result of frsp: the operand. -/
def frspExact (x : DWord) : FpExact :=
  match unpack x with
  | .nan => .nan
  | .inf t => .inf t
  | .num t m e => exactOf t m e

theorem fresExact_sound (x : DWord) : (fresExact x).Sound := by
  unfold fresExact
  split
  · exact FpExact.sound_of_isNan
  · exact FpExact.sound_zero _
  · exact .ite (FpExact.sound_zeroDivide _) (fresEstimate_sound _)

theorem frsqrteExact_sound (x : DWord) : (frsqrteExact x).Sound := by
  have hi : (FpExact.invalid fpVXSQRT).Sound := FpExact.sound_invalid (by decide)
  unfold frsqrteExact
  split
  · exact FpExact.sound_of_isNan
  · exact .ite hi (FpExact.sound_zero _)
  · exact .ite (FpExact.sound_zeroDivide _) (.ite hi (frsqrteEstimate_sound _))

theorem frspExact_sound (x : DWord) : (frspExact x).Sound := by
  unfold frspExact
  split
  · exact FpExact.sound_of_isNan
  · exact FpExact.sound_inf _
  · exact exactOf_sound _ _ _

theorem exec_fres (hfp : bit s.msr 50 = true) (b : BitVec 5) : exec (.fres frD b rc) s =
    s.putEstimate frD (conclude fpSingle s.fpscr [s.operand true b] (fresExact (s.operand true b)))
      (s.outOfFormat true [b]) rc := needFp_ok hfp _

theorem exec_frsqrte (hfp : bit s.msr 50 = true) (b : BitVec 5) : exec (.frsqrte frD b rc) s =
    s.putEstimate frD (conclude fpDouble s.fpscr [s.operand false b] (frsqrteExact (s.operand false b))) false rc :=
  needFp_ok hfp _

theorem exec_frsp (hfp : bit s.msr 50 = true) (b : BitVec 5) : exec (.frsp frD b rc) s =
    s.putResult frD (conclude fpSingle s.fpscr [s.operand false b] (frspExact (s.operand false b))) false rc :=
  needFp_ok hfp _

/-- Settles O26: each ends in delivering a result, whose exceptions are exception bits. -/
theorem floatComputes : Obligations.FloatComputes := by
  intro s d a b c rc hfp
  refine ⟨computes_fpBinary hfp (fun _ _ => fpAdd_sound _ _ _) rfl, computes_fpBinary hfp (fun _ _ => fpAdd_sound _ _ _) rfl,
    computes_fpBinary hfp (fun _ _ => fpAdd_sound _ _ _) rfl, computes_fpBinary hfp (fun _ _ => fpAdd_sound _ _ _) rfl,
    computes_fpBinary hfp fpMul_sound rfl, computes_fpBinary hfp fpMul_sound rfl, computes_fpBinary hfp fpDiv_sound rfl,
    computes_fpBinary hfp fpDiv_sound rfl, ?_, ?_, computes_fpFused hfp rfl, computes_fpFused hfp rfl,
    computes_fpFused hfp rfl, computes_fpFused hfp rfl, computes_fpFused hfp rfl, computes_fpFused hfp rfl,
    computes_fpFused hfp rfl, computes_fpFused hfp rfl, ?_, computes_fpConvert hfp rfl, computes_fpConvert hfp rfl⟩
  · exact computes_putEstimate (conclude_exc (fresExact_sound _) _ _ _) (exec_fres hfp b)
  · exact computes_putEstimate (conclude_exc (frsqrteExact_sound _) _ _ _) (exec_frsqrte hfp b)
  · exact computes_putResult (.refl s) (conclude_exc (frspExact_sound _) _ _ _) (exec_frsp hfp b)

end Sys2Proof.Machine


/-! The fields of doubles, and the moves: fmr to fsel, mffs (42 sections 2, 6 and 7). -/

namespace Sys2Proof.Machine

variable {s t u : State} {frD : BitVec 5} {rc : Bool}

/-! ### The fields of a double -/

theorem dExp_lt (d : DWord) : dExp d < 2048 := (d.extractLsb' 52 11).isLt
theorem dFrac_lt (d : DWord) : dFrac d < 2 ^ 52 := (d.setWidth 52).isLt

theorem dExp_eq (d : DWord) : dExp d = d.toNat / 2 ^ 52 % 2 ^ 11 := by
  unfold dExp
  rw [BitVec.extractLsb'_toNat, Nat.shiftRight_eq_div_pow]

theorem dFrac_eq (d : DWord) : dFrac d = d.toNat % 2 ^ 52 := BitVec.toNat_setWidth ..

/-- The magnitude of a double is its exponent and its fraction. -/
theorem low63_toNat (d : DWord) : (d.setWidth 63).toNat = dExp d * 2 ^ 52 + dFrac d := by
  rw [BitVec.toNat_setWidth, dExp_eq, dFrac_eq]
  omega

theorem msb_iff (d : DWord) : d.msb = true ↔ 2 ^ 63 ≤ d.toNat := by rw [BitVec.msb_eq_decide, decide_eq_true_iff]

theorem low63_eq_zero (d : DWord) : d.setWidth 63 = 0 ↔ dExp d = 0 ∧ dFrac d = 0 := by
  rw [← BitVec.toNat_inj, low63_toNat]
  simp only [BitVec.ofNat_eq_ofNat, BitVec.toNat_ofNat, Nat.zero_mod]
  omega

theorem isNan_iff (d : DWord) : isNan d = true ↔ d.extractLsb' 52 11 = 2047 ∧ d.setWidth 52 ≠ 0 := by
  unfold isNan dExp dFrac
  rw [Bool.and_eq_true, decide_eq_true_iff, decide_eq_true_iff, ← BitVec.toNat_inj, Ne, Ne, ← BitVec.toNat_inj]
  rfl

theorem isNan_iff_fields (d : DWord) : isNan d = true ↔ dExp d = 2047 ∧ dFrac d ≠ 0 := by
  unfold isNan
  rw [Bool.and_eq_true, decide_eq_true_iff, decide_eq_true_iff]

/-- Two doubles with the same fields are the same. -/
theorem double_ext {c d : DWord} (hs : c.msb = d.msb) (hl : c.setWidth 63 = d.setWidth 63) : c = d := by
  have hl' := congrArg BitVec.toNat hl
  rw [BitVec.toNat_setWidth, BitVec.toNat_setWidth] at hl'
  have hm : 2 ^ 63 ≤ c.toNat ↔ 2 ^ 63 ≤ d.toNat := by rw [← msb_iff, ← msb_iff, hs]
  have h1 := c.isLt
  have h2 := d.isLt
  exact BitVec.eq_of_toNat_eq (by omega)

/-! ### Operands in non-IEEE mode (R909) -/

/-- A zero of the operand's sign. -/
theorem and_sign (d : DWord) : (d &&& 0x8000000000000000).msb = d.msb ∧ (d &&& 0x8000000000000000).setWidth 63 = 0 := by
  constructor
  · rw [BitVec.msb_and, show (0x8000000000000000 : DWord).msb = true by decide, Bool.and_true]
  · rw [BitVec.setWidth_and, show (0x8000000000000000 : DWord).setWidth 63 = 0 from rfl]
    exact BitVec.and_zero

theorem flushOperand_eq (ni single : Bool) (d : DWord) : flushOperand ni single d =
    if ni = true ∧ dExp d < (if single then 897 else 1) then d &&& 0x8000000000000000 else d := by
  unfold flushOperand
  simp only [Bool.and_eq_true, decide_eq_true_iff]

theorem flushOperand_msb (ni single : Bool) (d : DWord) : (flushOperand ni single d).msb = d.msb := by
  rw [flushOperand_eq]
  by_cases h : ni = true ∧ dExp d < (if single then 897 else 1)
  · rw [if_pos h]
    exact (and_sign d).1
  · rw [if_neg h]

/-- Of a double operand a denormal is replaced. -/
theorem flushOperand_zero_iff (ni : Bool) (d : DWord) :
    (flushOperand ni false d).setWidth 63 = 0 ↔ d.setWidth 63 = 0 ∨ (ni = true ∧ dExp d = 0) := by
  rw [flushOperand_eq]
  by_cases h : ni = true ∧ dExp d < (if false then 897 else 1)
  · rw [if_pos h]
    exact iff_of_true (and_sign d).2 (.inr ⟨h.1, Nat.lt_one_iff.1 h.2⟩)
  · rw [if_neg h]
    exact ⟨.inl, fun hc => hc.resolve_right fun ⟨h1, h2⟩ => h ⟨h1, Nat.lt_one_iff.2 h2⟩⟩

theorem flushOperand_of_exp {ni single : Bool} {d : DWord} (h : 897 ≤ dExp d ∨ ni = false) : flushOperand ni single d = d := by
  rw [flushOperand_eq, if_neg]
  rintro ⟨h1, h2⟩
  rcases h with h | h
  · split at h2 <;> omega
  · rw [h] at h1
    cases h1

theorem isNan_flushOperand (ni single : Bool) (d : DWord) : isNan (flushOperand ni single d) = isNan d := by
  rw [flushOperand_eq]
  by_cases h : ni = true ∧ dExp d < (if single then 897 else 1)
  · have hd : dExp d < 897 := by
      obtain ⟨-, h2⟩ := h
      split at h2 <;> omega
    have hz := ((low63_eq_zero _).1 (and_sign d).2).1
    rw [if_pos h, Bool.eq_iff_iff, isNan_iff_fields, isNan_iff_fields]
    omega
  · rw [if_neg h]

/-! ### The order of values (R932) -/

/-- The magnitude by which values are ordered. -/
def keyMagnitude (d : DWord) : Nat :=
  if dExp d = 2047 then 2 ^ 2200 else if dExp d = 0 then dFrac d else (2 ^ 52 + dFrac d) * 2 ^ (dExp d - 1)

theorem key_eq {d : DWord} (h : isNan d = false) :
    (unpack d).key = if d.msb then -(keyMagnitude d : Int) else (keyMagnitude d : Int) := by
  have hn : ¬(dExp d = 2047 ∧ dFrac d ≠ 0) := by
    rw [← isNan_iff_fields, h]
    simp
  unfold unpack keyMagnitude
  split
  · next he =>
    rw [if_pos (by_contra fun hc => hn ⟨he, hc⟩)]
    simp only [FpVal.key]
    rw [Nat.cast_pow]
    rfl
  · split
    · simp only [FpVal.key]
      norm_num
    · next h0 =>
      have hk : ((dExp d : Int) - 1075 + 1074).toNat = dExp d - 1 := by omega
      simp only [FpVal.key, hk, Nat.shiftLeft_eq]

theorem keyMagnitude_eq_zero {d : DWord} : keyMagnitude d = 0 ↔ d.setWidth 63 = 0 := by
  rw [low63_eq_zero]
  unfold keyMagnitude
  split
  · next h => exact iff_of_false (pow_ne_zero _ two_ne_zero) (by omega)
  · split
    · next h => exact ⟨fun hf => ⟨h, hf⟩, And.right⟩
    · next h => exact iff_of_false (mul_ne_zero (by omega) (pow_ne_zero _ two_ne_zero)) (by omega)

/-- A number that is no NaN is at least 0 if it is positive or a zero. -/
theorem key_nonneg {d : DWord} (h : isNan d = false) : 0 ≤ (unpack d).key ↔ d.msb = false ∨ d.setWidth 63 = 0 := by
  rw [key_eq h, ← keyMagnitude_eq_zero]
  cases d.msb <;> simp

/-! ### Moves -/

/-- A move: the register and with Rc CR1. -/
theorem movesFpr_of {i : Instr} (hfp : bit s.msr 50 = true) {n : Nat} {v : DWord} {p : DWord → Prop}
    (hx : exec i s = State.fpMove frD v rc { s with draws := n }) (hp : p v) : MovesFpr i s frD rc p := by
  have hw : ∀ {w : State}, w.mem = s.mem → w.pc = s.pc → Keeps { fprs := [frD], cr := rcMask1 rc } s w →
      w.getFpr frD = v → exec i s = (w.recordFp rc).finish → MovesFpr i s frD rc p := by
    intro w hm hpc hk hv hx
    refine does_finish hx ?_ (hk.trans ?_) (storageKept_of_mem _ ?_) ⟨?_, ?_⟩
    · unfold State.recordFp
      split <;> exact hpc
    · unfold State.recordFp
      split
      · next hc =>
        subst hc
        exact keeps_setCr w (agreeBut_withCrField 1 _ w.cr)
      · exact .refl _ _
    · unfold State.recordFp
      split <;> exact hm
    · show p ((w.recordFp rc).getFpr frD)
      rwa [show (w.recordFp rc).getFpr frD = w.getFpr frD by unfold State.recordFp; split <;> rfl, hv]
    · exact recordFp_copies w
  refine hw (w := State.setFpr frD v { s with draws := n }) rfl rfl
    ((keeps_draws _ s n).trans (keeps_setFpr _ v (List.mem_singleton_self _))) ?_ (hx.trans (needFp_ok (s := { s with draws := n }) hfp _))
  rw [State.getFpr_setFpr, if_pos rfl]

theorem fneg_fields (b : DWord) :
    (b ^^^ 0x8000000000000000).msb = !b.msb ∧ (b ^^^ 0x8000000000000000).setWidth 63 = b.setWidth 63 := by
  constructor
  · rw [BitVec.msb_xor, show (0x8000000000000000 : DWord).msb = true by decide, Bool.xor_true]
  · rw [BitVec.setWidth_xor, show (0x8000000000000000 : DWord).setWidth 63 = 0 from rfl]
    simp

theorem fabs_fields (b : DWord) :
    (b &&& 0x7FFFFFFFFFFFFFFF).msb = false ∧ (b &&& 0x7FFFFFFFFFFFFFFF).setWidth 63 = b.setWidth 63 := by
  constructor
  · rw [BitVec.msb_and, show (0x7FFFFFFFFFFFFFFF : DWord).msb = false by decide, Bool.and_false]
  · rw [BitVec.setWidth_and, show (0x7FFFFFFFFFFFFFFF : DWord).setWidth 63 = BitVec.allOnes 63 by decide +kernel,
      BitVec.and_allOnes]

theorem fnabs_fields (b : DWord) :
    (b ||| 0x8000000000000000).msb = true ∧ (b ||| 0x8000000000000000).setWidth 63 = b.setWidth 63 := by
  constructor
  · rw [BitVec.msb_or, show (0x8000000000000000 : DWord).msb = true by decide, Bool.or_true]
  · rw [BitVec.setWidth_or, show (0x8000000000000000 : DWord).setWidth 63 = 0 from rfl]
    simp

/-- fsel's test. -/
theorem fsel_test (s : State) (a : BitVec 5) :
    (!isNan (s.operand false a) && decide (0 ≤ (unpack (s.operand false a)).key)) = true ↔
      isNan (s.getFpr a) = false ∧ ((s.getFpr a).msb = false ∨ (s.getFpr a).setWidth 63 = 0 ∨
        (bit s.fpscr 61 = true ∧ (s.getFpr a).extractLsb' 52 11 = 0)) := by
  have hexp : (s.getFpr a).extractLsb' 52 11 = 0 ↔ dExp (s.getFpr a) = 0 := by
    unfold dExp
    rw [← BitVec.toNat_inj]
    rfl
  unfold State.operand
  rw [Bool.and_eq_true, Bool.not_eq_true', decide_eq_true_iff, isNan_flushOperand]
  refine and_congr_right fun hn => ?_
  rw [key_nonneg ((isNan_flushOperand _ _ _).trans hn), flushOperand_msb, flushOperand_zero_iff, hexp]

/-- Settles O25: each move writes its register; fsel by its test. -/
theorem floatMoves : Obligations.FloatMoves := by
  intro s frD frA frB frC rc hfp a b nan zero
  have hsel := fsel_test s frA
  have hn : isNan a = true ↔ nan := isNan_iff a
  refine ⟨movesFpr_of hfp (n := s.draws) rfl rfl, movesFpr_of hfp (n := s.draws) rfl (fneg_fields b),
    movesFpr_of hfp (n := s.draws) rfl (fabs_fields b), movesFpr_of hfp (n := s.draws) rfl (fnabs_fields b),
    fun h => ?_, fun h => ?_, movesFpr_of hfp (n := s.draws + 1) rfl ?_⟩
  · refine movesFpr_of hfp (n := s.draws) (v := s.getFpr frC) (congrArg (fun v => s.fpMove frD v rc) (if_pos ?_)) rfl
    exact hsel.2 ⟨by rw [← Bool.not_eq_true, hn]; exact h.1, h.2⟩
  · refine movesFpr_of hfp (n := s.draws) (v := b) (congrArg (fun v => s.fpMove frD v rc) (if_neg ?_)) rfl
    rw [hsel]
    rintro ⟨h1, h2⟩
    rcases h with h | ⟨hm, hz⟩
    · rw [← hn, h1] at h
      cases h
    · rcases h2 with h2 | h2
      · rw [hm] at h2
        cases h2
      · exact hz h2
  · show (s.drawWord.1 ++ s.fpscr).setWidth 32 = s.fpscr
    exact BitVec.setWidth_append_eq_right

end Sys2Proof.Machine


/-! The moves to and from FPSCR (42 R935 to R939). -/

namespace Sys2Proof.Machine

variable {s t u : State}

theorem finishFp_off {rc : Bool} (h : FeOff t) : t.finishFp rc = (t.recordFp rc).finish := by
  refine if_neg ?_
  have hm : (t.recordFp rc).fe = t.fe := by
    unfold State.recordFp
    split <;> rfl
  rw [hm, (fe_iff t).2 h, Bool.and_false]
  exact Bool.false_ne_true

theorem keeps_recordFp (rc : Bool) (f : Word) (t : State) : Keeps { cr := rcMask1 rc, fpscr := f } t (t.recordFp rc) := by
  unfold State.recordFp
  split
  · next hc =>
    subst hc
    exact keeps_setCr t (agreeBut_withCrField 1 _ t.cr)
  · exact .refl _ _

theorem recordFp_pc (rc : Bool) (t : State) : (t.recordFp rc).pc = t.pc := by
  unfold State.recordFp
  split <;> rfl

theorem recordFp_mem (rc : Bool) (t : State) : (t.recordFp rc).mem = t.mem := by
  unfold State.recordFp
  split <;> rfl

/-- An instruction that writes FPSCR and with Rc CR1. -/
theorem does_setFpscr {i : Instr} {rc : Bool} {f m : Word} {p : State → Prop} (hx : exec i s = ((s.setFpscr f).recordFp rc).finish)
    (hm : agreeBut m f s.fpscr) (hp : p ((s.setFpscr f).recordFp rc).advance) :
    Does i s { cr := rcMask1 rc, fpscr := m } [] p :=
  does_finish hx (recordFp_pc rc _) ((keeps_setFpscr s hm).trans (keeps_recordFp rc m _))
    (storageKept_of_mem _ (recordFp_mem rc _)) hp

theorem bit_fpSummary (f : Word) {n : Nat} (h1 : n ≠ 1) (h2 : n ≠ 2) (hn : n < 32) :
    bit (fpSummary f) (32 + n) = bit f (32 + n) := fpSummary_bit f (by omega) (by omega) (by omega)

/-- The bits of FPSCR that a move may write: all but FEX, VX and the reserved one. -/
theorem bit_definedFpscr : ∀ n < 32, n ≠ 1 → n ≠ 2 → n ≠ 20 → bit (0x9FFFF7FF : Word) (32 + n) = true := by decide

/-- A move that writes the bits of a mask. -/
theorem does_writeFpscr {i : Instr} {rc : Bool} {v m : Word} {f : Nat → Bool} (hc : fpscrConsistent s.fpscr)
    (hx : exec i s = ((s.writeFpscr v m).recordFp rc).finish)
    (hf : ∀ n, n < 32 → n ≠ 1 → n ≠ 2 → n ≠ 20 → (if bit m (32 + n) then bit v (32 + n) else bit s.fpscr (32 + n)) = f n) :
    Does i s { cr := rcMask1 rc, fpscr := 0xFFFFFFFF } [] fun t =>
      (∀ n, n < 32 → n ≠ 1 → n ≠ 2 → n ≠ 20 → bit t.fpscr (32 + n) = f n) ∧ fpscrConsistent t.fpscr ∧ CopiesToCr1 rc t := by
  have hw := recordFp_fpscr rc (s.writeFpscr v m)
  refine does_setFpscr hx (agreeBut_all _ _) ⟨fun n hn h1 h2 h20 => ?_, ?_, recordFp_copies _⟩
  · show bit ((s.writeFpscr v m).recordFp rc).fpscr (32 + n) = _
    have hdef := bit_definedFpscr n hn h1 h2 h20
    rw [hw, ← hf n hn h1 h2 h20]
    show bit (fpSummary (mix s.fpscr v (m &&& 0x9FFFF7FF))) (32 + n) = _
    rw [bit_fpSummary _ h1 h2 hn, bit_mix, show bit (m &&& 0x9FFFF7FF) (32 + n) = bit m (32 + n) by
      unfold bit at *
      rw [BitVec.getLsbD_and, hdef, Bool.and_true]]
  · show fpscrConsistent ((s.writeFpscr v m).recordFp rc).fpscr
    rw [hw]
    exact fpSummary_consistent (reservedClear_mix hc.reservedClear _ _ (by
      rw [BitVec.getLsbD_and, show (0x9FFFF7FF : Word).getLsbD 11 = false from rfl, Bool.and_false]))

/-! ### The masks -/

theorem fieldMask_bit : ∀ (c : BitVec 3) (n : Fin 32),
    bit ((0xF : Word) <<< (28 - 4 * c.toNat)) (32 + n) = decide ((n : Nat) / 4 = c.toNat) := by decide +kernel

theorem imm_bit : ∀ (c : BitVec 3) (imm : BitVec 4) (n : Fin 32), (n : Nat) / 4 = c.toNat →
    bit ((imm.setWidth 32 : Word) <<< (28 - 4 * c.toNat)) (32 + n) = imm.getLsbD (3 - n % 4) := by decide +kernel

theorem oneBit_bit : ∀ (c : BitVec 5) (n : Fin 32),
    bit ((0x80000000 : Word) >>> c.toNat) (32 + n) = decide ((n : Nat) = c.toNat) := by decide +kernel

theorem cleared_bit : ∀ (c : BitVec 3) (n : Fin 32),
    bit (((0xF : Word) <<< (28 - 4 * c.toNat)) &&& (fpExceptions ||| 0x80000000)) (32 + n) =
      decide ((n : Nat) / 4 = c.toNat ∧ ((n : Nat) = 0 ∨ bit fpExceptions (32 + n) = true)) := by decide +kernel

/-- A word and one bit. -/
theorem oneBit_and_ne_zero (c : BitVec 5) (w : Word) :
    ((((0x80000000 : Word) >>> c.toNat) &&& w) != 0) = bit w (32 + c.toNat) := by
  have hc := c.isLt
  rw [Bool.eq_iff_iff, bne_iff_ne, Ne]
  constructor
  · intro h
    by_contra hb
    refine h (BitVec.eq_of_getLsbD_eq fun i hi => ?_)
    rw [BitVec.getLsbD_and, show (0 : Word).getLsbD i = false from BitVec.getLsbD_zero]
    have ho := oneBit_bit c ⟨31 - i, by omega⟩
    rw [show bit ((0x80000000 : Word) >>> c.toNat) (32 + (31 - i)) = ((0x80000000 : Word) >>> c.toNat).getLsbD i by
      unfold bit; congr 1; omega] at ho
    rw [ho]
    by_cases he : 31 - i = c.toNat
    · rw [show w.getLsbD i = bit w (32 + c.toNat) by unfold bit; congr 1; omega, (Bool.not_eq_true _).mp hb, Bool.and_false]
    · rw [decide_eq_false he, Bool.false_and]
  · intro h hz
    have hb : bit (((0x80000000 : Word) >>> c.toNat) &&& w) (32 + c.toNat) = true := by
      have ho := oneBit_bit c ⟨c.toNat, by omega⟩
      unfold bit at *
      rw [BitVec.getLsbD_and, ho, h]
      simp
    rw [hz, show bit (0 : Word) (32 + c.toNat) = false from BitVec.getLsbD_zero] at hb
    cases hb

/-- The bits that mtfsb1 leaves. -/
theorem mtfsb1_bit (c : BitVec 5) (f : Word) {n : Nat} (hn : n < 32) (h1 : n ≠ 1) (h2 : n ≠ 2) (h20 : n ≠ 20) :
    bit (fpRaise (((0x80000000 : Word) >>> c.toNat) &&& 0x9FFFF7FF) f) (32 + n) =
      if n = c.toNat ∨ (n = 0 ∧ bit fpExceptions (32 + c.toNat) = true ∧ bit f (32 + c.toNat) = false) then true
      else bit f (32 + n) := by
  have hc := c.isLt
  have hdef := bit_definedFpscr n hn h1 h2 h20
  have hb : bit (((0x80000000 : Word) >>> c.toNat) &&& 0x9FFFF7FF) (32 + n) = decide (n = c.toNat) := by
    have ho := oneBit_bit c ⟨n, hn⟩
    unfold bit at *
    rw [BitVec.getLsbD_and, hdef, Bool.and_true, ho]
  have hx : ((((0x80000000 : Word) >>> c.toNat) &&& 0x9FFFF7FF &&& ~~~f &&& fpExceptions) != 0) =
      (bit fpExceptions (32 + c.toNat) && !bit f (32 + c.toNat)) := by
    rw [BitVec.and_assoc, BitVec.and_assoc, oneBit_and_ne_zero]
    have hin : ∀ k : Fin 32, bit fpExceptions (32 + k) = true → bit (0x9FFFF7FF : Word) (32 + k) = true := by decide +kernel
    have hin' := hin ⟨c.toNat, hc⟩
    unfold bit at *
    rw [BitVec.getLsbD_and, BitVec.getLsbD_and, BitVec.getLsbD_not, decide_eq_true (by omega), Bool.true_and]
    simp only at hin'
    cases he : fpExceptions.getLsbD (63 - (32 + c.toNat))
    · simp
    · rw [hin' he]
      simp
  have hm : ∀ b : Bool, bit (maskIf b 0x80000000) (32 + n) = (b && decide (n = 0)) := fun b => by
    cases b
    · exact BitVec.getLsbD_zero
    · exact oneBit_bit 0 ⟨n, hn⟩
  unfold fpRaise
  rw [bit_fpSummary _ h1 h2 hn, bit_or, bit_or, hb, hm, hx]
  by_cases hnc : n = c.toNat
  · simp [hnc]
  · by_cases h0 : n = 0
    · subst h0
      simp only [hnc, decide_false, Bool.or_false, decide_true, Bool.and_true, false_or, true_and]
      cases bit fpExceptions (32 + c.toNat) <;> cases bit f (32 + c.toNat) <;> simp
    · simp [hnc, h0]

/-- Settles O32: each move by the bits of what it writes. -/
theorem fpscrMoves : Obligations.FpscrMoves := by
  intro s crfD crfS imm fm crb frB rc hfp hfe hc sets old exception
  have hoff (v m : Word) : (s.writeFpscr v m).finishFp rc = ((s.writeFpscr v m).recordFp rc).finish := finishFp_off hfe
  refine ⟨?_, ?_, ?_, ?_, ?_⟩
  · refine does_finish (needFp_ok hfp _) rfl ((keeps_setCr s (agreeBut_withCrField ..)).trans
      (keeps_setFpscr _ (agreeBut_all _ _))) (storageKept_of_mem _ rfl) ⟨fun n hn h1 h2 h20 => ?_, ?_, fun n hn => ?_⟩
    · show bit (fpSummary (s.fpscr &&& ~~~(_ &&& _))) (32 + n) = _
      have hcl := cleared_bit crfS ⟨n, hn⟩
      rw [bit_fpSummary _ h1 h2 hn]
      unfold bit at *
      rw [BitVec.getLsbD_and, BitVec.getLsbD_not, hcl, decide_eq_true (by omega), Bool.true_and]
      by_cases hk : n / 4 = crfS.toNat ∧ (n = 0 ∨ fpExceptions.getLsbD (63 - (32 + n)) = true)
      · rw [decide_eq_true hk, Bool.not_true, Bool.and_false]
        exact (if_pos hk).symm
      · rw [decide_eq_false hk, Bool.not_false, Bool.and_true]
        exact (if_neg hk).symm
    · refine fpSummary_consistent ?_
      rw [reservedClear, BitVec.getLsbD_and, show s.fpscr.getLsbD 11 = false from hc.reservedClear, Bool.false_and]
    · exact (withCrField_bit crfD _ _ hn).trans (crField_bit _ _ hn)
  · refine does_writeFpscr hc ((needFp_ok hfp _).trans (hoff _ _)) fun n hn h1 h2 h20 => ?_
    rw [fieldMask_bit crfD ⟨n, hn⟩]
    by_cases hk : n / 4 = crfD.toNat
    · rw [if_pos (decide_eq_true hk), if_pos hk]
      exact imm_bit crfD imm ⟨n, hn⟩ hk
    · rw [if_neg (by simpa using hk), if_neg hk]
  · refine does_writeFpscr hc ((needFp_ok hfp _).trans (hoff _ _)) fun n hn h1 h2 h20 => ?_
    rw [crmMask_bit fm ⟨n, hn⟩]
    split
    · unfold bit
      rw [BitVec.getLsbD_setWidth, decide_eq_true (by omega), Bool.true_and]
      congr 1
      omega
    · rfl
  · refine does_writeFpscr hc (needFp_ok hfp _) fun n hn h1 h2 h20 => ?_
    rw [oneBit_bit crb ⟨n, hn⟩]
    by_cases hk : n = crb.toNat
    · rw [if_pos (decide_eq_true hk), if_pos hk]
      exact BitVec.getLsbD_zero
    · rw [if_neg (by simpa using hk), if_neg hk]
  · refine does_setFpscr ((needFp_ok hfp _).trans (finishFp_off hfe)) (agreeBut_all _ _)
      ⟨fun n hn h1 h2 h20 => ?_, ?_, recordFp_copies _⟩
    · exact (congrArg (bit · (32 + n)) (recordFp_fpscr rc _)).trans (mtfsb1_bit crb s.fpscr hn h1 h2 h20)
    · refine (congrArg fpscrConsistent (recordFp_fpscr rc _)).mpr (fpRaise_consistent hc.reservedClear ?_)
      rw [BitVec.getLsbD_and, show (0x9FFFF7FF : Word).getLsbD 11 = false from rfl, Bool.and_false]

end Sys2Proof.Machine


/-! What an arithmetic instruction leaves when no enabled exception interrupts it: its result, FR, FI, FPRF and the
exceptions of the result (42 R903, R904). -/

namespace Sys2Proof.Machine

variable {s t u : State} {frD : BitVec 5} {rc : Bool}

/-! ### FPSCR after a result -/

theorem mix_getLsbD (f v m : Word) {i : Nat} (hi : i < 32) :
    (mix f v m).getLsbD i = if m.getLsbD i then v.getLsbD i else f.getLsbD i := by
  rw [mix, BitVec.getLsbD_or, BitVec.getLsbD_and, BitVec.getLsbD_and, BitVec.getLsbD_not, decide_eq_true hi]
  cases m.getLsbD i <;> simp

/-- Raising exceptions leaves the bits that are neither exceptions nor summaries. -/
theorem fpRaise_of_clear {exc : Word} (he : OnlyExceptions exc) (f : Word) {i : Nat} (hi : i < 29)
    (hx : fpExceptions.getLsbD i = false) : (fpRaise exc f).getLsbD i = f.getLsbD i := by
  rw [fpRaise_getLsbD _ _ (by omega) (by omega) (by omega), he.getLsbD hx, Bool.or_false]

theorem fpRaise_sets {exc : Word} (he : OnlyExceptions exc) (f : Word) {i : Nat} (hi : exc.getLsbD i = true) :
    (fpRaise exc f).getLsbD i = true := by
  have hx : fpExceptions.getLsbD i = true := by
    by_contra hc
    rw [he.getLsbD (Bool.eq_false_iff.2 hc)] at hi
    cases hi
  have hlt := exceptions_lt hx
  rw [fpRaise_getLsbD _ _ (by omega) (by omega) (by omega), hi, Bool.or_true]

theorem fpRaise_and {exc : Word} (he : OnlyExceptions exc) (f : Word) : fpRaise exc f &&& exc = exc := by
  refine BitVec.eq_of_getLsbD_eq fun i _ => ?_
  rw [BitVec.getLsbD_and]
  cases hi : exc.getLsbD i
  · rw [Bool.and_false]
  · rw [fpRaise_sets he f hi, Bool.and_true]

theorem withFrFi_fr (fr fi : Bool) (f : Word) : (withFrFi fr fi f).getLsbD 18 = fr := by
  rw [withFrFi, mix_getLsbD _ _ _ (by decide)]
  cases fr <;> cases fi <;> rfl

theorem withFrFi_fi (fr fi : Bool) (f : Word) : (withFrFi fr fi f).getLsbD 17 = fi := by
  rw [withFrFi, mix_getLsbD _ _ _ (by decide)]
  cases fr <;> cases fi <;> rfl

theorem withFrFi_fprf (fr fi : Bool) (f : Word) : (withFrFi fr fi f).extractLsb' 12 5 = f.extractLsb' 12 5 := by
  refine BitVec.eq_of_getLsbD_eq fun i hi => ?_
  rw [BitVec.getLsbD_extractLsb', BitVec.getLsbD_extractLsb', withFrFi, mix_getLsbD _ _ _ (by omega)]
  interval_cases i <;> rfl

theorem withFprf_fprf (c : BitVec 5) (f : Word) : (withFprf c f).extractLsb' 12 5 = c := by
  refine BitVec.eq_of_getLsbD_eq fun i hi => ?_
  rw [BitVec.getLsbD_extractLsb', decide_eq_true hi, Bool.true_and, withFprf, mix_getLsbD _ _ _ (by omega),
    show (0x0001F000 : Word).getLsbD (12 + i) = true by interval_cases i <;> rfl, if_pos rfl, BitVec.getLsbD_shiftLeft,
    BitVec.getLsbD_setWidth]
  simp [show 12 + i < 32 by omega, show i < 32 by omega]

theorem fpRaise_fprf {exc : Word} (he : OnlyExceptions exc) (f : Word) :
    (fpRaise exc f).extractLsb' 12 5 = f.extractLsb' 12 5 := by
  refine BitVec.eq_of_getLsbD_eq fun i hi => ?_
  rw [BitVec.getLsbD_extractLsb', BitVec.getLsbD_extractLsb', fpRaise_of_clear he f (by omega) (by interval_cases i <;> rfl)]

/-! ### The result -/

/-- The instruction completes and delivers a result: its value and FPRF where it has one, FR where it is defined, FI, and
its exceptions. -/
structure Leaves (s : State) (frD : BitVec 5) (r : FpResult) (t : State) : Prop where
  pc  : t.pc = s.pc + 4
  fpr : ∀ v, r.res = some v → t.getFpr frD = v ∧ t.fpscr.extractLsb' 12 5 = fprfOf r.kind v.msb
  fr  : ∀ b, r.fr = some b → bit t.fpscr 45 = b
  fi  : bit t.fpscr 46 = r.fi
  exc : t.fpscr &&& r.exc = r.exc

/-- An instruction that ends by delivering a result. -/
theorem leaves_putResult {i : Instr} {r : FpResult} (hfe : FeOff s) (hr : OnlyExceptions r.exc)
    (h : FpRuns frD rc s u) (hx : exec i s = u.putResult frD r false rc) : ∃ t, exec i s = .next t ∧ Leaves s frD r t := by
  have hw := (h.putFp r false).putFrFi r.fr r.fi
  have hmsr := (hw.raise hr).keeps.msr rfl
  obtain ⟨b, f, hb, hf, hgpr⟩ : ∃ b f, (∀ c, r.fr = some c → b = c) ∧
      ((u.putFp frD r false).putFrFi r.fr r.fi).fpscr = withFrFi b r.fi f ∧
      ∀ v, r.res = some v → ((u.putFp frD r false).putFrFi r.fr r.fi).getFpr frD = v ∧
        f.extractLsb' 12 5 = fprfOf r.kind v.msb := by
    have hres : ∀ v, r.res = some v → (u.putFp frD r false).getFpr frD = v ∧
        (u.putFp frD r false).fpscr.extractLsb' 12 5 = fprfOf r.kind v.msb := by
      intro v hv
      unfold State.putFp
      rw [hv]
      exact ⟨(State.getFpr_setFpr ..).trans (if_pos rfl), withFprf_fprf _ _⟩
    unfold State.putFrFi
    split
    · next b hb => exact ⟨b, _, fun c hc => Option.some.inj (hb.symm.trans hc), rfl, hres⟩
    · next hb => exact ⟨_, _, fun c hc => absurd (hb.symm.trans hc) (by simp), rfl, hres⟩
  generalize hz : (u.putFp frD r false).putFrFi r.fr r.fi = z at *
  have hend : exec i s = ((z.setFpscr (fpRaise r.exc z.fpscr)).recordFp rc).finish := by
    rw [hx, ← finishFp_off (t := z.setFpscr (fpRaise r.exc z.fpscr)) (by unfold FeOff; rwa [hmsr]), ← hz]
    rfl
  have hfp : ((z.setFpscr (fpRaise r.exc z.fpscr)).recordFp rc).fpscr = fpRaise r.exc (withFrFi b r.fi f) := by
    rw [recordFp_fpscr, ← hf]
    rfl
  refine ⟨_, hend, ?_, fun v hv => ⟨?_, ?_⟩, fun c hc => ?_, ?_, ?_⟩
  · exact congrArg (· + 4) ((recordFp_pc rc _).trans hw.pc)
  · rw [← (hgpr v hv).1]
    show ((z.setFpscr (fpRaise r.exc z.fpscr)).recordFp rc).getFpr frD = _
    unfold State.recordFp
    split <;> rfl
  · show ((z.setFpscr (fpRaise r.exc z.fpscr)).recordFp rc).fpscr.extractLsb' 12 5 = _
    rw [hfp, fpRaise_fprf hr, withFrFi_fprf, (hgpr v hv).2]
  · show ((z.setFpscr (fpRaise r.exc z.fpscr)).recordFp rc).fpscr.getLsbD 18 = _
    rw [hfp, fpRaise_of_clear hr _ (by decide) rfl, withFrFi_fr, hb c hc]
  · show ((z.setFpscr (fpRaise r.exc z.fpscr)).recordFp rc).fpscr.getLsbD 17 = _
    rw [hfp, fpRaise_of_clear hr _ (by decide) rfl, withFrFi_fi]
  · show ((z.setFpscr (fpRaise r.exc z.fpscr)).recordFp rc).fpscr &&& _ = _
    rw [hfp, fpRaise_and hr]

/-- An estimate's result: FR and FI are free, and XX is not raised. -/
def FpResult.estimate (fi : Bool) (r : FpResult) : FpResult := { r with fr := none, fi := fi, exc := r.exc &&& ~~~fpXX }

/-- An instruction that ends by delivering an estimate. -/
theorem leaves_putEstimate {i : Instr} {r : FpResult} (hfe : FeOff s) (hr : OnlyExceptions r.exc)
    (hx : exec i s = s.putEstimate frD r false rc) :
    ∃ t, exec i s = .next t ∧ Leaves s frD (r.estimate s.drawBit.1) t :=
  leaves_putResult (r := r.estimate s.drawBit.1) hfe (hr.and _) ((FpRuns.refl s).draw _) hx

theorem leaves_fpBinary {i : Instr} (hfp : bit s.msr 50 = true) (hfe : FeOff s) {single : Bool} {op : FpVal → FpVal → FpExact}
    (hop : ∀ x y, (op x y).Sound) {a b : BitVec 5} (hf : s.outOfFormat single [a, b] = false)
    (hx : exec i s = s.fpBinary single op frD a b rc) : ∃ t, exec i s = .next t ∧ Leaves s frD
      (conclude (formatOf single) s.fpscr [s.operand single a, s.operand single b]
        (op (unpack (s.operand single a)) (unpack (s.operand single b)))) t := by
  refine leaves_putResult (rc := rc) hfe (conclude_exc (hop _ _) _ _ _) (.refl s) (hx.trans ((needFp_ok hfp _).trans ?_))
  rw [hf]

theorem fpFused_exc (c : Bool) {r : FpResult} (hr : OnlyExceptions r.exc) :
    OnlyExceptions (if c then r.negate else r).exc := by
  cases c
  · exact hr
  · exact (FpResult.negate_exc r).symm ▸ hr

/-- What a multiply-add delivers, before the negation. -/
def State.fusedResult (s : State) (single sub : Bool) (a c b : BitVec 5) : FpResult :=
  conclude (formatOf single) s.fpscr [s.operand single a, s.operand single b, s.operand single c]
    (fpMulAdd s.rn (unpack (s.operand single a)) (unpack (s.operand single c))
      (if sub then (unpack (s.operand single b)).negate else unpack (s.operand single b)))

theorem leaves_fpFused {i : Instr} (hfp : bit s.msr 50 = true) (hfe : FeOff s) {single sub neg : Bool} {a c b : BitVec 5}
    (hf : s.outOfFormat single [a, b, c] = false) (hx : exec i s = s.fpFused single sub neg frD a c b rc) :
    ∃ t, exec i s = .next t ∧
      Leaves s frD (if neg then (s.fusedResult single sub a c b).negate else s.fusedResult single sub a c b) t := by
  refine leaves_putResult (rc := rc) hfe (fpFused_exc neg (conclude_exc (fpMulAdd_sound _ _ _ _) _ _ _)) (.refl s)
    (hx.trans ((needFp_ok hfp _).trans ?_))
  rw [hf]
  rfl

/-- A delivered special value. -/
theorem delivers_of {i : Instr} {r : FpResult} {v : DWord} {exc : Word} {c : BitVec 5}
    (h : FeOff s → ∃ t, exec i s = .next t ∧ Leaves s frD r t) (hv : r.res = some v) (he : exc &&& ~~~r.exc = 0)
    (hc : c = fprfOf r.kind v.msb) : Delivers i s frD v exc c := by
  intro hfe
  obtain ⟨t, ht, hl⟩ := h hfe
  refine ⟨t, ht, hl.pc, (hl.fpr v hv).1, ?_, hc ▸ (hl.fpr v hv).2⟩
  have hx := hl.exc
  refine BitVec.eq_of_getLsbD_eq fun i hi => ?_
  have h1 := congrArg (BitVec.getLsbD · i) hx
  have h2 := congrArg (BitVec.getLsbD · i) he
  simp only [BitVec.getLsbD_and, BitVec.getLsbD_not, decide_eq_true hi, Bool.true_and] at h1 h2
  rw [show (0 : Word).getLsbD i = false from BitVec.getLsbD_zero] at h2
  rw [BitVec.getLsbD_and]
  cases ha : exc.getLsbD i <;> simp_all

end Sys2Proof.Machine


/-! NaN operands, and the operations on infinities and zeros (42 R903, R908, R944). -/

namespace Sys2Proof.Machine

variable {s t : State} {d a b c : BitVec 5} {rc : Bool}

/-! ### What operands stand for -/

theorem unpack_eq_nan (v : DWord) : unpack v = .nan ↔ isNan v = true := by
  rw [isNan_iff_fields]
  unfold unpack
  split
  · next h => split <;> simp_all
  · next h => split <;> simp_all

theorem unpack_of_inf {v : DWord} (h : v.setWidth 63 = 0x7FF0000000000000) : unpack v = .inf v.msb ∧ dExp v = 2047 := by
  have hn := congrArg BitVec.toNat h
  rw [low63_toNat, show (0x7FF0000000000000 : BitVec 63).toNat = 2047 * 2 ^ 52 from rfl] at hn
  have he := dExp_lt v
  have hf := dFrac_lt v
  have hx : dExp v = 2047 := by omega
  refine ⟨?_, hx⟩
  unfold unpack
  rw [if_pos hx, if_pos (by omega)]

theorem unpack_of_zero {v : DWord} (h : v.setWidth 63 = 0) : unpack v = .num v.msb 0 (-1074) := by
  obtain ⟨he, hf⟩ := (low63_eq_zero v).1 h
  unfold unpack
  rw [if_neg (by omega), if_pos he, hf]

theorem unpack_of_nonzero {v : DWord} (hv : isFinite v) (h : v.setWidth 63 ≠ 0) : ∃ m e, m ≠ 0 ∧ unpack v = .num v.msb m e := by
  rw [Ne, low63_eq_zero] at h
  unfold unpack
  rw [if_neg ((isFinite_iff v).1 hv)]
  split
  · next h0 => exact ⟨_, _, fun hf => h ⟨h0, hf⟩, rfl⟩
  · exact ⟨_, _, by omega, rfl⟩

theorem flushOperand_of_zero {ni single : Bool} {v : DWord} (h : v.setWidth 63 = 0) :
    (flushOperand ni single v).setWidth 63 = 0 := by
  rw [flushOperand_eq]
  by_cases hc : ni = true ∧ dExp v < (if single then 897 else 1)
  · rw [if_pos hc]
    exact (and_sign v).2
  · rw [if_neg hc]
    exact h

/-- A double operand that is no denormal, or IEEE mode. -/
theorem operand_eq {r : BitVec 5} (h : (s.getFpr r).extractLsb' 52 11 ≠ 0 ∨ bit s.fpscr 61 = false) :
    s.operand false r = s.getFpr r := by
  unfold State.operand
  rw [flushOperand_eq, if_neg]
  rintro ⟨h1, h2⟩
  rcases h with h | h
  · refine h (BitVec.eq_of_toNat_eq ?_)
    exact Nat.lt_one_iff.1 h2
  · rw [h] at h1
    cases h1

theorem operand_inf {single : Bool} {r : BitVec 5} (h : (s.getFpr r).setWidth 63 = 0x7FF0000000000000) :
    s.operand single r = s.getFpr r := flushOperand_of_exp (.inl (by rw [(unpack_of_inf h).2]; decide))

theorem unpack_operand_inf {single : Bool} {r : BitVec 5} (h : (s.getFpr r).setWidth 63 = 0x7FF0000000000000) :
    unpack (s.operand single r) = .inf (s.getFpr r).msb := by
  rw [operand_inf h]
  exact (unpack_of_inf h).1

theorem unpack_operand_zero {single : Bool} {r : BitVec 5} (h : (s.getFpr r).setWidth 63 = 0) :
    unpack (s.operand single r) = .num (s.getFpr r).msb 0 (-1074) := by
  unfold State.operand
  rw [unpack_of_zero (flushOperand_of_zero h), flushOperand_msb]

theorem not_isNan {v : DWord} (h : unpack v ≠ .nan) : isNan v = false := by
  rwa [Ne, unpack_eq_nan, Bool.not_eq_true] at h

theorem not_isSnan {v : DWord} (h : unpack v ≠ .nan) : isSnan v = false := by
  unfold isSnan
  rw [not_isNan h, Bool.false_and]

/-! ### Lists of operands -/

theorem flushOperand_of_isNan {ni single : Bool} {v : DWord} (h : isNan v = true) : flushOperand ni single v = v :=
  flushOperand_of_exp (.inl (by rw [((isNan_iff_fields v).1 h).1]; decide))

theorem find_flush (ni single : Bool) (l : List DWord) :
    (l.map (flushOperand ni single)).find? isNan = l.find? isNan := by
  induction l with
  | nil => rfl
  | cons v l ih =>
    rw [List.map_cons, List.find?_cons, List.find?_cons, ih, isNan_flushOperand]
    cases h : isNan v
    · rfl
    · rw [flushOperand_of_isNan h]

theorem isSnan_flushOperand (ni single : Bool) (v : DWord) : isSnan (flushOperand ni single v) = isSnan v := by
  cases h : isNan v
  · unfold isSnan
    rw [isNan_flushOperand, h, Bool.false_and, Bool.false_and]
  · rw [flushOperand_of_isNan h]

theorem any_isSnan_flush (ni single : Bool) (l : List DWord) : (l.map (flushOperand ni single)).any isSnan = l.any isSnan := by
  rw [List.any_map]
  congr 1
  funext v
  exact isSnan_flushOperand ni single v

/-! ### Exact results that are no numbers -/

/-- An exact result that is no number: a NaN operand's, or an invalid operation's. -/
def FpExact.Undefined (x : FpExact) : Prop := x = .nan ∨ ∃ e, x = .invalid e

/-- With VE 0 such a result is delivered as the first NaN made quiet, or the default NaN. -/
theorem conclude_undefined {fmt : FpFormat} {f : Word} {l : List DWord} {x : FpExact} (hx : x.Undefined)
    (hve : bit f 56 = false) : ∃ e, conclude fmt f l x =
        { exc := e, res := some (((l.find? isNan).map (quiet (fmt.p == 24))).getD generatedNan), kind := .nan,
          fr := some false, fi := false } ∧
      maskIf (l.any isSnan) fpVXSNAN &&& ~~~e = 0 ∧ ∀ i, x = .invalid i → i &&& ~~~e = 0 := by
  have hor : ∀ v w : Word, v &&& ~~~(v ||| w) = 0 ∧ w &&& ~~~(v ||| w) = 0 := fun v w => by
    constructor <;> ext i <;> simp
    · cases v[i] <;> simp
    · cases v[i] <;> cases w[i] <;> simp
  have key : ∀ (w : Word) (n : DWord), (if w ≠ 0 then FpResult.suppress w (bit f 56) n .nan else .exact n .nan) =
      { exc := w, res := some n, kind := .nan, fr := some false, fi := false } := fun w n => by
    by_cases h : w = 0
    · rw [if_neg (not_not.2 h), h]
      rfl
    · rw [if_pos h, hve]
      rfl
  rcases hx with rfl | ⟨i, rfl⟩
  · exact ⟨_, key (maskIf (l.any isSnan) fpVXSNAN ||| 0) _, (hor _ _).1, nofun⟩
  · refine ⟨_, key (maskIf (l.any isSnan) fpVXSNAN ||| i) _, (hor _ _).1, fun j hj => ?_⟩
    cases hj
    exact (hor _ _).2

/-- Without a signalling NaN a result that is no invalid operation raises only its own exceptions. -/
theorem conclude_zero {fmt : FpFormat} {f : Word} {l : List DWord} (h : l.any isSnan = false) (sign : Bool) :
    conclude fmt f l (.zero sign) = .exact (zeroOf sign) .zero := by
  unfold conclude
  rw [h]
  exact if_neg (not_not.2 (show maskIf false fpVXSNAN ||| (0 : Word) = 0 by decide))

theorem conclude_zeroDivide {fmt : FpFormat} {f : Word} {l : List DWord} (h : l.any isSnan = false) (sign : Bool) :
    conclude fmt f l (.zeroDivide sign) = .suppress fpZX (bit f 59) (infinity sign) .inf := by
  unfold conclude
  rw [h]
  exact if_neg (not_not.2 (show maskIf false fpVXSNAN ||| (0 : Word) = 0 by decide))

theorem conclude_finite {fmt : FpFormat} {f : Word} {l : List DWord} (h : l.any isSnan = false) (sign : Bool) (m : Nat)
    (e : Int) : conclude fmt f l (.finite sign m e) = deliver fmt f sign m e := by
  unfold conclude
  rw [h]
  exact if_neg (not_not.2 (show maskIf false fpVXSNAN ||| (0 : Word) = 0 by decide))

/-! ### NaN operands -/

theorem fpAdd_nan_right (rn : BitVec 2) (x : FpVal) : fpAdd rn x .nan = .nan := by cases x <;> rfl
theorem fpAdd_nan_left (rn : BitVec 2) (x : FpVal) : fpAdd rn .nan x = .nan := by cases x <;> rfl
theorem fpMul_nan_right (x : FpVal) : fpMul x .nan = .nan := by cases x <;> rfl
theorem fpMul_nan_left (x : FpVal) : fpMul .nan x = .nan := by cases x <;> rfl
theorem fpDiv_nan_right (x : FpVal) : fpDiv x .nan = .nan := by cases x <;> rfl
theorem fpDiv_nan_left (x : FpVal) : fpDiv .nan x = .nan := by cases x <;> rfl

theorem fpMulAdd_nan (rn : BitVec 2) {x y z : FpVal} (h : x = .nan ∨ y = .nan ∨ z = .nan) :
    (fpMulAdd rn x y z).Undefined := by
  unfold fpMulAdd
  split
  · exact .inr ⟨_, rfl⟩
  · next h' =>
    refine .inl ?_
    rcases h with rfl | rfl | rfl
    · rw [fpMul_nan_left]
      exact fpAdd_nan_left _ _
    · rw [fpMul_nan_right]
      exact fpAdd_nan_left _ _
    · exact fpAdd_nan_right _ _

theorem quiet_double (v : DWord) : quiet false v = v ||| 0x0008000000000000 := by
  unfold quiet
  exact BitVec.and_allOnes

/-- A double-precision instruction whose exact result is no number delivers the first NaN of its operands. -/
theorem delivers_firstNan {i : Instr} {l : List DWord} {x : FpExact} {r : FpResult} (hve : bit s.fpscr 56 = false)
    (hx : x.Undefined) (hl : l.any isNan = true)
    (hr : conclude fpDouble s.fpscr (l.map (flushOperand (bit s.fpscr 61) false)) x = r)
    (h : FeOff s → ∃ t, exec i s = .next t ∧ Leaves s d r t) :
    Delivers i s d (firstNan l) (if l.any isSnan then 0x01000000 else 0) 0b10001 := by
  obtain ⟨e, he, hs, -⟩ := conclude_undefined (fmt := fpDouble) (l := l.map (flushOperand (bit s.fpscr 61) false)) hx hve
  rw [any_isSnan_flush] at hs
  obtain ⟨v, hv⟩ : ∃ v, l.find? isNan = some v := by
    rw [← Option.isSome_iff_exists, List.find?_isSome]
    exact List.any_eq_true.1 hl
  rw [find_flush, hv] at he
  rw [← hr, he] at h
  refine delivers_of h (congrArg some ?_) hs rfl
  rw [firstNan, hv]
  exact quiet_double v

theorem nan_of_any {l : List DWord} {single : Bool} (h : l.any isNan = true) :
    ∃ v ∈ l, unpack (flushOperand (bit s.fpscr 61) single v) = .nan := by
  obtain ⟨v, hv, hn⟩ := List.any_eq_true.1 h
  exact ⟨v, hv, (unpack_eq_nan _).2 ((isNan_flushOperand _ _ _).trans hn)⟩

theorem binary_firstNan {i : Instr} {op : FpVal → FpVal → FpExact} (hfp : bit s.msr 50 = true)
    (hve : bit s.fpscr 56 = false) (hop : ∀ x y, (op x y).Sound)
    (hnan : ∀ x, (op x .nan).Undefined ∧ (op .nan x).Undefined) (hx : exec i s = s.fpBinary false op d a b rc)
    (hl : [s.getFpr a, s.getFpr b].any isNan = true) :
    Delivers i s d (firstNan [s.getFpr a, s.getFpr b]) (if [s.getFpr a, s.getFpr b].any isSnan then 0x01000000 else 0) 0b10001 := by
  refine delivers_firstNan hve ?_ hl rfl fun hfe => leaves_fpBinary hfp hfe hop rfl hx
  obtain ⟨v, hv, hn⟩ := nan_of_any (s := s) (single := false) hl
  rcases List.mem_pair.1 hv with rfl | rfl
  · exact (congrArg (fun w => FpExact.Undefined (op w _)) hn).mpr (hnan _).2
  · exact (congrArg (fun w => FpExact.Undefined (op _ w)) hn).mpr (hnan _).1

theorem negate_nan {r : FpResult} (h : r.kind = .nan) (c : Bool) : (if c then r.negate else r) = r := by
  unfold FpResult.negate
  rw [if_pos h, ite_self]

theorem fused_firstNan {i : Instr} {sub neg : Bool} (hfp : bit s.msr 50 = true) (hve : bit s.fpscr 56 = false)
    (hx : exec i s = s.fpFused false sub neg d a c b rc) (hl : [s.getFpr a, s.getFpr b, s.getFpr c].any isNan = true) :
    Delivers i s d (firstNan [s.getFpr a, s.getFpr b, s.getFpr c])
      (if [s.getFpr a, s.getFpr b, s.getFpr c].any isSnan then 0x01000000 else 0) 0b10001 := by
  have hu : (fpMulAdd s.rn (unpack (s.operand false a)) (unpack (s.operand false c))
      (if sub then (unpack (s.operand false b)).negate else unpack (s.operand false b))).Undefined := by
    refine fpMulAdd_nan _ ?_
    obtain ⟨v, hv, hn⟩ := nan_of_any (s := s) (single := false) hl
    simp only [List.mem_cons, List.not_mem_nil, or_false] at hv
    rcases hv with rfl | rfl | rfl
    · exact .inl hn
    · have hb : unpack (s.operand false b) = .nan := hn
      rw [hb]
      exact .inr (.inr (ite_self _))
    · exact .inr (.inl hn)
  have hk : (s.fusedResult false sub a c b).kind = .nan := by
    obtain ⟨e, he, -⟩ := conclude_undefined (fmt := fpDouble)
      (l := [s.operand false a, s.operand false b, s.operand false c]) hu hve
    exact congrArg FpResult.kind he
  refine delivers_firstNan (r := s.fusedResult false sub a c b) hve hu hl rfl fun hfe => ?_
  have := leaves_fpFused hfp hfe rfl hx
  rwa [negate_nan hk] at this

/-- Settles O27: a NaN operand makes the exact result none, which is delivered as the first NaN made quiet. -/
theorem nanOperands : Obligations.NanOperands := by
  intro s d a b c rc hfp hve x y z nan
  refine ⟨binary_firstNan (op := fpAdd s.rn) hfp hve (fpAdd_sound _)
      (fun _ => ⟨.inl (fpAdd_nan_right _ _), .inl (fpAdd_nan_left _ _)⟩) rfl,
    binary_firstNan (op := fun v w => fpAdd s.rn v w.negate) hfp hve (fun _ _ => fpAdd_sound _ _ _)
      (fun _ => ⟨.inl (fpAdd_nan_right _ _), .inl (fpAdd_nan_left _ _)⟩) rfl,
    binary_firstNan hfp hve fpMul_sound (fun _ => ⟨.inl (fpMul_nan_right _), .inl (fpMul_nan_left _)⟩) rfl,
    binary_firstNan hfp hve fpDiv_sound (fun _ => ⟨.inl (fpDiv_nan_right _), .inl (fpDiv_nan_left _)⟩) rfl,
    fused_firstNan hfp hve rfl, fused_firstNan hfp hve rfl, fused_firstNan hfp hve rfl, fused_firstNan hfp hve rfl⟩

/-! ### Special operands -/

/-- A double-precision operation on no NaN that is invalid delivers the default NaN. -/
theorem delivers_invalid {i : Instr} {l : List DWord} {e : Word} {r : FpResult} {x : FpExact} (hx : x = .invalid e)
    (hve : bit s.fpscr 56 = false) (hl : ∀ v ∈ l, unpack v ≠ .nan) (hr : conclude fpDouble s.fpscr l x = r)
    {q : FpResult} (hq : q.res = r.res ∧ q.kind = r.kind ∧ e &&& ~~~q.exc = e &&& ~~~r.exc)
    (h : FeOff s → ∃ t, exec i s = .next t ∧ Leaves s d q t) : Delivers i s d 0x7FF8000000000000 e 0b10001 := by
  obtain ⟨hres, hkind, hexc⟩ := hq
  obtain ⟨g, hg, -, hi⟩ := conclude_undefined (fmt := fpDouble) (l := l) (.inr ⟨e, hx⟩) hve
  have hf : l.find? isNan = none := List.find?_eq_none.2 fun v hv => by simp [not_isNan (hl v hv)]
  rw [hr, hf] at hg
  rw [hg] at hres hkind hexc
  refine delivers_of h hres (hexc.trans (hi e hx)) ?_
  rw [hkind]
  rfl

theorem binary_invalid {i : Instr} {op : FpVal → FpVal → FpExact} {e : Word} (hfp : bit s.msr 50 = true)
    (hve : bit s.fpscr 56 = false) (hop : ∀ x y, (op x y).Sound) {x y : FpVal} (hx : unpack (s.operand false a) = x)
    (hy : unpack (s.operand false b) = y) (hxn : x ≠ .nan) (hyn : y ≠ .nan) (h : op x y = .invalid e)
    (hexec : exec i s = s.fpBinary false op d a b rc) : Delivers i s d 0x7FF8000000000000 e 0b10001 := by
  subst hx hy
  refine delivers_invalid h hve (fun v hv => ?_) rfl ⟨rfl, rfl, rfl⟩ fun hfe => leaves_fpBinary hfp hfe hop rfl hexec
  rcases List.mem_pair.1 hv with rfl | rfl
  · exact hxn
  · exact hyn

theorem infinity_eq (sign : Bool) : infinity sign = BitVec.ofBool sign ++ (0x7FF0000000000000 : BitVec 63) := by
  cases sign <;> rfl

theorem infinity_msb (sign : Bool) : (infinity sign).msb = sign := dOf_msb _ _ _

theorem zeroOf_eq (sign : Bool) : zeroOf sign = BitVec.ofBool sign ++ (0 : BitVec 63) := by
  cases sign <;> rfl

theorem zeroOf_msb (sign : Bool) : (zeroOf sign).msb = sign := dOf_msb _ _ _

/-- Division of a number by zero, with ZE 0. -/
theorem delivers_infinity {i : Instr} {sign : Bool} {q : FpResult} (hres : q.res = some (infinity sign))
    (hkind : q.kind = .inf) (hexc : fpZX &&& ~~~q.exc = 0) (h : FeOff s → ∃ t, exec i s = .next t ∧ Leaves s d q t) :
    Delivers i s d (BitVec.ofBool sign ++ (0x7FF0000000000000 : BitVec 63)) 0x04000000
      (if sign then 0b01001 else 0b00101) := by
  rw [← infinity_eq]
  exact delivers_of h hres hexc (by rw [hkind, infinity_msb]; rfl)

theorem delivers_zero {i : Instr} {sign : Bool} {q : FpResult} (hres : q.res = some (zeroOf sign)) (hkind : q.kind = .zero)
    (h : FeOff s → ∃ t, exec i s = .next t ∧ Leaves s d q t) :
    Delivers i s d (BitVec.ofBool sign ++ (0 : BitVec 63)) 0 (if sign then 0b10010 else 0b00010) := by
  rw [← zeroOf_eq]
  exact delivers_of h hres (BitVec.zero_and) (by rw [hkind, zeroOf_msb]; rfl)

theorem any_isSnan_single {v : DWord} (h : unpack v ≠ .nan) : [v].any isSnan = false := by
  rw [List.any_cons, not_isSnan h]
  rfl

/-- The estimates, by their exact results. -/
theorem leaves_fres (hfp : bit s.msr 50 = true) (hf : s.outOfFormat true [b] = false) {x : FpExact}
    (hx : fresExact (s.operand true b) = x) (hfe : FeOff s) : ∃ t, exec (.fres d b rc) s = .next t ∧
      Leaves s d ((conclude fpSingle s.fpscr [s.operand true b] x).estimate s.drawBit.1) t := by
  subst hx
  refine leaves_putEstimate hfe (conclude_exc (fresExact_sound _) _ _ _) (rc := rc) ((exec_fres hfp b).trans ?_)
  rw [hf]

theorem leaves_frsqrte (hfp : bit s.msr 50 = true) {x : FpExact} (hx : frsqrteExact (s.operand false b) = x) (hfe : FeOff s) :
    ∃ t, exec (.frsqrte d b rc) s = .next t ∧
      Leaves s d ((conclude fpDouble s.fpscr [s.operand false b] x).estimate s.drawBit.1) t := by
  subst hx
  exact leaves_putEstimate hfe (conclude_exc (frsqrteExact_sound _) _ _ _) (exec_frsqrte hfp b)

/-- A single operand that is a zero or an infinity is in format. -/
theorem inFormat_of {v : FpVal} (hv : unpack (s.operand true b) = v) (h : v = .num (s.getFpr b).msb 0 (-1074) ∨ v = .inf (s.getFpr b).msb) :
    s.outOfFormat true [b] = false := by
  have hr : singleRepresentable (s.operand true b) = true := by
    unfold singleRepresentable
    rw [hv]
    rcases h with rfl | rfl <;> rfl
  unfold State.outOfFormat
  rw [List.any_cons, hr]
  rfl

theorem fpDiv_zero {m : Nat} (h : m ≠ 0) (u v : Bool) (e g : Int) : fpDiv (.num u m e) (.num v 0 g) = .zeroDivide (u ^^ v) := by
  unfold fpDiv
  simp only [if_true, if_neg h]

/-- Settles O28: each by the exact result of its operands. -/
theorem invalidOperations : Obligations.InvalidOperations := by
  intro s d a b rc sign hfp hve hze x y inf zero nan
  have vinf : ∀ t, FpVal.inf t ≠ .nan := nofun
  have vnum : ∀ t m e, FpVal.num t m e ≠ .nan := nofun
  refine ⟨fun hx hy hs => ?_, fun hx hy hs => ?_, fun hx hy => ?_, fun hx hy => ?_, fun hx hy => ?_, fun hx hy => ?_,
    fun hx0 hxf hxd hy hs => ?_, fun hy i hi => ?_, fun hy => ?_, fun hy hp => ?_, fun hyf hy0 hyd hp => ?_⟩
  · exact binary_invalid (op := fpAdd s.rn) hfp hve (fpAdd_sound _) (unpack_operand_inf hx) (unpack_operand_inf hy) (vinf _)
      (vinf _) (if_neg hs) rfl
  · refine binary_invalid (op := fun v w => fpAdd s.rn v w.negate) hfp hve (fun _ _ => fpAdd_sound _ _ _) (unpack_operand_inf hx) (unpack_operand_inf hy) (vinf _)
      (vinf _) (if_neg ?_) rfl
    show ¬ x.msb = !y.msb
    rw [hs]
    exact (Bool.not_ne_self _).symm
  · exact binary_invalid hfp hve fpMul_sound (unpack_operand_inf hx) (unpack_operand_zero hy) (vinf _) (vnum _ _ _) rfl rfl
  · exact binary_invalid hfp hve fpMul_sound (unpack_operand_zero hx) (unpack_operand_inf hy) (vnum _ _ _) (vinf _) rfl rfl
  · exact binary_invalid hfp hve fpDiv_sound (unpack_operand_inf hx) (unpack_operand_inf hy) (vinf _) (vinf _) rfl rfl
  · exact binary_invalid hfp hve fpDiv_sound (unpack_operand_zero hx) (unpack_operand_zero hy) (vnum _ _ _) (vnum _ _ _) rfl rfl
  · obtain ⟨m, e, hm, hu⟩ := unpack_of_nonzero hxf hx0
    have hxo : s.operand false a = x := operand_eq hxd
    have hyo := unpack_operand_zero (single := false) hy
    have hl : [s.operand false a, s.operand false b].any isSnan = false := by
      rw [List.any_cons, any_isSnan_single (by rw [hyo]; exact vnum _ _ _), hxo, not_isSnan (by rw [hu]; exact vnum _ _ _)]
      rfl
    have hdiv : fpDiv (unpack (s.operand false a)) (unpack (s.operand false b)) = .zeroDivide sign := by
      rw [hxo, hu, hyo, hs]
      exact fpDiv_zero hm _ _ _ _
    have hr := (congrArg (conclude fpDouble s.fpscr _) hdiv).trans (conclude_zeroDivide hl sign)
    rw [hze] at hr
    refine delivers_infinity (q := .suppress fpZX false (infinity sign) .inf) rfl rfl (show fpZX &&& ~~~fpZX = 0 by decide) fun hfe => ?_
    rw [← hr]
    exact leaves_fpBinary hfp hfe fpDiv_sound rfl rfl
  · rcases List.mem_pair.1 hi with rfl | rfl
    · have hyo := unpack_operand_zero (single := true) hy
      have hx : fresExact (s.operand true b) = .zeroDivide y.msb := by
        unfold fresExact
        rw [hyo]
        rfl
      have hl := any_isSnan_single (v := s.operand true b) (by rw [hyo]; exact vnum _ _ _)
      have h := fun hfe => leaves_fres (d := d) (rc := rc) hfp (inFormat_of hyo (.inl rfl)) hx hfe
      rw [conclude_zeroDivide hl, hze] at h
      exact delivers_infinity rfl rfl (show fpZX &&& ~~~(fpZX &&& ~~~fpXX) = 0 by decide) h
    · have hyo := unpack_operand_zero (single := false) hy
      have hx : frsqrteExact (s.operand false b) = .zeroDivide y.msb := by
        unfold frsqrteExact
        rw [hyo]
        rfl
      have hl := any_isSnan_single (v := s.operand false b) (by rw [hyo]; exact vnum _ _ _)
      have h := fun hfe => leaves_frsqrte (d := d) (rc := rc) hfp hx hfe
      rw [conclude_zeroDivide hl, hze] at h
      exact delivers_infinity rfl rfl (show fpZX &&& ~~~(fpZX &&& ~~~fpXX) = 0 by decide) h
  · have hyo := unpack_operand_inf (single := true) hy
    have hx : fresExact (s.operand true b) = .zero y.msb := by
      unfold fresExact
      rw [hyo]
    have hl := any_isSnan_single (v := s.operand true b) (by rw [hyo]; exact vinf _)
    refine delivers_zero ?_ ?_ fun hfe => leaves_fres hfp (inFormat_of hyo (.inr rfl)) hx hfe <;>
      rw [conclude_zero hl] <;> rfl
  · have hyo := unpack_operand_inf (single := false) hy
    have hx : frsqrteExact (s.operand false b) = .zero false := by
      unfold frsqrteExact
      rw [hyo]
      exact if_neg (by rw [show (s.getFpr b).msb = false from hp]; exact Bool.false_ne_true)
    have hl := any_isSnan_single (v := s.operand false b) (by rw [hyo]; exact vinf _)
    refine delivers_zero (sign := false) ?_ ?_ fun hfe => leaves_frsqrte hfp hx hfe <;>
      rw [conclude_zero hl] <;> rfl
  · have hyo : s.operand false b = y := operand_eq hyd
    obtain ⟨hv, hx⟩ : unpack y ≠ .nan ∧ frsqrteExact y = .invalid fpVXSQRT := by
      unfold frsqrteExact
      rcases hyf with hi | hf
      · rw [(unpack_of_inf hi).1]
        exact ⟨vinf _, if_pos hp⟩
      · obtain ⟨m, e, hm, hu⟩ := unpack_of_nonzero hf hy0
        rw [hu]
        exact ⟨vnum _ _ _, (if_neg hm).trans (if_pos hp)⟩
    rw [← hyo] at hx hv
    refine delivers_invalid (l := [s.operand false b]) (e := fpVXSQRT)
      (q := (conclude fpDouble s.fpscr [s.operand false b] (.invalid fpVXSQRT)).estimate s.drawBit.1)
      rfl hve (fun v hv' => ?_) rfl ⟨rfl, rfl, ?_⟩ fun hfe => leaves_frsqrte hfp hx hfe
    · rwa [List.mem_singleton.1 hv']
    · show fpVXSQRT &&& ~~~((conclude fpDouble s.fpscr [s.operand false b] (.invalid fpVXSQRT)).exc &&& ~~~fpXX) = _
      refine BitVec.eq_of_getLsbD_eq fun i hi => ?_
      have hd : fpVXSQRT.getLsbD i = true → fpXX.getLsbD i = false := by interval_cases i <;> decide
      simp only [BitVec.getLsbD_and, BitVec.getLsbD_not, decide_eq_true hi, Bool.true_and]
      cases h : fpVXSQRT.getLsbD i
      · rfl
      · rw [hd h]
        simp

end Sys2Proof.Machine


/-! Sums, products, quotients and multiply-adds are delivered as their exact value rounded (42 R902): what the exact result
of each operation stands for, and what rounding it leaves. -/

namespace Sys2Proof.Machine

variable {s t : State} {d a b c : BitVec 5} {rc : Bool}

/-! ### Numbers on the same side of every multiple of a unit -/

/-- No multiple of a unit lies between two numbers, and neither is one unless both are the same. -/
def Close (u v w : ℚ) : Prop := ∀ j : ℤ, (j * u ≤ v ↔ j * u ≤ w) ∧ (v ≤ j * u ↔ w ≤ j * u)

theorem Close.refl (u v : ℚ) : Close u v v := fun _ => ⟨.rfl, .rfl⟩

theorem Close.symm {u v w : ℚ} (h : Close u v w) : Close u w v := fun j => ⟨(h j).1.symm, (h j).2.symm⟩

theorem Close.neg {u v w : ℚ} (h : Close u v w) : Close u (-v) (-w) := fun j => by
  have hj := h (-j)
  push_cast at hj
  have e : -(j : ℚ) * u = -(j * u) := by ring
  rw [e] at hj
  constructor
  · rw [le_neg, le_neg (b := w)]
    exact hj.2
  · rw [neg_le, neg_le (a := w)]
    exact hj.1

theorem Close.withSign {u v w : ℚ} (h : Close u v w) (z : Bool) : Close u (withSign z v) (withSign z w) := by
  cases z
  · exact h
  · exact h.neg

/-- The bounds of close numbers by multiples of the unit. -/
theorem Close.le_iff {u v w y : ℚ} (h : Close u v w) {j : ℤ} (hy : y = j * u) : (y ≤ v ↔ y ≤ w) ∧ (v ≤ y ↔ w ≤ y) := hy ▸ h j

theorem Close.lt_iff {u v w y : ℚ} (h : Close u v w) {j : ℤ} (hy : y = j * u) : (y < v ↔ y < w) ∧ (v < y ↔ w < y) := by
  obtain ⟨h1, h2⟩ := h.le_iff hy
  rw [← not_le, ← not_le, ← not_le, ← not_le, h1, h2]
  exact ⟨.rfl, .rfl⟩

theorem Close.eq_iff {u v w y : ℚ} (h : Close u v w) {j : ℤ} (hy : y = j * u) : y = v ↔ y = w := by
  obtain ⟨h1, h2⟩ := h.le_iff hy
  rw [le_antisymm_iff, le_antisymm_iff (b := w), h1, h2]

theorem Close.abs {u v w : ℚ} (h : Close u v w) {y : ℚ} {j : ℤ} (hy : y = j * u) : (y ≤ |v| ↔ y ≤ |w|) ∧ (|v| ≤ y ↔ |w| ≤ y) := by
  have hn : -y = ((-j : ℤ) : ℚ) * u := by
    rw [hy]
    push_cast
    ring
  obtain ⟨h1, h2⟩ := h.le_iff hy
  obtain ⟨h3, h4⟩ := h.le_iff hn
  constructor
  · rw [le_abs, le_abs, le_neg, le_neg (b := w), h1, h4]
  · rw [abs_le, abs_le, h2, h3]

/-- Rounding does not tell close numbers apart, if the unit is at least twice the one that they are close by. -/
theorem RoundsTo.close {rn : BitVec 2} {unit u v w : ℚ} {n : ℤ} (hc : Close u v w) {k : ℤ} (hk : unit = 2 * k * u)
    (h : RoundsTo rn unit w n) : RoundsTo rn unit v n := by
  have mult (j : ℤ) : (j : ℚ) * (unit / 2) = ((j * k : ℤ) : ℚ) * u := by
    rw [hk]
    push_cast
    ring
  have e0 : (n : ℚ) * unit = (2 * n : ℤ) * (unit / 2) := by push_cast; ring
  have e1 : (n : ℚ) * unit - unit = (2 * n - 2 : ℤ) * (unit / 2) := by push_cast; ring
  have e2 : (n : ℚ) * unit + unit = (2 * n + 2 : ℤ) * (unit / 2) := by push_cast; ring
  have e3 : (n : ℚ) * unit - unit / 2 = (2 * n - 1 : ℤ) * (unit / 2) := by push_cast; ring
  have e4 : (n : ℚ) * unit + unit / 2 = (2 * n + 1 : ℤ) * (unit / 2) := by push_cast; ring
  obtain ⟨g1, g2, g3, g4, g5⟩ := h
  have near : ∀ x : ℚ, |n * unit - x| < unit ↔ n * unit - unit < x ∧ x < n * unit + unit := fun x => by
    rw [abs_lt]
    constructor <;> rintro ⟨h1, h2⟩ <;> constructor <;> linarith
  have half : ∀ x : ℚ, 2 * |n * unit - x| ≤ unit ↔ n * unit - unit / 2 ≤ x ∧ x ≤ n * unit + unit / 2 := fun x => by
    rw [show 2 * |n * unit - x| ≤ unit ↔ |n * unit - x| ≤ unit / 2 by constructor <;> intro <;> linarith, abs_le]
    constructor <;> rintro ⟨h1, h2⟩ <;> constructor <;> linarith
  have tie : 2 * |n * unit - v| = unit → 2 * |n * unit - w| = unit := fun ht => by
    have hd : |n * unit - v| = unit / 2 := by linarith
    have hu : 0 ≤ unit / 2 := hd ▸ abs_nonneg _
    rcases abs_cases (n * unit - v) with ⟨ha, -⟩ | ⟨ha, -⟩
    · have hw := (hc.eq_iff (e3.trans (mult _))).1 (by linarith)
      rw [← hw, show n * unit - (n * unit - unit / 2) = unit / 2 by ring, abs_of_nonneg hu]
      ring
    · have hw := (hc.eq_iff (e4.trans (mult _))).1 (by linarith)
      rw [← hw, show n * unit - (n * unit + unit / 2) = -(unit / 2) by ring, abs_neg, abs_of_nonneg hu]
      ring
  refine ⟨?_, fun hrn => ⟨?_, fun ht => (g2 hrn).2 (tie ht)⟩, fun hrn => ?_, fun hrn => ?_, fun hrn => ?_⟩
  · rw [near, (hc.lt_iff (e1.trans (mult _))).1, (hc.lt_iff (e2.trans (mult _))).2, ← near]
    exact g1
  · rw [half, (hc.le_iff (e3.trans (mult _))).1, (hc.le_iff (e4.trans (mult _))).2, ← half]
    exact (g2 hrn).1
  · have ea : |(n : ℚ) * unit| = (|2 * n * k| * (if 0 ≤ u then 1 else -1) : ℤ) * u := by
      rw [hk, show (n : ℚ) * (2 * k * u) = ((2 * n * k : ℤ) : ℚ) * u by push_cast; ring, abs_mul, ← Int.cast_abs]
      by_cases hu : 0 ≤ u
      · rw [if_pos hu, abs_of_nonneg hu]
        push_cast
        ring
      · rw [if_neg hu, abs_of_neg (not_le.1 hu)]
        push_cast
        ring
    exact ((hc.abs ea).1).2 (g3 hrn)
  · exact ((hc.le_iff (e0.trans (mult _))).2).2 (g4 hrn)
  · exact ((hc.le_iff (e0.trans (mult _))).1).2 (g5 hrn)

/-- A power of two is a multiple of a smaller one. -/
theorem zpow_multiple {l x : ℤ} (h : l ≤ x) : (2 : ℚ) ^ x = ((2 ^ (x - l).toNat : ℤ) : ℚ) * 2 ^ l := by
  push_cast
  rw [← zpow_natCast, ← zpow_add₀ (two_ne_zero' ℚ)]
  congr 1
  omega

/-! ### Delivering a number -/

/-- The exponent of a rounded number. -/
theorem exponent_le {v : ℚ} {x y : ℤ} (h1 : 2 ^ y ≤ |v|) (h2 : |v| < 2 ^ (x + 1)) : y ≤ x := by
  have := lt_of_le_of_lt h1 h2
  rw [zpow_lt_zpow_iff_right₀ one_lt_two] at this
  omega

theorem roundsToBits_ne_zero {p : Nat} (hp : 1 ≤ p) {rn : BitVec 2} {v r : ℚ} (h : RoundsToBits p rn v r) : r ≠ 0 := by
  obtain ⟨x, n, h1, -, hr, hn, -⟩ := h
  intro h0
  rw [← hr, h0, zero_sub, abs_neg] at hn
  have := lt_of_le_of_lt h1 hn
  rw [zpow_lt_zpow_iff_right₀ one_lt_two] at this
  omega

/-- A number in the normal range, given by one that is close to it, is delivered rounded. -/
theorem deliver_close {fmt : FpFormat} {g : FloatFormat} (hg : fmt.Is g) (f : Word) (sign : Bool) {m : ℕ} (hm : m ≠ 0) (e : ℤ)
    {v : ℚ} {l : ℤ} (hc : Close (2 ^ l) v (withSign sign (m * 2 ^ e))) (hl : l + g.p ≤ e + Nat.log2 m) (hv : InRange g v) :
    ∃ r inexact up, deliver fmt f sign m e =
        { exc := if inexact then fpXX else 0, res := some r, kind := .normal, fr := some up, fi := inexact } ∧
      isFinite r ∧ RoundsToBits g.p (f.setWidth 2) v (valueOf r) ∧ (inexact = true ↔ valueOf r ≠ v) ∧
      (up = true ↔ |v| < |valueOf r|) := by
  obtain ⟨hb1, hb2⟩ := log2_bounds hm e
  have habs : |withSign sign ((m : ℚ) * 2 ^ e)| = m * 2 ^ e := by
    rw [abs_withSign, abs_of_nonneg (by positivity)]
  have hbig : (2 : ℚ) ^ (e + Nat.log2 m : ℤ) ≤ |v| :=
    ((hc.abs (zpow_multiple (l := l) (by omega))).1).2 (hb1.trans_eq habs.symm)
  have hrange : InRange g ((m : ℚ) * 2 ^ e) := by
    obtain ⟨hv1, hv2⟩ := hv
    have hpos : |(m : ℚ) * 2 ^ e| = |withSign sign ((m : ℚ) * 2 ^ e)| := by rw [abs_withSign]
    have hmax : (2 - 2 ^ (1 - g.p : ℤ) : ℚ) * 2 ^ g.emax = 2 ^ (g.emax + 1) - 2 ^ (g.emax + 1 - g.p) := by
      rw [sub_mul, ← zpow_add₀ (two_ne_zero' ℚ), zpow_add₀ (two_ne_zero' ℚ) g.emax 1, zpow_one]
      congr 1
      · ring
      · congr 1
        ring
    refine ⟨?_, ?_⟩
    · by_cases he : l ≤ g.emin
      · rw [hpos]
        exact ((hc.abs (zpow_multiple he)).1).1 hv1
      · rw [hpos, habs]
        refine le_trans ?_ hb1
        rw [zpow_le_zpow_iff_right₀ one_lt_two]
        omega
    · by_cases he : l ≤ g.emax + 1 - g.p
      · rw [hpos]
        rw [hmax] at hv2 ⊢
        refine ((hc.abs (j := 2 ^ (g.emax + 1 - l).toNat - 2 ^ (g.emax + 1 - g.p - l).toNat) ?_).2).1 hv2
        rw [zpow_multiple (l := l) (x := g.emax + 1) (by omega), zpow_multiple he]
        push_cast
        ring
      · exfalso
        have h1 : (2 : ℚ) ^ (g.emax + 1) ≤ |v| := by
          refine le_trans ?_ hbig
          rw [zpow_le_zpow_iff_right₀ one_lt_two]
          omega
        have h2 : (0 : ℚ) < 2 ^ (g.emax + 1 - g.p) := zpow_pos two_pos _
        rw [hmax] at hv2
        linarith
  obtain ⟨r, inexact, up, hd, hfin, -, ⟨x, n, hx1, hx2, hr, hn⟩, hin, hup⟩ := deliver_rounds hg f sign hm e hrange
  have hxl : e + Nat.log2 m ≤ x := exponent_le (hb1.trans_eq habs.symm) hx2
  obtain ⟨hp2, -⟩ := hg.bits
  have hunit : (2 : ℚ) ^ (x - (g.p - 1)) = 2 * ((2 ^ (x - g.p - l).toNat : ℤ) : ℚ) * 2 ^ l := by
    rw [mul_assoc, ← zpow_multiple (by omega), ← zpow_one_add₀ (two_ne_zero' ℚ)]
    congr 1
    ring
  have hrl : valueOf r = ((n * (2 * 2 ^ (x - g.p - l).toNat) : ℤ) : ℚ) * 2 ^ l := by
    rw [hr, hunit]
    push_cast
    ring
  have hra : |valueOf r| = ((|n * (2 * 2 ^ (x - g.p - l).toNat)| : ℤ) : ℚ) * 2 ^ l := by
    rw [hrl, abs_mul, Int.cast_abs, abs_of_pos (zpow_pos two_pos l : (0 : ℚ) < 2 ^ l)]
  refine ⟨r, inexact, up, hd, hfin, ⟨x, n, ?_, ?_, hr, hn.close hc hunit⟩, ?_, ?_⟩
  · exact ((hc.abs (zpow_multiple (by omega))).1).2 hx1
  · rw [← not_le] at hx2 ⊢
    exact fun h => hx2 (((hc.abs (zpow_multiple (by omega))).1).1 h)
  · rw [hin, Ne, Ne, not_iff_not]
    exact (hc.eq_iff hrl).symm
  · rw [hup, ← not_le, ← not_le, not_iff_not]
    exact ((hc.abs hra).1).symm

/-! ### What an exact result stands for -/

/-- An exact result stands for a number: it is a zero of the sign given if that is 0, otherwise a number that no rounding
to 53 or fewer bits can tell from it. -/
def FpExact.Stands (x : FpExact) (v : ℚ) (z : Bool) : Prop :=
  (v = 0 → x = .zero z) ∧ (v ≠ 0 → ∃ sign m e l, m ≠ 0 ∧ x = .finite sign m e ∧
    Close (2 ^ l) v (withSign sign (m * 2 ^ e)) ∧ l + 53 ≤ e + Nat.log2 m)

theorem withSign_eq_zero (z : Bool) (x : ℚ) : withSign z x = 0 ↔ x = 0 := by
  cases z <;> simp [withSign]

theorem magnitude_eq_zero (m : ℕ) (e : ℤ) : (m : ℚ) * 2 ^ e = 0 ↔ m = 0 := by
  rw [mul_eq_zero, Nat.cast_eq_zero, or_iff_left (zpow_ne_zero e two_ne_zero)]

theorem exactOf_stands (z : Bool) (m : ℕ) (e : ℤ) : (exactOf z m e).Stands (withSign z (m * 2 ^ e)) z := by
  constructor
  · intro h
    exact if_pos ((magnitude_eq_zero m e).1 ((withSign_eq_zero z _).1 h))
  · intro h
    have hm : m ≠ 0 := fun hm => h ((withSign_eq_zero z _).2 ((magnitude_eq_zero m e).2 hm))
    exact ⟨z, m, e, e + Nat.log2 m - 53, hm, if_neg hm, .refl _ _, by omega⟩

theorem withSign_not (z : Bool) (x : ℚ) : withSign (!z) x = -withSign z x := by
  cases z <;> simp [withSign]

theorem withSign_mul (y z : Bool) (v w : ℚ) : withSign y v * withSign z w = withSign (y ^^ z) (v * w) := by
  cases y <;> cases z <;> simp [withSign]

/-- The sum of two numbers. -/
theorem fpAdd_stands (rn : BitVec 2) (y z : Bool) (m n : ℕ) (e g : ℤ) :
    (fpAdd rn (.num y m e) (.num z n g)).Stands (withSign y (m * 2 ^ e) + withSign z (n * 2 ^ g))
      (if y = z then y else rn == 3) := by
  set l := min e g with hl
  have shift : ∀ (k : ℕ) (x : ℤ), l ≤ x → (((k <<< (x - l).toNat : ℕ) : ℤ) : ℚ) * 2 ^ l = k * 2 ^ x := fun k x hx => by
    rw [Nat.shiftLeft_eq, zpow_multiple hx]
    push_cast
    ring
  set sum : ℤ := (if y then -((m <<< (e - l).toNat : ℕ) : ℤ) else (m <<< (e - l).toNat : ℕ)) +
    (if z then -((n <<< (g - l).toNat : ℕ) : ℤ) else (n <<< (g - l).toNat : ℕ)) with hsum
  have hv : withSign y (m * 2 ^ e) + withSign z (n * 2 ^ g) = sum * 2 ^ l := by
    rw [← shift m e (min_le_left _ _), ← shift n g (min_le_right _ _), hsum]
    unfold withSign
    split <;> split <;> push_cast <;> ring
  have hdef : fpAdd rn (.num y m e) (.num z n g) =
      if sum = 0 then .zero (if y = z then y else rn == 3) else .finite (decide (sum < 0)) sum.natAbs l := rfl
  have hz : withSign y (m * 2 ^ e) + withSign z (n * 2 ^ g) = 0 ↔ sum = 0 := by
    rw [hv, mul_eq_zero, Int.cast_eq_zero, or_iff_left (zpow_ne_zero l two_ne_zero)]
  constructor
  · intro h
    rw [hdef, if_pos (hz.1 h)]
  · intro h
    have hs : sum ≠ 0 := fun hs => h (hz.2 hs)
    refine ⟨_, _, _, l + Nat.log2 sum.natAbs - 53, Int.natAbs_ne_zero.2 hs, hdef.trans (if_neg hs), ?_, by omega⟩
    have he : withSign (decide (sum < 0)) (sum.natAbs * 2 ^ l) = sum * 2 ^ l := by
      rw [Nat.cast_natAbs]
      unfold withSign
      by_cases hn : sum < 0
      · rw [if_pos (decide_eq_true hn), abs_of_neg hn]
        push_cast
        ring
      · rw [if_neg (by simpa using hn), abs_of_nonneg (not_lt.1 hn)]
    rw [he, hv]
    exact .refl _ _

/-- The product of two numbers. -/
theorem fpMul_stands (y z : Bool) (m n : ℕ) (e g : ℤ) :
    (fpMul (.num y m e) (.num z n g)).Stands (withSign y (m * 2 ^ e) * withSign z (n * 2 ^ g)) (y ^^ z) := by
  have h : withSign y ((m : ℚ) * 2 ^ e) * withSign z (n * 2 ^ g) = withSign (y ^^ z) ((m * n : ℕ) * 2 ^ (e + g)) := by
    rw [withSign_mul, zpow_add₀ (two_ne_zero' ℚ)]
    push_cast
    congr 1
    ring
  rw [h]
  exact exactOf_stands _ _ _

/-- The exact product, as a number. -/
theorem exactOf_toVal (z : Bool) (m : ℕ) (e : ℤ) :
    ∃ n g, (exactOf z m e).toVal = .num z n g ∧ withSign z ((m : ℚ) * 2 ^ e) = withSign z (n * 2 ^ g) := by
  unfold exactOf
  by_cases hm : m = 0
  · rw [if_pos hm, hm]
    exact ⟨0, 0, rfl, by simp⟩
  · rw [if_neg hm]
    exact ⟨m, e, rfl, rfl⟩

/-- A multiply-add of numbers. -/
theorem fpMulAdd_stands (rn : BitVec 2) (x y z : Bool) (m n k : ℕ) (e g h : ℤ) :
    (fpMulAdd rn (.num x m e) (.num y n g) (.num z k h)).Stands
      (withSign x (m * 2 ^ e) * withSign y (n * 2 ^ g) + withSign z (k * 2 ^ h))
      (if (x ^^ y) = z then (x ^^ y) else rn == 3) := by
  obtain ⟨p, q, hp, hv⟩ := exactOf_toVal (x ^^ y) (m * n) (e + g)
  have hprod : withSign x ((m : ℚ) * 2 ^ e) * withSign y (n * 2 ^ g) = withSign (x ^^ y) (p * 2 ^ q) := by
    rw [withSign_mul, ← hv, zpow_add₀ (two_ne_zero' ℚ)]
    push_cast
    congr 1
    ring
  have hdef : fpMulAdd rn (.num x m e) (.num y n g) (.num z k h) = fpAdd rn (exactOf (x ^^ y) (m * n) (e + g)).toVal (.num z k h) := by
    unfold fpMulAdd
    split
    · next b hb =>
      have : exactOf (x ^^ y) (m * n) (e + g) = .invalid b := hb
      unfold exactOf at this
      split at this <;> cases this
    · rfl
  rw [hdef, hp, hprod]
  exact fpAdd_stands rn _ _ p k q h

/-- A quotient of significands, cut off, with a bit that says whether a remainder is left, is close to the exact one. -/
theorem quotient_close (a n : ℕ) (hn : n ≠ 0) :
    Close 2 (2 * (a / n : ℚ)) ((2 * (a / n) + if a % n = 0 then 0 else 1 : ℕ) : ℚ) := by
  have hn' : (0 : ℚ) < n := by exact_mod_cast Nat.pos_of_ne_zero hn
  have hdiv : (a : ℚ) = n * (a / n : ℕ) + (a % n : ℕ) := by exact_mod_cast (Nat.div_add_mod a n).symm
  by_cases hr : a % n = 0
  · rw [if_pos hr, hdiv, hr]
    convert Close.refl _ _ using 1
    push_cast
    field_simp
    ring
  · rw [if_neg hr]
    have hlt : ((a % n : ℕ) : ℚ) < n := by exact_mod_cast Nat.mod_lt a (Nat.pos_of_ne_zero hn)
    have hpos : (0 : ℚ) < (a % n : ℕ) := by exact_mod_cast Nat.pos_of_ne_zero hr
    have hq : (a : ℚ) / n = (a / n : ℕ) + (a % n : ℕ) / n := by
      field_simp
      exact_mod_cast (Nat.div_add_mod a n).symm
    set q := a / n
    have h1 : (0 : ℚ) < (a % n : ℕ) / n := by positivity
    have h2 : ((a % n : ℕ) : ℚ) / n < 1 := (div_lt_one hn').2 hlt
    have side : ∀ w : ℚ, 2 * (q : ℚ) < w → w < 2 * q + 2 → ∀ j : ℤ, ((j : ℚ) * 2 ≤ w ↔ j ≤ q) ∧ (w ≤ j * 2 ↔ (q : ℤ) < j) := by
      intro w hw1 hw2 j
      constructor
      · constructor
        · intro h
          have : (j : ℚ) < (q + 1 : ℤ) := by push_cast; linarith
          have := Int.cast_lt.1 this
          omega
        · intro h
          have : (j : ℚ) ≤ (q : ℤ) := Int.cast_le.2 h
          push_cast at this
          linarith
      · constructor
        · intro h
          have : ((q : ℤ) : ℚ) < j := by push_cast; linarith
          exact Int.cast_lt.1 this
        · intro h
          have : ((q + 1 : ℤ) : ℚ) ≤ j := Int.cast_le.2 h
          push_cast at this
          linarith
    intro j
    obtain ⟨a1, a2⟩ := side (2 * (a / n : ℚ)) (by rw [hq]; linarith) (by rw [hq]; linarith) j
    obtain ⟨b1, b2⟩ := side ((2 * q + 1 : ℕ) : ℚ) (by push_cast; linarith) (by push_cast; linarith) j
    exact ⟨a1.trans b1.symm, a2.trans b2.symm⟩

theorem Close.scale {u v w : ℚ} (h : Close u v w) {k : ℚ} (hk : 0 < k) : Close (u * k) (v * k) (w * k) := fun j => by
  obtain ⟨h1, h2⟩ := h j
  rw [← mul_assoc, mul_le_mul_iff_left₀ hk, mul_le_mul_iff_left₀ hk, mul_le_mul_iff_left₀ hk, mul_le_mul_iff_left₀ hk]
  exact ⟨h1, h2⟩

/-- The quotient of two numbers of at most 53 bits. -/
theorem fpDiv_stands (y z : Bool) (m n : ℕ) (hn : n ≠ 0) (hn53 : n < 2 ^ 53) (e g : ℤ) :
    (fpDiv (.num y m e) (.num z n g)).Stands (withSign y (m * 2 ^ e) / withSign z (n * 2 ^ g)) (y ^^ z) := by
  set k := 2 * (m <<< 120 / n) + if m <<< 120 % n = 0 then 0 else 1 with hk
  have hdef : fpDiv (.num y m e) (.num z n g) = exactOf (y ^^ z) k (e - g - 121) := if_neg hn
  have hv : withSign y ((m : ℚ) * 2 ^ e) / withSign z (n * 2 ^ g) = withSign (y ^^ z) ((2 * ((m <<< 120 : ℕ) / n : ℚ)) * 2 ^ (e - g - 121)) := by
    have h1 : ∀ v w : ℚ, withSign y v / withSign z w = withSign (y ^^ z) (v / w) := fun v w => by
      cases y <;> cases z <;> simp [withSign, neg_div, div_neg]
    rw [h1, Nat.shiftLeft_eq, show e - g - 121 = e - g + (-121) by ring, zpow_add₀ (two_ne_zero' ℚ), zpow_sub₀ (two_ne_zero' ℚ)]
    refine congrArg (withSign (y ^^ z)) ?_
    have h2 : (2 : ℚ) ^ g ≠ 0 := zpow_ne_zero _ two_ne_zero
    have h3 : (n : ℚ) ≠ 0 := by exact_mod_cast hn
    push_cast
    field_simp
    norm_num
  have hc : Close (2 ^ (e - g - 120 : ℤ)) (withSign y ((m : ℚ) * 2 ^ e) / withSign z (n * 2 ^ g))
      (withSign (y ^^ z) ((k : ℚ) * 2 ^ (e - g - 121))) := by
    rw [hv]
    have := ((quotient_close (m <<< 120) n hn).scale (zpow_pos two_pos (e - g - 121))).withSign (y ^^ z)
    rwa [← zpow_one_add₀ (two_ne_zero' ℚ), show (1 : ℤ) + (e - g - 121) = e - g - 120 by ring] at this
  have hzero : withSign y ((m : ℚ) * 2 ^ e) / withSign z (n * 2 ^ g) = 0 ↔ m = 0 := by
    rw [div_eq_zero_iff, withSign_eq_zero, withSign_eq_zero, magnitude_eq_zero, magnitude_eq_zero, or_iff_left hn]
  constructor
  · intro h
    have hm := hzero.1 h
    subst hm
    have hk0 : k = 0 := by
      rw [hk, Nat.zero_shiftLeft, Nat.zero_div, Nat.zero_mod, if_pos rfl]
    exact hdef.trans (if_pos hk0)
  · intro h
    have hm : m ≠ 0 := fun hm => h (hzero.2 hm)
    have hbig : 2 ^ 67 ≤ k := by
      have : 2 ^ 67 ≤ m <<< 120 / n := by
        rw [Nat.le_div_iff_mul_le (Nat.pos_of_ne_zero hn), Nat.shiftLeft_eq]
        have := Nat.pos_of_ne_zero hm
        omega
      omega
    have hk0 : k ≠ 0 := by omega
    have hlog : 67 ≤ Nat.log2 k := (Nat.le_log2 hk0).2 hbig
    exact ⟨_, k, _, e - g - 120, hk0, hdef.trans (if_neg hk0), hc, by omega⟩

end Sys2Proof.Machine


/-! Operations on finite operands deliver their exact value rounded (42 R902, R910 to R929). -/

namespace Sys2Proof.Machine

variable {s t : State} {d a b c : BitVec 5} {rc : Bool}

/-! ### Rounding in whole numbers -/

/-- The first half of O29: roundAt_nat in natural numbers. -/
theorem roundAt_neighbours (rn : BitVec 2) (sign : Bool) (m k : Nat) (e : Int) :
    let r := roundAt rn sign m e (e + k)
    r.t = e + k ∧ (r.inexact = true ↔ ¬2 ^ k ∣ m) ∧ (r.inexact = false → r.q * 2 ^ k = m) ∧
    r.q * 2 ^ k < m + 2 ^ k ∧ m < r.q * 2 ^ k + 2 ^ k ∧ (r.up = true ↔ m < r.q * 2 ^ k) ∧
    (rn = 0 → 2 * (r.q * 2 ^ k) ≤ 2 * m + 2 ^ k ∧ 2 * m ≤ 2 * (r.q * 2 ^ k) + 2 ^ k ∧
      (2 * m + 2 ^ k = 2 * (r.q * 2 ^ k) ∨ 2 * m = 2 * (r.q * 2 ^ k) + 2 ^ k → 2 ∣ r.q)) ∧
    (rn = 1 → r.q * 2 ^ k ≤ m) ∧
    (rn = 2 → if sign then r.q * 2 ^ k ≤ m else m ≤ r.q * 2 ^ k) ∧
    (rn = 3 → if sign then m ≤ r.q * 2 ^ k else r.q * 2 ^ k ≤ m) := by
  intro r
  obtain ⟨ht, hd, h0, h1, h2, h3, hin, hup⟩ := roundAt_nat rn sign m k e (e + k) rfl
  have hdvd : 2 ^ k ∣ r.q * 2 ^ k := Nat.dvd_mul_left _ _
  have hcast : (r.q : ℤ) * 2 ^ k = ((r.q * 2 ^ k : ℕ) : ℤ) := by push_cast; rfl
  have hD : (2 : ℤ) ^ k = ((2 ^ k : ℕ) : ℤ) := by push_cast; rfl
  change |(r.q : ℤ) * 2 ^ k - m| < 2 ^ k at hd
  change rn = 0 → 2 * |(r.q : ℤ) * 2 ^ k - m| ≤ 2 ^ k ∧ (2 * |(r.q : ℤ) * 2 ^ k - m| = 2 ^ k → 2 ∣ r.q) at h0
  change rn = 1 → (r.q : ℤ) * 2 ^ k ≤ m at h1
  change rn = 2 → if sign then (r.q : ℤ) * 2 ^ k ≤ m else (m : ℤ) ≤ r.q * 2 ^ k at h2
  change rn = 3 → if sign then (m : ℤ) ≤ r.q * 2 ^ k else (r.q : ℤ) * 2 ^ k ≤ m at h3
  change r.inexact = true ↔ (r.q : ℤ) * 2 ^ k ≠ m at hin
  change r.up = true ↔ (m : ℤ) < r.q * 2 ^ k at hup
  rw [hcast, hD] at *
  have hin' : r.inexact = true ↔ r.q * 2 ^ k ≠ m := by rw [hin, Ne, Nat.cast_inj]
  have hexact : r.q * 2 ^ k = m ↔ 2 ^ k ∣ m := by
    refine ⟨fun h => h ▸ hdvd, fun h => ?_⟩
    have hz := Int.eq_zero_of_abs_lt_dvd (dvd_sub (Int.natCast_dvd_natCast.2 hdvd) (Int.natCast_dvd_natCast.2 h)) hd
    omega
  have habs := abs_cases (((r.q * 2 ^ k : ℕ) : ℤ) - m)
  generalize r.q * 2 ^ k = P at *
  generalize 2 ^ k = D at *
  refine ⟨ht, by rw [hin', Ne, hexact], fun h => by_contra fun hc => ?_, by omega, by omega,
    hup.trans Nat.cast_lt,
    fun hrn => ⟨by have := h0 hrn; omega, by have := h0 hrn; omega, fun ht => (h0 hrn).2 (by omega)⟩,
    fun hrn => Nat.cast_le.1 (h1 hrn), fun hrn => ?_, fun hrn => ?_⟩
  · rw [hin'.2 hc] at h
    cases h
  · have := h2 hrn
    cases sign
    · exact Nat.cast_le.1 this
    · exact Nat.cast_le.1 this
  · have := h3 hrn
    cases sign
    · exact Nat.cast_le.1 this
    · exact Nat.cast_le.1 this

/-! ### Values -/

/-- The magnitude of a finite double. -/
def magnitudeOf (v : DWord) : ℚ :=
  if v.extractLsb' 52 11 = 0 then (v.setWidth 52).toNat * (2 : ℚ) ^ (-1074 : ℤ)
  else (2 ^ 52 + (v.setWidth 52).toNat) * (2 : ℚ) ^ ((v.extractLsb' 52 11).toNat - 1075 : ℤ)

theorem magnitudeOf_nonneg (v : DWord) : 0 ≤ magnitudeOf v := by
  unfold magnitudeOf
  split <;> positivity

theorem valueOf_eq_withSign (v : DWord) : valueOf v = withSign v.msb (magnitudeOf v) := by
  unfold valueOf withSign
  cases v.msb
  · exact one_mul _
  · exact neg_one_mul _

/-- The other sign. -/
theorem valueOf_negated (v : DWord) : valueOf (v ^^^ 0x8000000000000000) = -valueOf v ∧
    (isFinite (v ^^^ 0x8000000000000000) ↔ isFinite v) := by
  have he : (v ^^^ 0x8000000000000000).extractLsb' 52 11 = v.extractLsb' 52 11 := by
    rw [BitVec.extractLsb'_xor, show (0x8000000000000000 : DWord).extractLsb' 52 11 = 0 from rfl]
    exact BitVec.xor_zero
  have hf : (v ^^^ 0x8000000000000000).setWidth 52 = v.setWidth 52 := by
    rw [BitVec.setWidth_xor, show (0x8000000000000000 : DWord).setWidth 52 = 0 from rfl]
    exact BitVec.xor_zero
  constructor
  · rw [valueOf_eq_withSign, valueOf_eq_withSign v, (fneg_fields v).1, withSign_not]
    unfold magnitudeOf
    rw [he, hf]
  · unfold isFinite
    rw [he]

theorem valueOf_neg_iff {v : DWord} (h : valueOf v ≠ 0) : valueOf v < 0 ↔ v.msb = true := by
  have hx := magnitudeOf_nonneg v
  rw [valueOf_eq_withSign, Ne, withSign_eq_zero] at h
  have hp : 0 < magnitudeOf v := lt_of_le_of_ne hx (Ne.symm h)
  rw [valueOf_eq_withSign]
  unfold withSign
  cases v.msb
  · simpa using hx
  · simpa using hp

theorem unpack_lt {v : DWord} {z : Bool} {m : ℕ} {e : ℤ} (h : unpack v = .num z m e) : m < 2 ^ 53 := by
  have hf := dFrac_lt v
  unfold unpack at h
  split at h
  · split at h <;> cases h
  · split at h <;> cases h <;> omega

/-! ### What is delivered -/

/-- A delivered number, negated or not. -/
theorem negate_number {r : FpResult} {w : DWord} (hk : r.kind ≠ .nan) (hw : r.res = some w) (neg : Bool) :
    (if neg then r.negate else r) = { r with res := some (if neg then w ^^^ 0x8000000000000000 else w) } := by
  cases neg
  · show r = { r with res := some w }
    rw [← hw]
  · show r.negate = _
    unfold FpResult.negate
    rw [if_neg hk, hw]
    rfl

theorem bit_of_and {f exc : Word} (h : f &&& exc = exc) {n : Nat} (hb : bit exc n = true) : bit f n = true := by
  have hx := congrArg (bit · n) h
  unfold bit at *
  rw [BitVec.getLsbD_and, hb, Bool.and_true] at hx
  exact hx

/-- An instruction with an exact result delivers the number that it stands for, rounded, or an exact zero. -/
theorem rounds_of_stands {i : Instr} {fmt : FpFormat} {g : FloatFormat} (hg : fmt.Is g) {l : List DWord}
    (hs : l.any isSnan = false) {x : FpExact} {v : ℚ} {z : Bool} (hx : x.Stands v z) {neg : Bool}
    (h : ∃ t, exec i s = .next t ∧
      Leaves s d (if neg then (conclude fmt s.fpscr l x).negate else conclude fmt s.fpscr l x) t) :
    (InRange g v → DeliversRounded i s d g neg v) ∧ (v = 0 → DeliversZero i s d (z ^^ neg)) := by
  obtain ⟨t, ht, hl⟩ := h
  obtain ⟨hp2, hp53⟩ := hg.bits
  constructor
  · intro hv
    have hv0 : v ≠ 0 := by
      rintro rfl
      have := hv.1
      rw [abs_zero] at this
      exact absurd (zpow_pos two_pos g.emin : (0 : ℚ) < 2 ^ g.emin) (not_lt.2 this)
    obtain ⟨sign, m, e, k, hm, rfl, hc, hk⟩ := hx.2 hv0
    obtain ⟨w, inexact, up, hd, hfin, hr, hin, hup⟩ := deliver_close hg s.fpscr sign hm e hc (by omega) hv
    rw [conclude_finite hs, hd, negate_number (w := w) (show FpKind.normal ≠ .nan by decide) rfl] at hl
    obtain ⟨hgpr, hfprf⟩ := hl.fpr _ rfl
    have hw0 : valueOf w ≠ 0 := roundsToBits_ne_zero (by omega) hr
    have hval : valueOf (if neg then w ^^^ 0x8000000000000000 else w) = if neg then -valueOf w else valueOf w := by
      cases neg
      · rfl
      · exact (valueOf_negated w).1
    refine ⟨t, valueOf w, ht, hl.pc, ?_, ?_, hr, ?_, ?_, fun hne => ?_, ?_⟩
    · rw [hgpr]
      cases neg
      · exact hfin
      · exact (valueOf_negated w).2.2 hfin
    · rw [hgpr, hval]
    · rw [hl.fi]
      exact hin
    · rw [hl.fr up rfl]
      exact hup
    · have hexc := hl.exc
      simp only [hin.2 hne, if_true] at hexc
      exact bit_of_and hexc (by decide)
    · have hn : valueOf (if neg then w ^^^ 0x8000000000000000 else w) ≠ 0 := by
        rw [hval]
        cases neg
        · exact hw0
        · exact neg_ne_zero.2 hw0
      refine hfprf.trans ?_
      rw [hgpr]
      show (if _ then _ else _) = _
      by_cases hlt : valueOf (if neg then w ^^^ 0x8000000000000000 else w) < 0
      · rw [if_pos hlt, if_pos ((valueOf_neg_iff hn).1 hlt)]
      · rw [if_neg hlt, if_neg fun hm => hlt ((valueOf_neg_iff hn).2 hm)]
  · intro hv
    rw [hx.1 hv, conclude_zero hs, negate_number (w := zeroOf z) (show FpKind.zero ≠ .nan by decide) rfl] at hl
    obtain ⟨hgpr, hfprf⟩ := hl.fpr _ rfl
    have hz : (if neg then zeroOf z ^^^ 0x8000000000000000 else zeroOf z) = zeroOf (z ^^ neg) := by
      cases neg <;> cases z <;> rfl
    rw [hz] at hgpr hfprf
    exact ⟨t, ht, hl.pc, hgpr.trans (zeroOf_eq _), hl.fr _ rfl, hl.fi, by rw [hfprf, zeroOf_msb]; rfl⟩

/-! ### Finite operands -/

/-- A finite operand in IEEE mode. -/
theorem operand_ieee (hni : bit s.fpscr 61 = false) (single : Bool) (r : BitVec 5) : s.operand single r = s.getFpr r :=
  flushOperand_of_exp (.inr hni)

theorem isSnan_of_finite {v : DWord} (h : isFinite v) : isSnan v = false := by
  refine not_isSnan ?_
  obtain ⟨m, e, hu, -⟩ := valueOf_unpack h
  rw [hu]
  exact FpVal.noConfusion

theorem any_isSnan_of_finite {l : List DWord} (h : ∀ v ∈ l, isFinite v) : l.any isSnan = false :=
  List.any_eq_false.2 fun v hv => by simp [isSnan_of_finite (h v hv)]

theorem inFormat_of_singles (hni : bit s.fpscr 61 = false) {single : Bool} {rs : List (BitVec 5)}
    (h : single = true → ∀ w ∈ rs.map s.getFpr, singleRepresentable w = true) : s.outOfFormat single rs = false := by
  unfold State.outOfFormat
  cases single
  · rfl
  · rw [Bool.true_and, List.any_eq_false]
    intro r hr
    rw [operand_ieee hni, h rfl _ (List.mem_map_of_mem hr)]
    decide

/-- The two formats. -/
def formatOfSingle (single : Bool) : FloatFormat := if single then singleFormat else doubleFormat

theorem formatOf_is (single : Bool) : (formatOf single).Is (formatOfSingle single) := by
  cases single
  · exact fpDouble_is
  · exact fpSingle_is

/-- An operation on two finite operands. -/
theorem binary_rounds {i : Instr} {single : Bool} {op : FpVal → FpVal → FpExact} {v : ℚ} {z : Bool} (hfp : bit s.msr 50 = true)
    (hfe : FeOff s) (hni : bit s.fpscr 61 = false) (hop : ∀ x y, (op x y).Sound) (ha : isFinite (s.getFpr a))
    (hb : isFinite (s.getFpr b)) (hf : single = true → ∀ w ∈ [s.getFpr a, s.getFpr b], singleRepresentable w = true)
    (hv : (op (unpack (s.getFpr a)) (unpack (s.getFpr b))).Stands v z) (hx : exec i s = s.fpBinary single op d a b rc) :
    (InRange (formatOfSingle single) v → DeliversRounded i s d (formatOfSingle single) false v) ∧
      (v = 0 → DeliversZero i s d z) := by
  have hl := leaves_fpBinary hfp hfe hop (inFormat_of_singles hni hf) hx
  rw [operand_ieee hni, operand_ieee hni] at hl
  have := rounds_of_stands (neg := false) (formatOf_is single)
    (any_isSnan_of_finite (l := [s.getFpr a, s.getFpr b]) (by simp [ha, hb])) hv hl
  rwa [Bool.xor_false] at this

/-- The addend of a multiply-add. -/
theorem negate_addend (sub z : Bool) (m : ℕ) (e : ℤ) :
    (if sub then (FpVal.num z m e).negate else .num z m e) = .num (z ^^ sub) m e := by
  cases sub
  · rw [Bool.xor_false]
    rfl
  · rw [Bool.xor_true]
    rfl

theorem withSign_addend (sub z : Bool) (x : ℚ) :
    withSign (z ^^ sub) x = if sub then -withSign z x else withSign z x := by
  cases sub
  · rw [Bool.xor_false]
    rfl
  · rw [Bool.xor_true, withSign_not]
    rfl

theorem fused_rounds {i : Instr} {single sub neg : Bool} (hfp : bit s.msr 50 = true) (hfe : FeOff s)
    (hni : bit s.fpscr 61 = false) (ha : isFinite (s.getFpr a)) (hb : isFinite (s.getFpr b)) (hc : isFinite (s.getFpr c))
    (hf : single = true → ∀ w ∈ [s.getFpr a, s.getFpr b, s.getFpr c], singleRepresentable w = true)
    (hx : exec i s = s.fpFused single sub neg d a c b rc) :
    let v := valueOf (s.getFpr a) * valueOf (s.getFpr c) + if sub then -valueOf (s.getFpr b) else valueOf (s.getFpr b)
    let p := (s.getFpr a).msb ^^ (s.getFpr c).msb
    let q := (s.getFpr b).msb ^^ sub
    (InRange (formatOfSingle single) v → DeliversRounded i s d (formatOfSingle single) neg v) ∧
      (v = 0 → DeliversZero i s d ((if p = q then p else decide (s.fpscr.setWidth 2 = (3 : BitVec 2))) ^^ neg)) := by
  intro v p q
  obtain ⟨m, e, hum, hvm⟩ := valueOf_unpack ha
  obtain ⟨n, g, hun, hvn⟩ := valueOf_unpack hc
  obtain ⟨k, h, huk, hvk⟩ := valueOf_unpack hb
  have hl := leaves_fpFused hfp hfe (inFormat_of_singles hni hf) hx
  unfold State.fusedResult at hl
  rw [operand_ieee hni, operand_ieee hni, operand_ieee hni, hum, hun, huk, negate_addend] at hl
  have hst := fpMulAdd_stands s.rn (s.getFpr a).msb (s.getFpr c).msb q m n k e g h
  rw [← hvm, ← hvn, withSign_addend, ← hvk] at hst
  exact rounds_of_stands (formatOf_is single)
    (any_isSnan_of_finite (l := [s.getFpr a, s.getFpr b, s.getFpr c]) (by simp [ha, hb, hc])) hst hl

/-- frsp of a finite operand. -/
theorem frsp_rounds (hfp : bit s.msr 50 = true) (hfe : FeOff s) (hni : bit s.fpscr 61 = false) (hb : isFinite (s.getFpr b)) :
    (InRange singleFormat (valueOf (s.getFpr b)) →
        DeliversRounded (.frsp d b rc) s d singleFormat false (valueOf (s.getFpr b))) ∧
      (valueOf (s.getFpr b) = 0 → DeliversZero (.frsp d b rc) s d (s.getFpr b).msb) := by
  obtain ⟨m, e, hu, hv⟩ := valueOf_unpack hb
  have hl := leaves_putResult hfe (conclude_exc (frspExact_sound _) _ _ _) (.refl s) (exec_frsp (frD := d) (rc := rc) hfp b)
  have hx : frspExact (s.getFpr b) = exactOf (s.getFpr b).msb m e := by
    unfold frspExact
    rw [hu]
  rw [operand_ieee hni, hx] at hl
  have hst := exactOf_stands (s.getFpr b).msb m e
  rw [← hv] at hst
  have := rounds_of_stands (neg := false) fpSingle_is
    (any_isSnan_of_finite (l := [s.getFpr b]) (by simp [hb])) hst hl
  rwa [Bool.xor_false] at this

/-! ### The operations -/

section
variable {single : Bool} (hfp : bit s.msr 50 = true) (hfe : FeOff s) (hni : bit s.fpscr 61 = false)
  (ha : isFinite (s.getFpr a)) (hb : isFinite (s.getFpr b))
  (hf : single = true → ∀ w ∈ [s.getFpr a, s.getFpr b], singleRepresentable w = true)
include hfp hfe hni ha hb hf

theorem add_rounds {i : Instr} (hx : exec i s = s.fpBinary single (fpAdd s.rn) d a b rc) :
    (InRange (formatOfSingle single) (valueOf (s.getFpr a) + valueOf (s.getFpr b)) →
        DeliversRounded i s d (formatOfSingle single) false (valueOf (s.getFpr a) + valueOf (s.getFpr b))) ∧
      (valueOf (s.getFpr a) + valueOf (s.getFpr b) = 0 → DeliversZero i s d (if (s.getFpr a).msb = (s.getFpr b).msb then
        (s.getFpr a).msb else decide (s.fpscr.setWidth 2 = (3 : BitVec 2)))) := by
  obtain ⟨m, e, hum, hvm⟩ := valueOf_unpack ha
  obtain ⟨n, g, hun, hvn⟩ := valueOf_unpack hb
  refine binary_rounds hfp hfe hni (fpAdd_sound _) ha hb hf ?_ hx
  rw [hum, hun, hvm, hvn]
  exact fpAdd_stands s.rn _ _ m n e g

theorem sub_rounds {i : Instr} (hx : exec i s = s.fpBinary single (fun x y => fpAdd s.rn x y.negate) d a b rc) :
    (InRange (formatOfSingle single) (valueOf (s.getFpr a) - valueOf (s.getFpr b)) →
        DeliversRounded i s d (formatOfSingle single) false (valueOf (s.getFpr a) - valueOf (s.getFpr b))) ∧
      (valueOf (s.getFpr a) - valueOf (s.getFpr b) = 0 → DeliversZero i s d (if (s.getFpr a).msb = !(s.getFpr b).msb then
        (s.getFpr a).msb else decide (s.fpscr.setWidth 2 = (3 : BitVec 2)))) := by
  obtain ⟨m, e, hum, hvm⟩ := valueOf_unpack ha
  obtain ⟨n, g, hun, hvn⟩ := valueOf_unpack hb
  refine binary_rounds (op := fun x y => fpAdd s.rn x y.negate) hfp hfe hni (fun _ _ => fpAdd_sound _ _ _) ha hb hf ?_ hx
  rw [hum, hun, hvm, hvn, sub_eq_add_neg, ← withSign_not]
  exact fpAdd_stands s.rn _ _ m n e g

theorem mul_rounds {i : Instr} (hx : exec i s = s.fpBinary single fpMul d a b rc) :
    (InRange (formatOfSingle single) (valueOf (s.getFpr a) * valueOf (s.getFpr b)) →
        DeliversRounded i s d (formatOfSingle single) false (valueOf (s.getFpr a) * valueOf (s.getFpr b))) ∧
      (valueOf (s.getFpr a) * valueOf (s.getFpr b) = 0 → DeliversZero i s d ((s.getFpr a).msb ^^ (s.getFpr b).msb)) := by
  obtain ⟨m, e, hum, hvm⟩ := valueOf_unpack ha
  obtain ⟨n, g, hun, hvn⟩ := valueOf_unpack hb
  refine binary_rounds hfp hfe hni fpMul_sound ha hb hf ?_ hx
  rw [hum, hun, hvm, hvn]
  exact fpMul_stands _ _ m n e g

theorem div_rounds (h0 : valueOf (s.getFpr b) ≠ 0) {i : Instr} (hx : exec i s = s.fpBinary single fpDiv d a b rc) :
    (InRange (formatOfSingle single) (valueOf (s.getFpr a) / valueOf (s.getFpr b)) →
        DeliversRounded i s d (formatOfSingle single) false (valueOf (s.getFpr a) / valueOf (s.getFpr b))) ∧
      (valueOf (s.getFpr a) = 0 → DeliversZero i s d ((s.getFpr a).msb ^^ (s.getFpr b).msb)) := by
  obtain ⟨m, e, hum, hvm⟩ := valueOf_unpack ha
  obtain ⟨n, g, hun, hvn⟩ := valueOf_unpack hb
  have hn : n ≠ 0 := fun hn => h0 (by rw [hvn, withSign_eq_zero, magnitude_eq_zero, hn])
  have := binary_rounds (v := valueOf (s.getFpr a) / valueOf (s.getFpr b)) (z := (s.getFpr a).msb ^^ (s.getFpr b).msb)
    hfp hfe hni fpDiv_sound ha hb hf (by
      rw [hum, hun, hvm, hvn]
      exact fpDiv_stands _ _ m n hn (unpack_lt hun) e g) hx
  exact ⟨this.1, fun hz => this.2 (by rw [hz, zero_div])⟩

end

end Sys2Proof.Machine


/-! The estimates fres and frsqrte (42 R944), and O29. -/

namespace Sys2Proof.Machine

variable {s t : State} {d a b c : BitVec 5} {rc : Bool}

/-! ### Numbers that a format holds -/

/-- A multiple of the unit is rounded to itself alone. -/
theorem RoundsTo.eq_of_multiple {rn : BitVec 2} {u v : ℚ} {n k : ℤ} (hu : 0 < u) (hv : v = k * u) (h : RoundsTo rn u v n) :
    n * u = v := by
  have h1 := h.1
  rw [hv, ← sub_mul, abs_mul, abs_of_pos hu, mul_lt_iff_lt_one_left hu, ← Int.cast_sub, ← Int.cast_abs] at h1
  have h2 : |n - k| < 1 := by exact_mod_cast h1
  rw [hv, sub_eq_zero.1 (Int.abs_lt_one_iff.1 h2)]

/-- A number of at most p bits, or a power of two. -/
theorem low_bits_zero {q p : ℕ} (hp : 1 ≤ p) (hq : q ≠ 0) (h : q ≤ 2 ^ p) : q % 2 ^ (Nat.log2 q - (p - 1)) = 0 := by
  rcases lt_or_eq_of_le h with h | rfl
  · have : Nat.log2 q < p := (Nat.log2_lt hq).2 h
    rw [show Nat.log2 q - (p - 1) = 0 by omega]
    exact Nat.mod_one q
  · rw [Nat.log2_two_pow, show p - (p - 1) = 1 by omega, pow_one]
    exact Nat.mod_eq_zero_of_dvd (dvd_pow_self 2 (by omega))

/-- A number whose significand has at most p bits is a multiple of the unit of its exponent. -/
theorem multiple_of_bits {m p : ℕ} (e : ℤ) (h : m % 2 ^ (Nat.log2 m - (p - 1)) = 0) (hp : 1 ≤ p) :
    ∃ k : ℕ, (m : ℚ) * 2 ^ e = k * 2 ^ (e + Nat.log2 m - (p - 1) : ℤ) := by
  by_cases hl : p - 1 ≤ Nat.log2 m
  · refine ⟨m / 2 ^ (Nat.log2 m - (p - 1)), ?_⟩
    have hm : m = m / 2 ^ (Nat.log2 m - (p - 1)) * 2 ^ (Nat.log2 m - (p - 1)) := (Nat.div_mul_cancel (Nat.dvd_of_mod_eq_zero h)).symm
    conv_lhs => rw [hm]
    rw [show (e + Nat.log2 m - (p - 1) : ℤ) = ((Nat.log2 m - (p - 1) : ℕ) : ℤ) + e by omega, zpow_add₀ (two_ne_zero' ℚ),
      zpow_natCast]
    push_cast
    ring
  · refine ⟨m * 2 ^ (p - 1 - Nat.log2 m), ?_⟩
    rw [show e = ((p - 1 - Nat.log2 m : ℕ) : ℤ) + (e + Nat.log2 m - (p - 1)) by omega, zpow_add₀ (two_ne_zero' ℚ), zpow_natCast,
      show ((p - 1 - Nat.log2 m : ℕ) : ℤ) + (e + Nat.log2 m - (p - 1)) + Nat.log2 m - (p - 1) = e + Nat.log2 m - (p - 1) by omega]
    push_cast
    ring

/-- A number in the normal range that the format holds is delivered itself. -/
theorem deliver_exact {fmt : FpFormat} {g : FloatFormat} (hg : fmt.Is g) (f : Word) (sign : Bool) {m : ℕ} (hm : m ≠ 0) (e : ℤ)
    (hv : InRange g ((m : ℚ) * 2 ^ e)) (hbits : m % 2 ^ (Nat.log2 m - (g.p - 1)) = 0) :
    ∃ r up, deliver fmt f sign m e = { exc := 0, res := some r, kind := .normal, fr := some up, fi := false } ∧
      isFinite r ∧ valueOf r = withSign sign (m * 2 ^ e) ∧ r.msb = sign ∧
      RoundsToBits g.p (f.setWidth 2) (valueOf r) (valueOf r) := by
  obtain ⟨hp2, -⟩ := hg.bits
  obtain ⟨r, inexact, up, hd, hfin, hmsb, hr, hin, -⟩ := deliver_rounds hg f sign hm e hv
  have hrr := hr
  obtain ⟨x, n, hx1, hx2, hrn, hto⟩ := hr
  obtain ⟨hb1, hb2⟩ := log2_bounds hm e
  have habs : |withSign sign ((m : ℚ) * 2 ^ e)| = m * 2 ^ e := by rw [abs_withSign, abs_of_nonneg (by positivity)]
  have hx : x = e + Nat.log2 m := by
    have h1 := exponent_le (hb1.trans_eq habs.symm) hx2
    have h2 := exponent_le hx1 (by rw [habs]; exact hb2)
    omega
  obtain ⟨k, hk⟩ := multiple_of_bits e hbits (by omega)
  have hmul : withSign sign ((m : ℚ) * 2 ^ e) = ((if sign then -(k : ℤ) else k : ℤ) : ℚ) * 2 ^ (x - (g.p - 1) : ℤ) := by
    rw [hk, hx]
    unfold withSign
    split <;> push_cast <;> ring
  have hval : valueOf r = withSign sign (m * 2 ^ e) := hrn.trans (hto.eq_of_multiple (zpow_pos two_pos _) hmul)
  have hin0 : inexact = false := Bool.eq_false_iff.2 fun hi => (hin.1 hi) hval
  subst hin0
  exact ⟨r, up, hd, hfin, hval, hmsb, by rw [← hval] at hrr; exact hrr⟩

/-- Rounding to p bits. -/
theorem roundAt_bits (rn : BitVec 2) (sign : Bool) {m : ℕ} (hm : m ≠ 0) (e : ℤ) (p : ℕ) :
    let r := roundAt rn sign m e (e + Nat.log2 m - p)
    2 ^ p ≤ r.q ∧ r.q ≤ 2 ^ (p + 1) ∧ |(r.q : ℚ) * 2 ^ r.t - m * 2 ^ e| ≤ m * 2 ^ e / 2 ^ p := by
  intro r
  obtain ⟨ht, ⟨hto, -⟩, -⟩ := roundAt_rounds rn sign m e (e + Nat.log2 m - p)
  change r.t = _ at ht
  change |((if sign then -(r.q : ℤ) else r.q : ℤ) : ℚ) * _ - _| < _ at hto
  obtain ⟨hb1, hb2⟩ := log2_bounds hm e
  set u : ℚ := 2 ^ (e + Nat.log2 m - p : ℤ) with hu
  have hupos : 0 < u := zpow_pos two_pos _
  have hxu : (2 : ℚ) ^ (e + Nat.log2 m) = 2 ^ p * u := by
    rw [hu, ← zpow_natCast, ← zpow_add₀ (two_ne_zero' ℚ)]
    congr 1
    omega
  have hx1 : (2 : ℚ) ^ (e + Nat.log2 m + 1) = 2 ^ (p + 1) * u := by
    rw [zpow_add_one₀ (two_ne_zero' ℚ), hxu, pow_succ]
    ring
  have hd : |(r.q : ℚ) * u - m * 2 ^ e| < u := by
    rwa [show (((if sign then -(r.q : ℤ) else r.q) : ℤ) : ℚ) * u - withSign sign (m * 2 ^ e) =
      withSign sign (r.q * u - m * 2 ^ e) by unfold withSign; split <;> push_cast <;> ring, abs_withSign] at hto
  have hd' := abs_lt.1 hd
  rw [hxu] at hb1
  rw [hx1] at hb2
  refine ⟨?_, ?_, ?_⟩
  · have : (2 ^ p : ℚ) * u < (r.q + 1) * u := by linarith
    have := lt_of_mul_lt_mul_right this hupos.le
    have : 2 ^ p < r.q + 1 := by exact_mod_cast this
    omega
  · have : (r.q : ℚ) * u < (2 ^ (p + 1) + 1) * u := by linarith
    have := lt_of_mul_lt_mul_right this hupos.le
    have : r.q < 2 ^ (p + 1) + 1 := by exact_mod_cast this
    omega
  · rw [ht]
    refine hd.le.trans ?_
    rw [le_div_iff₀ (by positivity)]
    linarith

/-! ### What the estimates accept -/

theorem scaledLe_iff (m : ℕ) (e : ℤ) (n : ℕ) : scaledLe m e n = true ↔ (m : ℚ) * 2 ^ e ≤ n := by
  unfold scaledLe
  split
  · next h =>
    obtain ⟨k, rfl⟩ := Int.eq_ofNat_of_zero_le h
    rw [decide_eq_true_iff, Nat.shiftLeft_eq, zpow_natCast]
    exact_mod_cast Iff.rfl
  · next h =>
    obtain ⟨k, hk⟩ := Int.eq_ofNat_of_zero_le (show 0 ≤ -e by omega)
    rw [decide_eq_true_iff, Nat.shiftLeft_eq, show e = -(k : ℤ) by omega, zpow_neg, zpow_natCast, neg_neg, Int.toNat_natCast,
      ← div_eq_mul_inv, div_le_iff₀ (by positivity)]
    exact_mod_cast Iff.rfl

theorem scaledGe_iff (m : ℕ) (e : ℤ) (n : ℕ) : scaledGe m e n = true ↔ (n : ℚ) ≤ m * 2 ^ e := by
  unfold scaledGe
  split
  · next h =>
    obtain ⟨k, rfl⟩ := Int.eq_ofNat_of_zero_le h
    rw [decide_eq_true_iff, Nat.shiftLeft_eq, zpow_natCast]
    exact_mod_cast Iff.rfl
  · next h =>
    obtain ⟨k, hk⟩ := Int.eq_ofNat_of_zero_le (show 0 ≤ -e by omega)
    rw [decide_eq_true_iff, Nat.shiftLeft_eq, show e = -(k : ℤ) by omega, zpow_neg, zpow_natCast, neg_neg, Int.toNat_natCast,
      ← div_eq_mul_inv, le_div_iff₀ (by positivity)]
    exact_mod_cast Iff.rfl

/-- A value of 24 bits that may stand for the reciprocal of n * 2^g. -/
def IsReciprocal (m : ℕ) (e : ℤ) (n : ℕ) (g : ℤ) : Prop :=
  m ≠ 0 ∧ m % 2 ^ (Nat.log2 m - 23) = 0 ∧ |(m : ℚ) * 2 ^ e * (n * 2 ^ g) - 1| ≤ 1 / 256

theorem fresAccepts_reciprocal {m n : ℕ} {e g : ℤ} (h : fresAccepts m e n g = true) : IsReciprocal m e n g := by
  unfold fresAccepts at h
  rw [Bool.and_eq_true, Bool.and_eq_true, Bool.and_eq_true, decide_eq_true_iff, decide_eq_true_iff, scaledLe_iff,
    scaledGe_iff, zpow_add₀ (two_ne_zero' ℚ)] at h
  obtain ⟨⟨h1, h2⟩, h3, h4⟩ := h
  push_cast at h3 h4
  have e1 : (m : ℚ) * n * 256 * (2 ^ e * 2 ^ g) = 256 * (m * 2 ^ e * (n * 2 ^ g)) := by ring
  rw [e1] at h3 h4
  exact ⟨h1, h2, abs_le.2 ⟨by linarith, by linarith⟩⟩

/-- The reciprocal rounded to 24 bits. -/
theorem near_reciprocal (z : Bool) {n : ℕ} (hn : n ≠ 0) (h53 : n < 2 ^ 53) (g : ℤ) :
    let r := roundAt 0 z (2 ^ 120 / n) (-120 - g) (-120 - g + Nat.log2 (2 ^ 120 / n) - 23)
    IsReciprocal r.q r.t n g := by
  intro r
  have hn' : (0 : ℚ) < n := by exact_mod_cast Nat.pos_of_ne_zero hn
  set q := 2 ^ 120 / n with hq
  have hq0 : q ≠ 0 := by
    have : 2 ^ 67 ≤ q := by
      rw [hq, Nat.le_div_iff_mul_le (Nat.pos_of_ne_zero hn)]
      omega
    omega
  obtain ⟨h1, h2, h3⟩ := roundAt_bits 0 z hq0 (-120 - g) 23
  change 2 ^ 23 ≤ r.q at h1
  change r.q ≤ 2 ^ 24 at h2
  change |(r.q : ℚ) * 2 ^ r.t - q * 2 ^ (-120 - g)| ≤ q * 2 ^ (-120 - g) / 2 ^ 23 at h3
  have hr0 : r.q ≠ 0 := by omega
  refine ⟨hr0, low_bits_zero (by decide) hr0 h2, ?_⟩
  have hdm : n * q + 2 ^ 120 % n = 2 ^ 120 := Nat.div_add_mod _ _
  have hmod : 2 ^ 120 % n < n := Nat.mod_lt _ (Nat.pos_of_ne_zero hn)
  have hlo : 2 ^ 120 - 2 ^ 53 ≤ n * q := by omega
  have hhi : n * q ≤ 2 ^ 120 := by omega
  have hlo' : (2 ^ 120 - 2 ^ 53 : ℚ) ≤ n * q := by
    have : ((2 ^ 120 - 2 ^ 53 : ℕ) : ℚ) ≤ ((n * q : ℕ) : ℚ) := Nat.cast_le.2 hlo
    push_cast at this
    norm_num at this ⊢
    exact this
  have hhi' : (n * q : ℚ) ≤ 2 ^ 120 := by exact_mod_cast hhi
  have hy : (0 : ℚ) < n * 2 ^ g := by positivity
  have hB : (q : ℚ) * 2 ^ (-120 - g) * (n * 2 ^ g) = n * q / 2 ^ 120 := by
    rw [zpow_sub₀ (two_ne_zero' ℚ)]
    have : (2 : ℚ) ^ g ≠ 0 := zpow_ne_zero _ two_ne_zero
    field_simp
  have hA : |(r.q : ℚ) * 2 ^ r.t * (n * 2 ^ g) - (n : ℚ) * q / 2 ^ 120| ≤ (n : ℚ) * q / 2 ^ 120 / 2 ^ 23 := by
    rw [← hB, ← sub_mul, abs_mul, abs_of_pos hy]
    calc _ ≤ (q : ℚ) * 2 ^ (-120 - g) / 2 ^ 23 * (n * 2 ^ g) := mul_le_mul_of_nonneg_right h3 hy.le
      _ = _ := by ring
  have hA' := abs_le.1 hA
  have hx1 : (n * q / 2 ^ 120 : ℚ) ≤ 1 := (div_le_one (by positivity)).2 hhi'
  have hx2 : (1 - 2 ^ 53 / 2 ^ 120 : ℚ) ≤ n * q / 2 ^ 120 := by
    rw [le_div_iff₀ (by positivity)]
    calc _ = (2 ^ 120 - 2 ^ 53 : ℚ) := by ring
      _ ≤ _ := hlo'
  generalize (n * q / 2 ^ 120 : ℚ) = β at *
  rw [abs_le]
  norm_num at hA' hx2 ⊢
  constructor <;> linarith

theorem fresEstimate_spec {v : DWord} {z : Bool} {n : ℕ} {g : ℤ} (hv : unpack v = .num z n g) (hn : n ≠ 0) :
    ∃ m e, fresEstimate v = .finite z m e ∧ IsReciprocal m e n g := by
  have hnear := near_reciprocal z hn (unpack_lt hv) g
  unfold fresEstimate
  rw [hv]
  dsimp only
  split
  · next u m e _ =>
    by_cases hc : u = z ∧ fresAccepts m e n g = true
    · rw [if_pos hc]
      exact ⟨m, e, rfl, fresAccepts_reciprocal hc.2⟩
    · rw [if_neg hc]
      exact ⟨_, _, rfl, hnear⟩
  · exact ⟨_, _, rfl, hnear⟩

/-! ### The reciprocal square root -/

/-- The bits of a square root, one by one. -/
theorem isqrt_invariant (n : ℕ) (hn : n < 2 ^ 130) : ∀ k ≤ 65,
    ((List.range k).foldl (fun r i => if (r + 2 ^ (64 - i)) ^ 2 ≤ n then r + 2 ^ (64 - i) else r) 0) ^ 2 ≤ n ∧
      n < ((List.range k).foldl (fun r i => if (r + 2 ^ (64 - i)) ^ 2 ≤ n then r + 2 ^ (64 - i) else r) 0 + 2 ^ (65 - k)) ^ 2
  | 0, _ => ⟨Nat.zero_le _, by
      rw [List.range_zero, List.foldl_nil, Nat.zero_add, ← pow_mul]
      exact hn⟩
  | k + 1, hk => by
    obtain ⟨h1, h2⟩ := isqrt_invariant n hn k (by omega)
    rw [List.range_succ, List.foldl_append, List.foldl_cons, List.foldl_nil]
    generalize (List.range k).foldl _ 0 = r at *
    rw [show 65 - k = 64 - k + 1 by omega, pow_succ 2 (64 - k)] at h2
    rw [show 65 - (k + 1) = 64 - k by omega]
    generalize 2 ^ (64 - k) = w at *
    by_cases hc : (r + w) ^ 2 ≤ n
    · rw [if_pos hc]
      exact ⟨hc, by rwa [show r + w + w = r + w * 2 by ring]⟩
    · rw [if_neg hc]
      exact ⟨h1, not_le.1 hc⟩

theorem isqrt_spec {n : ℕ} (hn : n < 2 ^ 130) : isqrt n ^ 2 ≤ n ∧ n < (isqrt n + 1) ^ 2 := isqrt_invariant n hn 65 le_rfl

/-- A value of 53 bits that may stand for the reciprocal square root of n * 2^g. -/
def IsReciprocalRoot (m : ℕ) (e : ℤ) (n : ℕ) (g : ℤ) : Prop :=
  m ≠ 0 ∧ m % 2 ^ (Nat.log2 m - 52) = 0 ∧ (31 / 32) ^ 2 ≤ ((m : ℚ) * 2 ^ e) ^ 2 * (n * 2 ^ g) ∧
    ((m : ℚ) * 2 ^ e) ^ 2 * (n * 2 ^ g) ≤ (33 / 32) ^ 2

theorem frsqrteAccepts_root {m n : ℕ} {e g : ℤ} (hm : m < 2 ^ 53) (h : frsqrteAccepts m e n g = true) :
    IsReciprocalRoot m e n g := by
  unfold frsqrteAccepts at h
  rw [Bool.and_eq_true, scaledLe_iff, scaledGe_iff, zpow_add₀ (two_ne_zero' ℚ), zpow_mul'] at h
  obtain ⟨h1, h2⟩ := h
  push_cast at h1 h2
  have e1 : (m : ℚ) * m * n * 1024 * ((2 ^ e) ^ (2 : ℤ) * 2 ^ g) = 1024 * ((m * 2 ^ e) ^ 2 * (n * 2 ^ g)) := by
    rw [show ((2 : ℚ) ^ e) ^ (2 : ℤ) = (2 ^ e) ^ 2 from zpow_natCast _ 2]
    ring
  rw [e1] at h1 h2
  have hm0 : m ≠ 0 := by
    rintro rfl
    norm_num at h2
  exact ⟨hm0, low_bits_zero (by decide) hm0 hm.le, by linarith, by linarith⟩

/-- The root that is cut off, as a number. -/
theorem root_bounds {k : ℕ} (hk0 : k ≠ 0) (hk : k < 2 ^ 54) :
    let q := isqrt (2 ^ 128 / k)
    q ≠ 0 ∧ (q : ℚ) ^ 2 * k ≤ 2 ^ 128 ∧ (1000 / 1001 : ℚ) ^ 2 * 2 ^ 128 ≤ (q : ℚ) ^ 2 * k := by
  intro q
  set N := 2 ^ 128 / k with hN
  have hkpos := Nat.pos_of_ne_zero hk0
  have hNlt : N < 2 ^ 130 := lt_of_le_of_lt (Nat.div_le_self _ _) (by decide)
  obtain ⟨h1, h2⟩ := isqrt_spec hNlt
  change q ^ 2 ≤ N at h1
  change N < (q + 1) ^ 2 at h2
  have hNbig : 2 ^ 74 ≤ N := by
    rw [hN, Nat.le_div_iff_mul_le hkpos]
    omega
  have hq : 1000 ≤ q := by
    by_contra hc
    have : (q + 1) ^ 2 ≤ 1000 ^ 2 := Nat.pow_le_pow_left (by omega) 2
    omega
  have hhi : q ^ 2 * k ≤ 2 ^ 128 := (Nat.mul_le_mul_right k h1).trans (Nat.div_mul_le_self _ _)
  have hlo : 2 ^ 128 ≤ (q + 1) ^ 2 * k := by
    have h3 : 2 ^ 128 < (N + 1) * k := by
      rw [hN]
      exact Nat.lt_mul_of_div_lt (Nat.lt_succ_self _) hkpos
    exact h3.le.trans (Nat.mul_le_mul_right k (by omega))
  refine ⟨by omega, by exact_mod_cast hhi, ?_⟩
  have hlo' : (2 : ℚ) ^ 128 ≤ (q + 1) ^ 2 * k := by exact_mod_cast hlo
  have hq' : (1000 : ℚ) ≤ q := by exact_mod_cast hq
  have hk' : (0 : ℚ) ≤ k := Nat.cast_nonneg k
  have hstep : (1000 / 1001 : ℚ) * (q + 1) ≤ q := by linarith
  calc (1000 / 1001 : ℚ) ^ 2 * 2 ^ 128 ≤ (1000 / 1001) ^ 2 * ((q + 1) ^ 2 * k) := mul_le_mul_of_nonneg_left hlo' (by positivity)
    _ = ((1000 / 1001) * (q + 1)) ^ 2 * k := by ring
    _ ≤ (q : ℚ) ^ 2 * k := mul_le_mul_of_nonneg_right (pow_le_pow_left₀ (by positivity) hstep 2) hk'

theorem near_root {n : ℕ} (hn : n ≠ 0) (h53 : n < 2 ^ 53) (g : ℤ) :
    let odd := (g % 2).toNat
    let q := isqrt (2 ^ 128 / (n <<< odd))
    let r := roundAt 1 false q (-64 - (g - odd) / 2) (-64 - (g - odd) / 2 + Nat.log2 q - 52)
    IsReciprocalRoot r.q r.t n g := by
  intro odd q r
  have hodd : odd = 0 ∨ odd = 1 := by omega
  obtain ⟨h, hh⟩ : ∃ h : ℤ, (g - odd) / 2 = h ∧ g = odd + 2 * h := ⟨(g - odd) / 2, rfl, by omega⟩
  obtain ⟨hh1, hg⟩ := hh
  have hk0 : n <<< odd ≠ 0 := by
    rw [Nat.shiftLeft_eq]
    exact mul_ne_zero hn (pow_ne_zero _ two_ne_zero)
  have hk54 : n <<< odd < 2 ^ 54 := by
    rw [Nat.shiftLeft_eq]
    rcases hodd with h | h <;> rw [h] <;> omega
  obtain ⟨hq0, hhi, hlo⟩ := root_bounds hk0 hk54
  change q ≠ 0 at hq0
  change (q : ℚ) ^ 2 * _ ≤ _ at hhi
  change _ ≤ (q : ℚ) ^ 2 * _ at hlo
  obtain ⟨h1, h2, h3⟩ := roundAt_bits 1 false hq0 (-64 - (g - odd) / 2) 52
  change 2 ^ 52 ≤ r.q at h1
  change r.q ≤ 2 ^ 53 at h2
  change |(r.q : ℚ) * 2 ^ r.t - q * 2 ^ (-64 - (g - odd) / 2)| ≤ q * 2 ^ (-64 - (g - odd) / 2) / 2 ^ 52 at h3
  have hr0 : r.q ≠ 0 := by omega
  have hB : ((q : ℚ) * 2 ^ (-64 - (g - odd) / 2)) ^ 2 * (n * 2 ^ g) = q ^ 2 * (n <<< odd : ℕ) / 2 ^ 128 := by
    have e1 : ((2 : ℚ) ^ (-64 - h)) ^ 2 * 2 ^ g = 2 ^ odd / 2 ^ 128 := by
      rw [← zpow_natCast, ← zpow_mul, ← zpow_add₀ (two_ne_zero' ℚ), ← zpow_natCast, ← zpow_natCast,
        ← zpow_sub₀ (two_ne_zero' ℚ)]
      congr 1
      push_cast
      omega
    rw [hh1, mul_pow, mul_comm (n : ℚ), ← mul_assoc, mul_assoc ((q : ℚ) ^ 2), e1, Nat.shiftLeft_eq]
    push_cast
    ring
  have hBpos : (0 : ℚ) ≤ q * 2 ^ (-64 - (g - odd) / 2) := by positivity
  have hy : (0 : ℚ) ≤ n * 2 ^ g := by positivity
  have hβ1 : (q : ℚ) ^ 2 * (n <<< odd : ℕ) / 2 ^ 128 ≤ 1 := (div_le_one (by positivity)).2 hhi
  have hβ2 : (1000 / 1001 : ℚ) ^ 2 ≤ (q : ℚ) ^ 2 * (n <<< odd : ℕ) / 2 ^ 128 := (le_div_iff₀ (by positivity)).2 hlo
  rw [← hB] at hβ1 hβ2
  generalize (q : ℚ) * 2 ^ (-64 - (g - odd) / 2) = B at *
  have h3' := abs_le.1 h3
  refine ⟨hr0, low_bits_zero (by decide) hr0 h2, ?_, ?_⟩
  · calc ((31 : ℚ) / 32) ^ 2 ≤ (999 / 1000) ^ 2 * (1000 / 1001) ^ 2 := by norm_num
      _ ≤ (999 / 1000) ^ 2 * (B ^ 2 * (n * 2 ^ g)) := mul_le_mul_of_nonneg_left hβ2 (by positivity)
      _ = (999 / 1000 * B) ^ 2 * (n * 2 ^ g) := by ring
      _ ≤ (r.q * 2 ^ r.t) ^ 2 * (n * 2 ^ g) :=
        mul_le_mul_of_nonneg_right (pow_le_pow_left₀ (by positivity) (by norm_num at h3' ⊢; linarith) 2) hy
  · calc ((r.q : ℚ) * 2 ^ r.t) ^ 2 * (n * 2 ^ g) ≤ (1001 / 1000 * B) ^ 2 * (n * 2 ^ g) :=
        mul_le_mul_of_nonneg_right (pow_le_pow_left₀ (by positivity) (by norm_num at h3' ⊢; linarith) 2) hy
      _ = (1001 / 1000) ^ 2 * (B ^ 2 * (n * 2 ^ g)) := by ring
      _ ≤ (1001 / 1000) ^ 2 * 1 := mul_le_mul_of_nonneg_left hβ1 (by positivity)
      _ ≤ (33 / 32) ^ 2 := by norm_num

theorem frsqrteEstimate_spec {v : DWord} {z : Bool} {n : ℕ} {g : ℤ} (hv : unpack v = .num z n g) (hn : n ≠ 0) :
    ∃ m e, frsqrteEstimate v = .finite false m e ∧ IsReciprocalRoot m e n g := by
  have hnear := near_root hn (unpack_lt hv) g
  unfold frsqrteEstimate
  rw [hv]
  dsimp only
  split
  · next m e hu =>
    by_cases hc : frsqrteAccepts m e n g = true
    · rw [if_pos hc]
      exact ⟨m, e, rfl, frsqrteAccepts_root (unpack_lt hu) hc⟩
    · rw [if_neg hc]
      exact ⟨_, _, rfl, hnear⟩
  · exact ⟨_, _, rfl, hnear⟩

end Sys2Proof.Machine


/-! What fres and frsqrte deliver on a finite operand (42 R944), and O29. -/

namespace Sys2Proof.Machine

variable {s t : State} {d a b c : BitVec 5} {rc : Bool}

/-! ### Doubles that single format holds -/

theorem magnitudeOf_bounds {v : DWord} (h : dExp v ≠ 0) :
    magnitudeOf v = ((2 ^ 52 + dFrac v : ℕ) : ℚ) * 2 ^ ((dExp v : ℤ) - 1075) ∧
      (2 : ℚ) ^ ((dExp v : ℤ) - 1023) ≤ magnitudeOf v ∧ magnitudeOf v < 2 ^ ((dExp v : ℤ) - 1023 + 1) := by
  have hne : v.extractLsb' 52 11 ≠ 0 := fun hz => h (by unfold dExp; rw [hz]; rfl)
  have hm : magnitudeOf v = ((2 ^ 52 + dFrac v : ℕ) : ℚ) * 2 ^ ((dExp v : ℤ) - 1075) := by
    unfold magnitudeOf dFrac dExp
    rw [if_neg hne]
    push_cast
    rfl
  have hf : ((2 ^ 52 + dFrac v : ℕ) : ℚ) < 2 ^ 53 := by
    have := dFrac_lt v
    exact_mod_cast (by omega : 2 ^ 52 + dFrac v < 2 ^ 53)
  have hl : (2 ^ 52 : ℚ) ≤ ((2 ^ 52 + dFrac v : ℕ) : ℚ) := by exact_mod_cast Nat.le_add_right _ _
  have hpos : (0 : ℚ) < 2 ^ ((dExp v : ℤ) - 1075) := zpow_pos two_pos _
  refine ⟨hm, ?_, ?_⟩
  · rw [hm, show (dExp v : ℤ) - 1023 = (52 : ℕ) + ((dExp v : ℤ) - 1075) by push_cast; ring, zpow_add₀ (two_ne_zero' ℚ),
      zpow_natCast]
    exact mul_le_mul_of_nonneg_right hl hpos.le
  · rw [hm, show (dExp v : ℤ) - 1023 + 1 = (53 : ℕ) + ((dExp v : ℤ) - 1075) by push_cast; ring, zpow_add₀ (two_ne_zero' ℚ),
      zpow_natCast]
    exact mul_lt_mul_of_pos_right hf hpos

theorem abs_valueOf (v : DWord) : |valueOf v| = magnitudeOf v := by
  rw [valueOf_eq_withSign, abs_withSign, abs_of_nonneg (magnitudeOf_nonneg v)]

/-- A double of the normal range of singles is normalised. -/
theorem dExp_ne_zero {v : DWord} (h : (2 : ℚ) ^ (-126 : ℤ) ≤ |valueOf v|) : dExp v ≠ 0 := by
  intro h0
  have hz : v.extractLsb' 52 11 = 0 := BitVec.eq_of_toNat_eq h0
  rw [abs_valueOf] at h
  have hm : magnitudeOf v = ((v.setWidth 52).toNat : ℚ) * 2 ^ (-1074 : ℤ) := if_pos hz
  have hf : ((v.setWidth 52).toNat : ℚ) ≤ 2 ^ 52 := by exact_mod_cast (v.setWidth 52).isLt.le
  have : magnitudeOf v ≤ 2 ^ (-1022 : ℤ) := by
    rw [hm, show (-1022 : ℤ) = (52 : ℕ) + (-1074) by norm_num, zpow_add₀ (two_ne_zero' ℚ), zpow_natCast]
    exact mul_le_mul_of_nonneg_right hf (zpow_pos two_pos _).le
  have := h.trans this
  rw [zpow_le_zpow_iff_right₀ one_lt_two] at this
  omega

/-- A double of the normal range of singles that is a multiple of its single unit. -/
theorem singleRepresentable_of_multiple {rn : BitVec 2} {v : DWord} (hfin : isFinite v) (hr : InRange singleFormat (valueOf v))
    (h : RoundsToBits 24 rn (valueOf v) (valueOf v)) : singleRepresentable v = true := by
  obtain ⟨hr1, hr2⟩ := hr
  change (2 : ℚ) ^ (-126 : ℤ) ≤ _ at hr1
  change _ ≤ (2 - (2 : ℚ) ^ (1 - (24 : ℕ) : ℤ)) * (2 : ℚ) ^ (127 : ℤ) at hr2
  have he := dExp_ne_zero hr1
  obtain ⟨x, n, hx1, hx2, hn, -⟩ := h
  obtain ⟨hm, hb1, hb2⟩ := magnitudeOf_bounds he
  have habs := abs_valueOf v
  have hx : x = (dExp v : ℤ) - 1023 := by
    have h1 := exponent_le (v := valueOf v) (by rw [habs]; exact hb1) hx2
    have h2 := exponent_le hx1 (by rw [habs]; exact hb2)
    omega
  have hlo : -126 ≤ x := exponent_le hr1 hx2
  have hhi : x ≤ 127 := by
    refine exponent_le hx1 (lt_of_le_of_lt hr2 ?_)
    norm_num
  have hfrac : dFrac v % 2 ^ 29 = 0 := by
    have h1 : |(n : ℚ)| * 2 ^ (x - 23) = ((2 ^ 52 + dFrac v : ℕ) : ℚ) * 2 ^ ((dExp v : ℤ) - 1075) := by
      rw [← hm, ← habs, hn, abs_mul, abs_of_pos (zpow_pos two_pos _ : (0 : ℚ) < 2 ^ (x - (((24 : ℕ) : ℤ) - 1)))]
      norm_num
    have h2 : (2 : ℚ) ^ (x - 23) = 2 ^ 29 * 2 ^ ((dExp v : ℤ) - 1075) := by
      rw [← zpow_natCast, ← zpow_add₀ (two_ne_zero' ℚ)]
      congr 1
      push_cast
      omega
    rw [h2, ← mul_assoc, mul_left_inj' (zpow_ne_zero _ two_ne_zero), ← Int.cast_abs] at h1
    have h3 : |n| * 2 ^ 29 = ((2 ^ 52 + dFrac v : ℕ) : ℤ) := by exact_mod_cast h1
    omega
  have hlow : v.setWidth 29 = 0 := by
    refine BitVec.eq_of_toNat_eq ?_
    rw [BitVec.toNat_setWidth]
    rw [dFrac_eq] at hfrac
    show _ = 0
    omega
  unfold singleRepresentable unpack
  rw [if_neg ((isFinite_iff v).1 hfin), if_neg he, hlow]
  simp only [Bool.or_eq_true, Bool.and_eq_true, decide_eq_true_iff]
  refine .inl (.inr ⟨⟨by omega, by omega⟩, rfl⟩)

/-! ### The estimates -/

/-- A nonzero finite operand. -/
theorem unpack_of_value {v : DWord} (hv : isFinite v) (h0 : valueOf v ≠ 0) :
    ∃ m e, unpack v = .num v.msb m e ∧ valueOf v = withSign v.msb (m * 2 ^ e) ∧ m ≠ 0 := by
  obtain ⟨m, e, hu, he⟩ := valueOf_unpack hv
  refine ⟨m, e, hu, he, fun hm => h0 ?_⟩
  rw [he, withSign_eq_zero, magnitude_eq_zero, hm]

/-- What an estimate of a finite number leaves, if that is a number of the format. -/
theorem leaves_estimate {i : Instr} {fmt : FpFormat} {g : FloatFormat} (hg : fmt.Is g) {v : DWord} (hv : isFinite v) {sign : Bool}
    {m : ℕ} (hm : m ≠ 0) {e : ℤ} (hr : InRange g ((m : ℚ) * 2 ^ e)) (hbits : m % 2 ^ (Nat.log2 m - (g.p - 1)) = 0) {fi : Bool}
    (h : ∃ t, exec i s = .next t ∧ Leaves s d ((conclude fmt s.fpscr [v] (.finite sign m e)).estimate fi) t) :
    ∃ t, exec i s = .next t ∧ t.pc = s.pc + 4 ∧ isFinite (t.getFpr d) ∧
      valueOf (t.getFpr d) = withSign sign (m * 2 ^ e) ∧
      RoundsToBits g.p (s.fpscr.setWidth 2) (valueOf (t.getFpr d)) (valueOf (t.getFpr d)) ∧
      t.fpscr.extractLsb' 12 5 = if sign then 0b01000 else 0b00100 := by
  obtain ⟨t, ht, hl⟩ := h
  obtain ⟨r, up, hd, hfin, hval, hmsb, hrr⟩ := deliver_exact hg s.fpscr sign hm e hr hbits
  rw [conclude_finite (any_isSnan_of_finite (by simp [hv])), hd] at hl
  obtain ⟨hgpr, hfprf⟩ := hl.fpr r rfl
  refine ⟨t, ht, hl.pc, hgpr ▸ hfin, hgpr ▸ hval, hgpr ▸ hrr, ?_⟩
  rw [← hmsb]
  exact hfprf

/-- An estimate within 1/256 of a reciprocal in range is in range. -/
theorem inRange_of_reciprocal {x y : ℚ} (hx : 0 ≤ x) (hy : 0 < y) (h : |x * y - 1| ≤ 1 / 256) (h1 : 2 ^ (-125 : ℤ) ≤ y⁻¹)
    (h2 : y⁻¹ ≤ 2 ^ (127 : ℤ)) : InRange singleFormat x := by
  obtain ⟨h3, h4⟩ := abs_le.1 h
  have hlo : 255 / 256 * y⁻¹ ≤ x := by
    rw [← div_eq_mul_inv, div_le_iff₀ hy]
    linarith
  have hhi : x ≤ 257 / 256 * y⁻¹ := by
    rw [← div_eq_mul_inv, le_div_iff₀ hy]
    linarith
  unfold InRange
  rw [abs_of_nonneg hx]
  refine ⟨?_, ?_⟩
  · show (2 : ℚ) ^ (-126 : ℤ) ≤ x
    have : (2 : ℚ) ^ (-126 : ℤ) ≤ 255 / 256 * 2 ^ (-125 : ℤ) := by norm_num
    exact this.trans ((mul_le_mul_of_nonneg_left h1 (by norm_num)).trans hlo)
  · show x ≤ (2 - (2 : ℚ) ^ (1 - (24 : ℕ) : ℤ)) * (2 : ℚ) ^ (127 : ℤ)
    have : 257 / 256 * (2 : ℚ) ^ (127 : ℤ) ≤ (2 - (2 : ℚ) ^ (1 - (24 : ℕ) : ℤ)) * (2 : ℚ) ^ (127 : ℤ) := by norm_num
    exact hhi.trans ((mul_le_mul_of_nonneg_left h2 (by norm_num)).trans this)

theorem fres_estimates (hfp : bit s.msr 50 = true) (hfe : FeOff s) (hni : bit s.fpscr 61 = false) (hb : isFinite (s.getFpr b))
    (hs : singleRepresentable (s.getFpr b) = true) (h1 : 2 ^ (-125 : ℤ) ≤ |(valueOf (s.getFpr b))⁻¹|)
    (h2 : |(valueOf (s.getFpr b))⁻¹| ≤ 2 ^ (127 : ℤ)) :
    ∃ t, exec (.fres d b rc) s = .next t ∧ t.pc = s.pc + 4 ∧ isFinite (t.getFpr d) ∧ singleRepresentable (t.getFpr d) = true ∧
      |valueOf (t.getFpr d) * valueOf (s.getFpr b) - 1| ≤ 1 / 256 ∧
      t.fpscr.extractLsb' 12 5 = if (s.getFpr b).msb then 0b01000 else 0b00100 := by
  have h0 : valueOf (s.getFpr b) ≠ 0 := fun hz => by
    rw [hz, inv_zero, abs_zero] at h1
    exact absurd (zpow_pos two_pos (-125) : (0 : ℚ) < 2 ^ (-125 : ℤ)) (not_lt.2 h1)
  obtain ⟨n, g, hu, hv, hn⟩ := unpack_of_value hb h0
  obtain ⟨m, e, hest, hm, hbits, herr⟩ := fresEstimate_spec hu hn
  have hx : fresExact (s.operand true b) = .finite (s.getFpr b).msb m e := by
    rw [operand_ieee hni]
    unfold fresExact
    rw [hu]
    exact (if_neg hn).trans hest
  have hy : (0 : ℚ) < n * 2 ^ g := lt_of_le_of_ne (by positivity) fun hz => hn ((magnitude_eq_zero n g).1 hz.symm)
  rw [abs_inv, hv, abs_withSign, abs_of_pos hy] at h1 h2
  have hrange := inRange_of_reciprocal (x := m * 2 ^ e) (by positivity) hy herr h1 h2
  have hf : s.outOfFormat true [b] = false := inFormat_of_singles hni fun _ w hw => List.mem_singleton.1 hw ▸ hs
  obtain ⟨t, ht, hpc, hfin, hval, hrr, hfprf⟩ := leaves_estimate fpSingle_is (operand_ieee hni true b ▸ hb) hm hrange hbits
    (leaves_fres (d := d) (rc := rc) hfp hf hx hfe)
  refine ⟨t, ht, hpc, hfin, singleRepresentable_of_multiple hfin ?_ hrr, ?_, hfprf⟩
  · rw [hval]
    unfold InRange at hrange ⊢
    rw [abs_withSign]
    exact hrange
  · rw [hval, hv, withSign_mul, Bool.xor_self]
    exact herr

/-- The range of finite doubles. -/
theorem valueOf_bounds {v : DWord} {n : ℕ} {g : ℤ} {z : Bool} (h : unpack v = .num z n g) (hn : n ≠ 0) :
    (2 : ℚ) ^ (-1074 : ℤ) ≤ n * 2 ^ g ∧ (n : ℚ) * 2 ^ g < 2 ^ (1024 : ℤ) := by
  have hlt := dExp_lt v
  have hg : -1074 ≤ g ∧ g ≤ 971 := by
    unfold unpack at h
    split at h
    · split at h <;> cases h
    · split at h
      · cases h
        omega
      · cases h
        omega
  have hn1 : (1 : ℚ) ≤ n := by exact_mod_cast Nat.pos_of_ne_zero hn
  have hn2 : (n : ℚ) < 2 ^ 53 := by exact_mod_cast unpack_lt h
  have hpos : (0 : ℚ) < 2 ^ g := zpow_pos two_pos g
  constructor
  · have h1 : (2 : ℚ) ^ (-1074 : ℤ) ≤ 2 ^ g := (zpow_le_zpow_iff_right₀ one_lt_two).2 hg.1
    exact h1.trans (le_mul_of_one_le_left hpos.le hn1)
  · calc (n : ℚ) * 2 ^ g < 2 ^ 53 * 2 ^ g := mul_lt_mul_of_pos_right hn2 hpos
      _ = 2 ^ (((53 : ℕ) : ℤ) + g) := by rw [zpow_add₀ (two_ne_zero' ℚ), zpow_natCast]
      _ ≤ 2 ^ (1024 : ℤ) := (zpow_le_zpow_iff_right₀ one_lt_two).2 (by push_cast; omega)

/-- A reciprocal square root of a double lies in the normal range. -/
theorem inRange_of_root {x y : ℚ} (hx : 0 ≤ x) (h1 : (31 / 32) ^ 2 ≤ x ^ 2 * y) (h2 : x ^ 2 * y ≤ (33 / 32) ^ 2)
    (h3 : (2 : ℚ) ^ (-1074 : ℤ) ≤ y) (h4 : y < 2 ^ (1024 : ℤ)) : InRange doubleFormat x := by
  have hy : 0 < y := lt_of_lt_of_le (zpow_pos two_pos _) h3
  unfold InRange
  rw [abs_of_nonneg hx]
  refine ⟨?_, ?_⟩
  · show (2 : ℚ) ^ (-1022 : ℤ) ≤ x
    by_contra hc
    have hxx : x ^ 2 ≤ (2 ^ (-1022 : ℤ)) ^ 2 := pow_le_pow_left₀ hx (not_le.1 hc).le 2
    have hle : x ^ 2 * y ≤ 2 ^ (-1020 : ℤ) := by
      calc x ^ 2 * y ≤ (2 ^ (-1022 : ℤ)) ^ 2 * 2 ^ (1024 : ℤ) := mul_le_mul hxx h4.le hy.le (by positivity)
        _ = 2 ^ (-1020 : ℤ) := by
          rw [← zpow_natCast, ← zpow_mul, ← zpow_add₀ (two_ne_zero' ℚ)]
          congr 1
    have hsmall : (2 : ℚ) ^ (-1020 : ℤ) ≤ 2 ^ (-1 : ℤ) := (zpow_le_zpow_iff_right₀ one_lt_two).2 (by omega)
    have : ((31 : ℚ) / 32) ^ 2 ≤ 2 ^ (-1 : ℤ) := h1.trans (hle.trans hsmall)
    norm_num at this
  · show x ≤ (2 - (2 : ℚ) ^ (1 - (53 : ℕ) : ℤ)) * (2 : ℚ) ^ (1023 : ℤ)
    have hc1 : (1 : ℚ) ≤ 2 - (2 : ℚ) ^ (1 - (53 : ℕ) : ℤ) := by norm_num
    refine le_trans ?_ (le_mul_of_one_le_left (zpow_pos two_pos _).le hc1)
    by_contra hc
    have hxx : ((2 : ℚ) ^ (1023 : ℤ)) ^ 2 ≤ x ^ 2 := pow_le_pow_left₀ (by positivity) (not_le.1 hc).le 2
    have hle : (2 : ℚ) ^ (972 : ℤ) ≤ x ^ 2 * y := by
      calc (2 : ℚ) ^ (972 : ℤ) = (2 ^ (1023 : ℤ)) ^ 2 * 2 ^ (-1074 : ℤ) := by
            rw [← zpow_natCast, ← zpow_mul, ← zpow_add₀ (two_ne_zero' ℚ)]
            congr 1
        _ ≤ x ^ 2 * y := mul_le_mul hxx h3 (by positivity) (by positivity)
    have hbig : (2 : ℚ) ^ (1 : ℤ) ≤ 2 ^ (972 : ℤ) := (zpow_le_zpow_iff_right₀ one_lt_two).2 (by omega)
    have : (2 : ℚ) ^ (1 : ℤ) ≤ (33 / 32) ^ 2 := hbig.trans (hle.trans h2)
    norm_num at this

theorem frsqrte_estimates (hfp : bit s.msr 50 = true) (hfe : FeOff s) (hni : bit s.fpscr 61 = false)
    (hb : isFinite (s.getFpr b)) (hpos : 0 < valueOf (s.getFpr b)) :
    ∃ t, exec (.frsqrte d b rc) s = .next t ∧ t.pc = s.pc + 4 ∧ isFinite (t.getFpr d) ∧ 0 < valueOf (t.getFpr d) ∧
      (31 / 32) ^ 2 ≤ valueOf (t.getFpr d) ^ 2 * valueOf (s.getFpr b) ∧
      valueOf (t.getFpr d) ^ 2 * valueOf (s.getFpr b) ≤ (33 / 32) ^ 2 ∧ t.fpscr.extractLsb' 12 5 = 0b00100 := by
  obtain ⟨n, g, hu, hv, hn⟩ := unpack_of_value hb hpos.ne'
  have hmsb : (s.getFpr b).msb = false := by
    rw [← Bool.not_eq_true, ← valueOf_neg_iff hpos.ne']
    exact not_lt.2 hpos.le
  rw [hmsb] at hu hv
  change _ = (n : ℚ) * 2 ^ g at hv
  obtain ⟨m, e, hest, hm, hbits, herr1, herr2⟩ := frsqrteEstimate_spec hu hn
  have hx : frsqrteExact (s.operand false b) = .finite false m e := by
    rw [operand_ieee hni]
    unfold frsqrteExact
    rw [hu]
    exact (if_neg hn).trans hest
  obtain ⟨hb1, hb2⟩ := valueOf_bounds hu hn
  have hrange := inRange_of_root (x := m * 2 ^ e) (by positivity) herr1 herr2 hb1 hb2
  obtain ⟨t, ht, hpc, hfin, hval, -, hfprf⟩ := leaves_estimate fpDouble_is (operand_ieee hni false b ▸ hb) hm hrange hbits
    (leaves_frsqrte (d := d) (rc := rc) hfp hx hfe)
  change _ = (m : ℚ) * 2 ^ e at hval
  refine ⟨t, ht, hpc, hfin, ?_, ?_, ?_, hfprf⟩
  · rw [hval]
    exact lt_of_le_of_ne (by positivity) fun hz => hm ((magnitude_eq_zero m e).1 hz.symm)
  · rw [hval, hv]
    exact herr1
  · rw [hval, hv]
    exact herr2

/-- Settles O29: rounding in whole numbers, then each operation by the number that its exact result stands for. -/
theorem roundingChoosesNeighbour : Obligations.RoundingChoosesNeighbour := by
  refine ⟨roundAt_neighbours, fun s d a b c rc hfp hfe hni => ?_⟩
  intro x y z down zero rounds binary product fused singles
  refine ⟨fun ha hb => ?_, fun ha hc => ?_, fun ha hb hc => ?_, fun hb => ?_⟩
  · exact ⟨⟨add_rounds (single := false) hfp hfe hni ha hb nofun rfl, sub_rounds (single := false) hfp hfe hni ha hb nofun rfl,
        fun h0 => div_rounds (single := false) hfp hfe hni ha hb nofun h0 rfl⟩,
      fun hs => ⟨add_rounds (single := true) hfp hfe hni ha hb (fun _ => hs) rfl,
        sub_rounds (single := true) hfp hfe hni ha hb (fun _ => hs) rfl,
        fun h0 => div_rounds (single := true) hfp hfe hni ha hb (fun _ => hs) h0 rfl⟩⟩
  · exact ⟨mul_rounds (single := false) hfp hfe hni ha hc nofun rfl,
      fun hs => mul_rounds (single := true) hfp hfe hni ha hc (fun _ => hs) rfl⟩
  · exact ⟨⟨fused_rounds (single := false) hfp hfe hni ha hb hc nofun rfl, fused_rounds (single := false) hfp hfe hni ha hb hc nofun rfl,
        fused_rounds (single := false) hfp hfe hni ha hb hc nofun rfl, fused_rounds (single := false) hfp hfe hni ha hb hc nofun rfl⟩,
      fun hs => ⟨fused_rounds (single := true) hfp hfe hni ha hb hc (fun _ => hs) rfl,
        fused_rounds (single := true) hfp hfe hni ha hb hc (fun _ => hs) rfl,
        fused_rounds (single := true) hfp hfe hni ha hb hc (fun _ => hs) rfl,
        fused_rounds (single := true) hfp hfe hni ha hb hc (fun _ => hs) rfl⟩⟩
  · obtain ⟨h1, h2⟩ := frsp_rounds (d := d) (rc := rc) hfp hfe hni hb
    exact ⟨h1, h2, fun hs => fres_estimates hfp hfe hni hb (hs _ (List.mem_singleton_self _)), frsqrte_estimates hfp hfe hni hb⟩

end Sys2Proof.Machine


/-! The conversions to a word (42 R930, R931). -/

namespace Sys2Proof.Machine

variable {s t : State} {d a b c : BitVec 5} {rc : Bool}

/-- What a conversion leaves, with VE 0. -/
structure LeavesWord (s : State) (frD : BitVec 5) (r : IntResult) (t : State) : Prop where
  pc  : t.pc = s.pc + 4
  res : (t.getFpr frD).setWidth 32 = r.res
  fr  : bit t.fpscr 45 = r.fr
  fi  : bit t.fpscr 46 = r.fi
  exc : t.fpscr &&& r.exc = r.exc

theorem leaves_fpConvert {i : Instr} {rn : BitVec 2} (hfp : bit s.msr 50 = true) (hfe : FeOff s) (hve : bit s.fpscr 56 = false)
    (hni : bit s.fpscr 61 = false) (hx : exec i s = s.fpConvert rn d b rc) :
    ∃ t, exec i s = .next t ∧ LeavesWord s d (toIntWord rn (s.getFpr b)) t := by
  have hr := toIntWord_exc rn (s.getFpr b)
  generalize hrr : toIntWord rn (s.getFpr b) = r at *
  have hw : FpRuns d rc s (s.drawWord.2.drawFprf.2.setFpr d (s.drawWord.1 ++ r.res)) :=
    (((FpRuns.refl s).draw _).draw _).setFpr _
  have hz := ((hw.withFprf s.drawWord.2.drawFprf.1).withFrFi r.fr r.fi).raise hr
  have hexec : exec i s = (State.setFpscr (fpRaise r.exc (withFrFi r.fr r.fi (withFprf s.drawWord.2.drawFprf.1 s.fpscr)))
      (s.drawWord.2.drawFprf.2.setFpr d (s.drawWord.1 ++ r.res))).finishFp rc := by
    refine hx.trans ((needFp_ok hfp _).trans ?_)
    rw [operand_ieee hni, hrr, if_neg (by rw [hve]; exact fun h => Bool.false_ne_true h.2)]
    rfl
  generalize hv : (s.drawWord.2.drawFprf.2.setFpr d (s.drawWord.1 ++ r.res)) = w at *
  set f := withFrFi r.fr r.fi (withFprf s.drawWord.2.drawFprf.1 s.fpscr) with hf
  have hfeo : FeOff (w.setFpscr (fpRaise r.exc f)) := by
    have := hw.keeps.msr rfl
    unfold FeOff
    show bit w.msr 52 = false ∧ bit w.msr 55 = false
    rwa [this]
  rw [finishFp_off hfeo] at hexec
  have hfp' : ((w.setFpscr (fpRaise r.exc f)).recordFp rc).fpscr = fpRaise r.exc f := recordFp_fpscr rc _
  refine ⟨_, hexec, congrArg (· + 4) ((recordFp_pc rc _).trans hw.pc), ?_, ?_, ?_, ?_⟩
  · have hg : ((w.setFpscr (fpRaise r.exc f)).recordFp rc).getFpr d = s.drawWord.1 ++ r.res := by
      have : ((w.setFpscr (fpRaise r.exc f)).recordFp rc).getFpr d = w.getFpr d := by
        unfold State.recordFp
        split <;> rfl
      rw [this, ← hv]
      exact (State.getFpr_setFpr ..).trans (if_pos rfl)
    exact (congrArg (BitVec.setWidth 32) hg).trans BitVec.setWidth_append_eq_right
  · refine (congrArg (BitVec.getLsbD · 18) hfp').trans ?_
    show (fpRaise r.exc f).getLsbD 18 = _
    rw [fpRaise_of_clear hr _ (by decide) rfl, hf, withFrFi_fr]
  · refine (congrArg (BitVec.getLsbD · 17) hfp').trans ?_
    show (fpRaise r.exc f).getLsbD 17 = _
    rw [fpRaise_of_clear hr _ (by decide) rfl, hf, withFrFi_fi]
  · exact (congrArg (· &&& r.exc) hfp').trans (fpRaise_and hr f)

/-! ### The word of a number -/

/-- The word that a rounded number gives. -/
theorem toIntWord_num {rn : BitVec 2} {v : DWord} {z : Bool} {m : ℕ} {e : ℤ} (hv : unpack v = .num z m e) {i : ℤ}
    (hi : (if z then -((roundAt rn z m e 0).q : ℤ) else (roundAt rn z m e 0).q) = i) :
    toIntWord rn v = if 2 ^ 31 - 1 < i then { exc := fpVXCVI, res := 0x7FFFFFFF, fr := false, fi := false }
      else if i < -2 ^ 31 then { exc := fpVXCVI, res := 0x80000000, fr := false, fi := false }
      else { exc := if (roundAt rn z m e 0).inexact then fpXX else 0, res := BitVec.ofInt 32 i,
             fr := (roundAt rn z m e 0).up, fi := (roundAt rn z m e 0).inexact } := by
  unfold toIntWord
  rw [hv]
  dsimp only
  rw [hi]

/-- Rounding to an integer has one result. -/
theorem RoundsTo.unique {rn : BitVec 2} {v : ℚ} {n k : ℤ} (hn : RoundsTo rn 1 v n) (hk : RoundsTo rn 1 v k) : n = k := by
  wlog hlt : n ≤ k generalizing n k
  · exact (this hk hn (by omega)).symm
  by_contra hne
  obtain ⟨n1, n2, n3, n4, n5⟩ := hn
  obtain ⟨k1, k2, k3, k4, k5⟩ := hk
  rw [mul_one] at *
  obtain ⟨a1, a2⟩ := abs_lt.1 n1
  obtain ⟨b1, b2⟩ := abs_lt.1 k1
  have hstep : k = n + 1 := by
    have : (k : ℚ) < n + 2 := by linarith
    have : k < n + 2 := by exact_mod_cast this
    omega
  have hkn : (k : ℚ) = n + 1 := by rw [hstep]; push_cast; ring
  have hlo : (n : ℚ) < v := by linarith
  have hhi : v < k := by linarith
  have hcases : ∀ rn : BitVec 2, rn = 0 ∨ rn = 1 ∨ rn = 2 ∨ rn = 3 := by decide
  rcases hcases rn with h | h | h | h
  · obtain ⟨p1, p2⟩ := n2 h
    obtain ⟨q1, q2⟩ := k2 h
    rw [abs_of_neg (by linarith)] at p1 p2
    rw [abs_of_pos (by linarith)] at q1 q2
    have h1 := p2 (by linarith)
    have h2 := q2 (by linarith)
    omega
  · have p := n3 h
    have q := k3 h
    rcases le_or_gt 0 n with hs | hs
    · have hs' : (0 : ℚ) ≤ n := by exact_mod_cast hs
      rw [abs_of_pos (by linarith), abs_of_pos (by linarith)] at q
      linarith
    · have hs' : (k : ℚ) ≤ 0 := by
        have : k ≤ 0 := by omega
        exact_mod_cast this
      rw [abs_of_neg (by linarith), abs_of_neg (by linarith)] at p
      linarith
  · exact absurd (n4 h) (not_le.2 hlo)
  · exact absurd (k5 h) (not_le.2 hhi)

theorem bit_cvi {f : Word} (h : f &&& fpVXCVI = fpVXCVI) : bit f 55 = true := bit_of_and h (by decide)

/-- Cutting off a fraction. -/
theorem roundAt_truncate (z : Bool) (m e : ℕ) :
    (roundAt 1 z m (-(e : ℤ)) 0).q = m / 2 ^ e ∧ (roundAt 1 z m (-(e : ℤ)) 0).inexact = decide (m % 2 ^ e ≠ 0) ∧
      (roundAt 1 z m (-(e : ℤ)) 0).up = false := by
  obtain ⟨-, hin, -, -, hlt, hup, -, hle, -, -⟩ := roundAt_neighbours 1 z m e (-(e : ℤ))
  rw [neg_add_cancel] at *
  have hle := hle rfl
  refine ⟨(Nat.div_eq_of_lt_le hle (by rw [Nat.succ_mul]; exact hlt)).symm, ?_, ?_⟩
  · rw [Bool.eq_iff_iff, hin, decide_eq_true_iff, Nat.dvd_iff_mod_eq_zero]
  · rw [← Bool.not_eq_true, hup]
    exact not_lt.2 hle

theorem roundAt_whole (rn : BitVec 2) (z : Bool) (m e : ℕ) :
    roundAt rn z m (e : ℤ) 0 = { q := m * 2 ^ e, t := 0, inexact := false, up := false } := by
  unfold roundAt
  rw [if_pos (by omega), Nat.shiftLeft_eq, sub_zero, Int.toNat_natCast]

/-- Rounding a finite double to an integer. -/
theorem roundAt_value {rn : BitVec 2} {v : DWord} {m : ℕ} {e : ℤ} (hv : valueOf v = withSign v.msb (m * 2 ^ e)) {n : ℤ}
    (hn : RoundsTo rn 1 (valueOf v) n) :
    (if v.msb then -((roundAt rn v.msb m e 0).q : ℤ) else (roundAt rn v.msb m e 0).q) = n ∧
      ((roundAt rn v.msb m e 0).inexact = true ↔ (n : ℚ) ≠ valueOf v) ∧
      ((roundAt rn v.msb m e 0).up = true ↔ |valueOf v| < |(n : ℚ)|) := by
  obtain ⟨-, hto, hin, hup⟩ := roundAt_rounds rn v.msb m e 0
  rw [zpow_zero, ← hv] at hto
  rw [zpow_zero, mul_one] at hin hup
  have hq := hto.unique hn
  refine ⟨hq, ?_, ?_⟩
  · rw [hin, ← hq, hv]
    unfold withSign
    cases v.msb
    · exact Iff.rfl
    · simp
  · rw [hup, ← hq, hv, abs_withSign, abs_of_nonneg (by positivity : (0 : ℚ) ≤ m * 2 ^ e)]
    cases v.msb
    · simp
    · simp

theorem unpack_of_exp {v : DWord} (h : v.extractLsb' 52 11 = 2047) :
    unpack v = if v.setWidth 52 = 0 then .inf v.msb else .nan := by
  have he : dExp v = 2047 := by
    unfold dExp
    rw [h]
    rfl
  unfold unpack
  rw [if_pos he]
  refine if_congr ?_ rfl rfl
  unfold dFrac
  rw [← BitVec.toNat_inj]
  rfl

/-- Settles O31: the result of the conversion, case by case. -/
theorem convertToWord : Obligations.ConvertToWord := by
  intro s frD frB rc hfp hfe hve hni low
  obtain ⟨t, ht, hl⟩ := leaves_fpConvert (i := .fctiwz frD frB rc) (rn := 1) hfp hfe hve hni rfl
  obtain ⟨u, hu, hm⟩ := leaves_fpConvert (i := .fctiw frD frB rc) (rn := s.rn) hfp hfe hve hni rfl
  have hlow : ∀ {e w fi inv}, toIntWord 1 (s.getFpr frB) = { exc := e, res := w, fr := false, fi := fi } →
      (inv = true → e &&& fpVXCVI = fpVXCVI) → low w fi inv := fun {e w fi inv} hr hc => by
    rw [hr] at hl
    refine ⟨t, ht, hl.pc, hl.res, hl.fr, hl.fi, fun hi => ?_⟩
    have hb : bit e 55 = true := bit_of_and (hc hi) (by decide)
    exact bit_of_and hl.exc hb
  have big : ∀ {z m e} {v : ℤ}, unpack (s.getFpr frB) = .num z m e →
      (if z then -((roundAt 1 z m e 0).q : ℤ) else (roundAt 1 z m e 0).q) = v →
      (2 ^ 31 ≤ v → low 0x7FFFFFFF false true) ∧ (v < -2 ^ 31 → low 0x80000000 false true) := fun hb hi => by
    refine ⟨fun h => hlow ((toIntWord_num hb hi).trans (if_pos (by omega))) fun _ => rfl, fun h => hlow
      (((toIntWord_num hb hi).trans (if_neg (by omega))).trans (if_pos h)) fun _ => rfl⟩
  refine ⟨?_, ?_, fun hb => ?_, fun z hb => ?_, ?_⟩
  · intro z m e hb v
    obtain ⟨hq, hin, hup⟩ := roundAt_truncate z m e
    have hi : (if z then -((roundAt 1 z m (-(e : ℤ)) 0).q : ℤ) else (roundAt 1 z m (-(e : ℤ)) 0).q) = v := by rw [hq]
    refine ⟨fun h => ?_, big hb hi⟩
    unfold notInt32 at h
    have hr := toIntWord_num hb hi
    rw [if_neg (by omega), if_neg (by omega), hin, hup] at hr
    exact hlow hr nofun
  · intro z m e hb hm0 v
    exact big hb (by rw [roundAt_whole])
  · refine hlow (e := fpVXCVI ||| maskIf (isSnan (s.getFpr frB)) fpVXSNAN) ?_ fun _ => ?_
    · unfold toIntWord
      rw [hb]
    · cases isSnan (s.getFpr frB) <;> rfl
  · refine hlow (e := fpVXCVI) ?_ fun _ => rfl
    unfold toIntWord
    rw [hb]
  · intro y word
    have hword : ∀ {e w}, toIntWord s.rn (s.getFpr frB) = { exc := e, res := w, fr := false, fi := false } →
        e &&& fpVXCVI = fpVXCVI → word w False False true := fun {e w} hr hc => by
      rw [hr] at hm
      refine ⟨u, hu, hm.pc, hm.res, ?_, ?_, nofun, fun _ => bit_of_and hm.exc (bit_cvi hc)⟩
      · rw [hm.fr]
        exact ⟨Bool.false_ne_true, False.elim⟩
      · rw [hm.fi]
        exact ⟨Bool.false_ne_true, False.elim⟩
    refine ⟨fun hfin n hn => ?_, fun he => ?_⟩
    · obtain ⟨m, e, hun, hv⟩ := valueOf_unpack hfin
      obtain ⟨hi, hin, hup⟩ := roundAt_value hv hn
      have hr := toIntWord_num hun hi
      refine ⟨fun h => ?_, fun h => hword (hr.trans (if_pos (by omega))) rfl, fun h => hword
        ((hr.trans (if_neg (by omega))).trans (if_pos h)) rfl⟩
      unfold notInt32 at h
      rw [if_neg (by omega), if_neg (by omega)] at hr
      rw [show s.rn = s.fpscr.setWidth 2 from rfl] at hm
      rw [hr] at hm
      refine ⟨u, hu, hm.pc, hm.res, ?_, ?_, fun hne => ?_, nofun⟩
      · rw [hm.fr]
        exact hup
      · rw [hm.fi]
        exact hin
      · have hexc := hm.exc
        simp only [hin.2 hne, if_true] at hexc
        exact bit_of_and hexc (by decide)
    · have hun := unpack_of_exp he
      by_cases hf : y.setWidth 52 = 0
      · rw [if_pos hf] at hun
        have hr : toIntWord s.rn y = { exc := fpVXCVI, res := if y.msb then 0x80000000 else 0x7FFFFFFF, fr := false, fi := false } := by
          unfold toIntWord
          rw [hun]
        have hres := hword hr rfl
        cases hy : y.msb
        · rw [hy] at hres
          rw [if_pos ⟨hf, rfl⟩]
          exact hres
        · rw [hy] at hres
          rw [if_neg (by simp)]
          exact hres
      · rw [if_neg hf] at hun
        rw [if_neg fun h => hf h.1]
        refine hword (e := fpVXCVI ||| maskIf (isSnan y) fpVXSNAN) ?_ ?_
        · unfold toIntWord
          rw [hun]
        · cases isSnan y <;> rfl

end Sys2Proof.Machine


/-! The comparisons (42 R932, R933). -/

namespace Sys2Proof.Machine

variable {s t : State} {a b : BitVec 5} {x y : DWord}

/-! ### The order of doubles -/

/-- The magnitudes that order values grow with the exponent and fraction. -/
theorem keyMagnitude_lt (hx : isNan x = false) (hy : isNan y = false) (h : (x.setWidth 63).toNat < (y.setWidth 63).toNat) :
    keyMagnitude x < keyMagnitude y := by
  have hnx : ¬(dExp x = 2047 ∧ dFrac x ≠ 0) := by rw [← isNan_iff_fields, hx]; exact Bool.false_ne_true
  have hny : ¬(dExp y = 2047 ∧ dFrac y ≠ 0) := by rw [← isNan_iff_fields, hy]; exact Bool.false_ne_true
  rw [low63_toNat, low63_toNat] at h
  have hex := dExp_lt x
  have hey := dExp_lt y
  have hfx := dFrac_lt x
  have hfy := dFrac_lt y
  unfold keyMagnitude
  generalize dExp x = ex at *
  generalize dExp y = ey at *
  generalize dFrac x = fx at *
  generalize dFrac y = fy at *
  have hx0 : ex ≠ 2047 := by omega
  rw [if_neg hx0]
  by_cases hy1 : ey = 2047
  · rw [if_pos hy1]
    have hsmall : (if ex = 0 then fx else (2 ^ 52 + fx) * 2 ^ (ex - 1)) < 2 ^ (53 + ex) := by
      rw [pow_add]
      split
      · calc fx < 2 ^ 53 * 1 := by omega
          _ ≤ 2 ^ 53 * 2 ^ ex := Nat.mul_le_mul_left _ Nat.one_le_two_pow
      · calc (2 ^ 52 + fx) * 2 ^ (ex - 1) < 2 ^ 53 * 2 ^ (ex - 1) := Nat.mul_lt_mul_of_pos_right (by omega) (by positivity)
          _ ≤ 2 ^ 53 * 2 ^ ex := Nat.mul_le_mul_left _ (Nat.pow_le_pow_right (by omega) (by omega))
    exact hsmall.trans_le (Nat.pow_le_pow_right (by omega) (by omega))
  · rw [if_neg hy1]
    by_cases hx1 : ex = 0
    · rw [if_pos hx1]
      split
      · omega
      · calc fx < 2 ^ 52 + fy := by omega
          _ ≤ (2 ^ 52 + fy) * 2 ^ (ey - 1) := Nat.le_mul_of_pos_right _ (by positivity)
    · rw [if_neg hx1, if_neg (by omega)]
      rcases Nat.lt_or_ge ex ey with he | he
      · calc (2 ^ 52 + fx) * 2 ^ (ex - 1) < 2 ^ 53 * 2 ^ (ex - 1) := Nat.mul_lt_mul_of_pos_right (by omega) (by positivity)
          _ = 2 ^ 52 * 2 ^ ex := by
            rw [← pow_add, ← pow_add]
            congr 1
            omega
          _ ≤ 2 ^ 52 * 2 ^ (ey - 1) := Nat.mul_le_mul_left _ (Nat.pow_le_pow_right (by omega) (by omega))
          _ ≤ (2 ^ 52 + fy) * 2 ^ (ey - 1) := Nat.mul_le_mul_right _ (by omega)
      · have : ex = ey := by omega
        subst this
        exact Nat.mul_lt_mul_of_pos_right (by omega) (by positivity)

theorem keyMagnitude_eq (h : (x.setWidth 63).toNat = (y.setWidth 63).toNat) : keyMagnitude x = keyMagnitude y := by
  rw [low63_toNat, low63_toNat] at h
  have hfx := dFrac_lt x
  have hfy := dFrac_lt y
  unfold keyMagnitude
  rw [show dExp x = dExp y by omega, show dFrac x = dFrac y by omega]

/-- Values are ordered as their sign and magnitude. -/
theorem key_lt_iff (hx : isNan x = false) (hy : isNan y = false) : (unpack x).key < (unpack y).key ↔ numericOrder x < numericOrder y := by
  have h1 := keyMagnitude_lt hx hy
  have h2 := keyMagnitude_lt hy hx
  have h3 : _ → keyMagnitude x = keyMagnitude y := keyMagnitude_eq
  have zero : ∀ d : DWord, keyMagnitude d = 0 ↔ (d.setWidth 63).toNat = 0 := fun d => by
    rw [keyMagnitude_eq_zero, ← BitVec.toNat_inj]
    rfl
  have h4 := zero x
  have h5 := zero y
  rw [key_eq hx, key_eq hy]
  unfold numericOrder
  generalize keyMagnitude x = kx at *
  generalize keyMagnitude y = ky at *
  generalize (x.setWidth 63).toNat = lx at *
  generalize (y.setWidth 63).toNat = ly at *
  cases x.msb <;> cases y.msb <;> simp only [Bool.false_eq_true, if_false, if_true] <;> omega

/-- The relation that a comparison finds. -/
theorem fpCompare_bits (x y : DWord) :
    let unordered := isNan x = true ∨ isNan y = true
    ((fpCompare x y).getLsbD 3 = true ↔ ¬unordered ∧ numericOrder x < numericOrder y) ∧
    ((fpCompare x y).getLsbD 2 = true ↔ ¬unordered ∧ numericOrder y < numericOrder x) ∧
    ((fpCompare x y).getLsbD 1 = true ↔ ¬unordered ∧ numericOrder x = numericOrder y) ∧
    ((fpCompare x y).getLsbD 0 = true ↔ unordered) := by
  intro unordered
  unfold fpCompare
  by_cases hu : unordered
  · rw [if_pos (by rw [Bool.or_eq_true]; exact hu)]
    simp [hu]
  · rw [if_neg (by rw [Bool.or_eq_true]; exact hu)]
    have hx : isNan x = false := Bool.eq_false_iff.2 fun h => hu (.inl h)
    have hy : isNan y = false := Bool.eq_false_iff.2 fun h => hu (.inr h)
    simp only [key_lt_iff hx hy, key_lt_iff hy hx]
    rcases lt_trichotomy (numericOrder x) (numericOrder y) with h | h | h
    · rw [if_pos h]
      simp [hu, h, h.not_gt, h.ne]
    · rw [if_neg h.not_lt, if_neg h.not_gt]
      simp [hu, h]
    · rw [if_neg h.not_gt, if_pos h]
      simp [hu, h, h.not_gt, h.ne']

/-! ### What a comparison leaves -/

theorem fpcc_bit (f : Word) (c : BitVec 4) {j : Nat} (hj : j < 4) :
    (mix f (c.setWidth 32 <<< 12) 0x0000F000).getLsbD (12 + j) = c.getLsbD j := by
  rw [mix_getLsbD _ _ _ (by omega), show (0x0000F000 : Word).getLsbD (12 + j) = true by interval_cases j <;> rfl, if_pos rfl,
    BitVec.getLsbD_shiftLeft, BitVec.getLsbD_setWidth]
  simp [show 12 + j < 32 by omega, show j < 32 by omega]

theorem fpcc_other (f v : Word) {i : Nat} (hi : i < 32) (h : (0x0000F000 : Word).getLsbD i = false) :
    (mix f v 0x0000F000).getLsbD i = f.getLsbD i := by
  rw [mix_getLsbD _ _ _ hi, h]
  rfl

/-- The bits that a comparison leaves are no summaries, exceptions of a comparison or FPCC. -/
theorem compare_frame : ∀ i : Fin 32, (0xFFF8F700 : Word).getLsbD i = false → (i : Nat) ≠ 29 ∧ (i : Nat) ≠ 30 ∧ (i : Nat) ≠ 31 ∧
    (0x01080000 : Word).getLsbD i = false ∧ (0x0000F000 : Word).getLsbD i = false := by decide +kernel

theorem compare_exceptions : ∀ i : Fin 32, (0x01080000 : Word).getLsbD i = true →
    (i : Nat) < 29 ∧ (0x0000F000 : Word).getLsbD i = false := by decide +kernel

/-- A comparison: the CR field, FPCC and its exceptions. -/
theorem compares_of {i : Instr} {crfD : BitVec 3} {exc : Word} (hfp : bit s.msr 50 = true) (hfe : FeOff s)
    (hexc : exc &&& ~~~0x01080000 = 0) (hx : exec i s = s.fpCompareInto crfD x y exc) :
    let unordered := isNan x = true ∨ isNan y = true
    let lt := ¬unordered ∧ numericOrder x < numericOrder y
    let gt := ¬unordered ∧ numericOrder y < numericOrder x
    let eq := ¬unordered ∧ numericOrder x = numericOrder y
    Does i s { cr := crFieldMask crfD, fpscr := 0xFFF8F700 } [] fun t =>
      CrFieldIs crfD lt gt eq unordered t ∧
      ((bit t.fpscr 48 = true ↔ lt) ∧ (bit t.fpscr 49 = true ↔ gt) ∧ (bit t.fpscr 50 = true ↔ eq) ∧
        (bit t.fpscr 51 = true ↔ unordered)) ∧
      t.fpscr &&& 0x01080000 = s.fpscr &&& 0x01080000 ||| exc := by
  intro unordered lt gt eq
  obtain ⟨c3, c2, c1, c0⟩ := fpCompare_bits x y
  set c := fpCompare x y with hc
  set f := mix s.fpscr (c.setWidth 32 <<< 12) 0x0000F000 with hf
  have hclear : ∀ i, (0x01080000 : Word).getLsbD i = false → exc.getLsbD i = false := fun i hi => by
    by_cases h32 : i < 32
    · have hb : (exc &&& ~~~0x01080000).getLsbD i = false := by rw [hexc]; exact BitVec.getLsbD_zero
      rwa [BitVec.getLsbD_and, BitVec.getLsbD_not, hi, decide_eq_true h32, Bool.not_false, Bool.and_true, Bool.and_true] at hb
    · exact BitVec.getLsbD_of_ge _ _ (by omega)
  have hraise : ∀ i, i < 29 → (fpRaise exc f).getLsbD i = (f.getLsbD i || exc.getLsbD i) := fun i hi =>
    fpRaise_getLsbD _ _ (by omega) (by omega) (by omega)
  have hcc : ∀ j, j < 4 → (fpRaise exc f).getLsbD (12 + j) = c.getLsbD j := fun j hj => by
    rw [hraise _ (by omega), hclear _ (by interval_cases j <;> rfl), Bool.or_false, hf, fpcc_bit _ _ hj]
  have hcr : ∀ k, k < 4 → bit (withCrField crfD c s.cr) (32 + 4 * crfD.toNat + k) = c.getLsbD (3 - k) := fun k hk =>
    withCrField_bit crfD c s.cr hk
  refine does_finish (hx.trans ((needFp_ok hfp _).trans
    (finishFp_off (rc := false) (t := (s.setCrField crfD c).setFpscr (fpRaise exc f)) hfe))) rfl
    ((keeps_setCr s (agreeBut_withCrField crfD c s.cr)).trans (keeps_setFpscr _ (agreeBut_of_bits fun i hi => ?_)))
    (storageKept_of_mem _ rfl) ⟨⟨?_, ?_, ?_, ?_⟩, ⟨?_, ?_, ?_, ?_⟩, ?_⟩
  · by_cases h32 : i < 32
    · have hm : i ≠ 29 ∧ i ≠ 30 ∧ i ≠ 31 ∧ (0x01080000 : Word).getLsbD i = false ∧ (0x0000F000 : Word).getLsbD i = false := by
        exact compare_frame ⟨i, h32⟩ hi
      obtain ⟨h29, h30, h31, he, hv⟩ := hm
      rw [fpRaise_getLsbD _ _ h29 h30 h31, hclear i he, Bool.or_false, hf, fpcc_other _ _ h32 hv]
      rfl
    · rw [BitVec.getLsbD_of_ge _ _ (by omega), BitVec.getLsbD_of_ge _ _ (by omega)]
  · exact (iff_of_eq (congrArg (· = true) (hcr 0 (by decide)))).trans c3
  · refine (iff_of_eq (congrArg (· = true) ?_)).trans c2
    rw [← hcr 1 (by decide), Nat.add_right_comm]
    rfl
  · refine (iff_of_eq (congrArg (· = true) ?_)).trans c1
    rw [← hcr 2 (by decide), Nat.add_right_comm]
    rfl
  · refine (iff_of_eq (congrArg (· = true) ?_)).trans c0
    rw [← hcr 3 (by decide), Nat.add_right_comm]
    rfl
  · exact (iff_of_eq (congrArg (· = true) (hcc 3 (by decide)))).trans c3
  · exact (iff_of_eq (congrArg (· = true) (hcc 2 (by decide)))).trans c2
  · exact (iff_of_eq (congrArg (· = true) (hcc 1 (by decide)))).trans c1
  · exact (iff_of_eq (congrArg (· = true) (hcc 0 (by decide)))).trans c0
  · show fpRaise exc f &&& 0x01080000 = _
    refine BitVec.eq_of_getLsbD_eq fun i hi => ?_
    rw [BitVec.getLsbD_and, BitVec.getLsbD_or, BitVec.getLsbD_and]
    cases hb : (0x01080000 : Word).getLsbD i
    · rw [hclear i hb, Bool.and_false, Bool.and_false, Bool.or_false]
    · have hi' : i < 29 ∧ (0x0000F000 : Word).getLsbD i = false := by
        exact compare_exceptions ⟨i, hi⟩ hb
      rw [hraise i hi'.1, hf, fpcc_other _ _ hi hi'.2, Bool.and_true, Bool.and_true]

/-- Settles O30: both comparisons, by the exceptions that each raises. -/
theorem floatCompares : Obligations.FloatCompares := by
  intro s crfD a b hfp hfe hni x y unordered lt gt eq compares snan
  have hx : s.operand false a = x := operand_ieee hni false a
  have hy : s.operand false b = y := operand_ieee hni false b
  refine ⟨compares_of hfp hfe ?_ ?_, compares_of hfp hfe ?_ ?_⟩
  · cases snan <;> decide
  · show s.fpCompareInto crfD (s.operand false a) (s.operand false b) _ = _
    rw [hx, hy]
    rfl
  · cases snan <;> cases bit s.fpscr 56 <;> cases isNan x || isNan y <;> decide
  · show s.fpCompareInto crfD (s.operand false a) (s.operand false b) _ = _
    rw [hx, hy]
    congr 1
    show (if snan = true then fpVXSNAN ||| maskIf (!bit s.fpscr 56) fpVXVC else maskIf (isNan x || isNan y) fpVXVC) = _
    cases snan <;> cases bit s.fpscr 56 <;> cases isNan x || isNan y <;> rfl

end Sys2Proof.Machine


/-! Single-precision loads and stores, field by field (42 R906, R907). -/

namespace Sys2Proof.Machine

/-! ### Fields as numbers -/

theorem bool_of_toNat {p q : Bool} (h : p.toNat = q.toNat) : p = q := by
  cases p <;> cases q <;> first | rfl | cases h

theorem double_toNat (d : DWord) : d.toNat = d.msb.toNat * 2 ^ 63 + dExp d * 2 ^ 52 + dFrac d := by
  have h := low63_toNat d
  rw [BitVec.toNat_setWidth] at h
  have hlt := d.isLt
  have hm : d.msb.toNat = d.toNat / 2 ^ 63 := by
    rw [BitVec.msb_eq_decide]
    by_cases hc : 2 ^ 63 ≤ d.toNat
    · rw [decide_eq_true hc, Bool.toNat_true]
      omega
    · rw [decide_eq_false hc, Bool.toNat_false]
      omega
  omega

/-- The exponent and fraction fields of a single. -/
def wExp (w : Word) : Nat := (w.extractLsb' 23 8).toNat
def wFrac (w : Word) : Nat := (w.setWidth 23).toNat

theorem wExp_lt (w : Word) : wExp w < 256 := (w.extractLsb' 23 8).isLt
theorem wFrac_lt (w : Word) : wFrac w < 2 ^ 23 := (w.setWidth 23).isLt

theorem single_toNat (w : Word) : w.toNat = w.msb.toNat * 2 ^ 31 + wExp w * 2 ^ 23 + wFrac w := by
  have hlt := w.isLt
  have he : wExp w = w.toNat / 2 ^ 23 % 2 ^ 8 := by
    unfold wExp
    rw [BitVec.extractLsb'_toNat, Nat.shiftRight_eq_div_pow]
  have hf : wFrac w = w.toNat % 2 ^ 23 := BitVec.toNat_setWidth ..
  have hm : w.msb.toNat = w.toNat / 2 ^ 31 := by
    rw [BitVec.msb_eq_decide]
    by_cases hc : 2 ^ 31 ≤ w.toNat
    · rw [decide_eq_true hc, Bool.toNat_true]
      omega
    · rw [decide_eq_false hc, Bool.toNat_false]
      omega
  omega

theorem bit30_toNat (w : Word) : (w.getLsbD 30).toNat = wExp w / 128 := by
  have hw := single_toNat w
  have h1 := w.msb.toNat_lt
  have h2 := wExp_lt w
  have h3 := wFrac_lt w
  unfold BitVec.getLsbD
  rw [Nat.toNat_testBit]
  omega

/-- A double with given fields. -/
def HasFields (d : DWord) (s : Bool) (e f : Nat) : Prop := d.msb = s ∧ dExp d = e ∧ dFrac d = f

/-- The fields of a double, from its number. -/
theorem hasFields_of_toNat {d : DWord} {s : Bool} {e f : Nat} (he : e < 2048) (hf : f < 2 ^ 52)
    (h : d.toNat = s.toNat * 2 ^ 63 + e * 2 ^ 52 + f) : HasFields d s e f := by
  have hd := double_toNat d
  have h1 := dExp_lt d
  have h2 := dFrac_lt d
  have h3 := d.msb.toNat_lt
  have h4 := s.toNat_lt
  exact ⟨bool_of_toNat (by omega), by omega, by omega⟩

/-! ### Loads -/

/-- A denormal single is normalised. -/
theorem doubleOf_denormal {w : Word} (he : wExp w = 0) {k : Nat} (h1 : 2 ^ k ≤ wFrac w) (h2 : wFrac w < 2 ^ (k + 1)) :
    HasFields (doubleOf w) w.msb (k + 874) ((wFrac w - 2 ^ k) * 2 ^ (52 - k)) := by
  have hpos : 0 < 2 ^ k := by positivity
  have hk : k < 23 := by
    by_contra hc
    have : 2 ^ 23 ≤ 2 ^ k := Nat.pow_le_pow_right (by omega) (by omega)
    have := wFrac_lt w
    omega
  have hl : Nat.log2 (wFrac w) = k := (Nat.log2_eq_iff (by omega)).2 ⟨h1, h2⟩
  have hd : doubleOf w = dOf w.msb (k + 874) (wFrac w <<< (52 - k)) := by
    rw [← hl]
    exact if_pos ⟨he, by show wFrac w ≠ 0; omega⟩
  have hpow : 2 ^ k * 2 ^ (52 - k) = 2 ^ 52 := by
    rw [← pow_add]
    congr 1
    omega
  rw [pow_succ] at h2
  have hfrac : wFrac w <<< (52 - k) = 2 ^ 52 + (wFrac w - 2 ^ k) * 2 ^ (52 - k) := by
    rw [Nat.shiftLeft_eq, ← hpow, ← Nat.add_mul]
    congr 1
    omega
  have hlt : (wFrac w - 2 ^ k) * 2 ^ (52 - k) < 2 ^ 52 := by
    rw [← hpow]
    exact Nat.mul_lt_mul_of_pos_right (by omega) (by positivity)
  refine hd ▸ ⟨dOf_msb _ _ _, dOf_exp _ _ _ (by omega), (dOf_frac _ _ _).trans ?_⟩
  rw [hfrac]
  omega

/-- Any other single keeps its sign and fraction and its exponent's two ends. -/
theorem doubleOf_toNat {w : Word} (h : ¬(wExp w = 0 ∧ wFrac w ≠ 0)) :
    (doubleOf w).toNat = w.msb.toNat * 2 ^ 63 + (wExp w / 128 * 1024 +
      (if wExp w = 0 ∨ wExp w = 255 then w.getLsbD 30 else !w.getLsbD 30).toNat * 896 + wExp w % 128) * 2 ^ 52 + wFrac w * 2 ^ 29 := by
  have hw := single_toNat w
  have h1 := wExp_lt w
  have h2 := wFrac_lt w
  have h3 := w.msb.toNat_lt
  generalize hb : (if wExp w = 0 ∨ wExp w = 255 then w.getLsbD 30 else !w.getLsbD 30) = b
  have hdef : doubleOf w = w.extractLsb' 30 2 ++ BitVec.ofBool b ++ BitVec.ofBool b ++ BitVec.ofBool b ++ w.setWidth 30 ++ (0 : BitVec 29) := by
    rw [← hb]
    exact if_neg h
  rw [hdef, append_toNat, append_toNat, append_toNat, append_toNat, append_toNat, BitVec.toNat_ofBool, BitVec.extractLsb'_toNat,
    Nat.shiftRight_eq_div_pow, BitVec.toNat_setWidth, show (0 : BitVec 29).toNat = 0 from rfl]
  have h4 := b.toNat_lt
  omega

theorem doubleOf_normal {w : Word} (h0 : 0 < wExp w) (h1 : wExp w < 255) :
    HasFields (doubleOf w) w.msb (wExp w + 896) (wFrac w * 2 ^ 29) := by
  have h2 := wFrac_lt w
  have hb := bit30_toNat w
  refine hasFields_of_toNat (by omega) (by omega) ((doubleOf_toNat (by omega)).trans ?_)
  rw [if_neg (by omega)]
  cases hc : w.getLsbD 30
  · rw [hc, Bool.toNat_false] at hb
    rw [Bool.not_false, Bool.toNat_true]
    omega
  · rw [hc, Bool.toNat_true] at hb
    rw [Bool.not_true, Bool.toNat_false]
    omega

theorem doubleOf_zero {w : Word} (h0 : wExp w = 0) (h1 : wFrac w = 0) : HasFields (doubleOf w) w.msb 0 0 := by
  have hb := bit30_toNat w
  refine hasFields_of_toNat (by omega) (by omega) ((doubleOf_toNat (by omega)).trans ?_)
  rw [if_pos (.inl h0), hb]
  omega

theorem doubleOf_special {w : Word} (h0 : wExp w = 255) : HasFields (doubleOf w) w.msb 2047 (wFrac w * 2 ^ 29) := by
  have h2 := wFrac_lt w
  have hb := bit30_toNat w
  refine hasFields_of_toNat (by omega) (by omega) ((doubleOf_toNat (by omega)).trans ?_)
  rw [if_pos (.inr h0), hb]
  omega

/-! ### Stores -/

theorem singleOf_kept {d : DWord} (h : 896 < dExp d ∨ d.setWidth 63 = 0) :
    singleOf d = d.extractLsb' 62 2 ++ d.extractLsb' 29 30 := if_pos h

theorem singleOf_shifted {d : DWord} (h : 874 ≤ dExp d) (h2 : dExp d ≤ 896) : singleOf d =
    BitVec.ofBool d.msb ++ (0 : BitVec 8) ++ BitVec.ofNat 23 (((2 ^ 52 + dFrac d) >>> (897 - dExp d)) >>> 29) := by
  refine if_neg ?_
  rw [low63_eq_zero]
  omega

theorem singleOf_kept_toNat {d : DWord} (h : 896 < dExp d ∨ d.setWidth 63 = 0) :
    (singleOf d).toNat = d.toNat / 2 ^ 62 % 4 * 2 ^ 30 + d.toNat / 2 ^ 29 % 2 ^ 30 := by
  rw [singleOf_kept h, append_toNat, BitVec.extractLsb'_toNat, BitVec.extractLsb'_toNat, Nat.shiftRight_eq_div_pow,
    Nat.shiftRight_eq_div_pow]

/-- The fraction of a shifted number. -/
theorem shifted_lt {d : DWord} (h : 874 ≤ dExp d) (h2 : dExp d ≤ 896) :
    ((2 ^ 52 + dFrac d) >>> (897 - dExp d)) >>> 29 = (2 ^ 52 + dFrac d) / 2 ^ (897 - dExp d) / 2 ^ 29 ∧
      (2 ^ 52 + dFrac d) / 2 ^ (897 - dExp d) / 2 ^ 29 < 2 ^ 23 := by
  refine ⟨by rw [Nat.shiftRight_eq_div_pow, Nat.shiftRight_eq_div_pow], ?_⟩
  have hf := dFrac_lt d
  have h1 : 2 ^ 1 ≤ 2 ^ (897 - dExp d) := Nat.pow_le_pow_right (by omega) (by omega)
  have h3 : (2 ^ 52 + dFrac d) / 2 ^ (897 - dExp d) ≤ (2 ^ 52 + dFrac d) / 2 ^ 1 := Nat.div_le_div_left h1 (by omega)
  omega

theorem singleOf_shifted_toNat {d : DWord} (h : 874 ≤ dExp d) (h2 : dExp d ≤ 896) :
    (singleOf d).toNat = d.msb.toNat * 2 ^ 31 + (2 ^ 52 + dFrac d) / 2 ^ (897 - dExp d) / 2 ^ 29 := by
  obtain ⟨hs, hlt⟩ := shifted_lt h h2
  rw [singleOf_shifted h h2, hs, append_toNat, append_toNat, BitVec.toNat_ofBool, BitVec.toNat_ofNat, Nat.mod_eq_of_lt hlt,
    show (0 : BitVec 8).toNat = 0 from rfl]
  ring

/-! ### Back and forth -/

/-- The forms of singles. -/
theorem single_cases (w : Word) : (∃ k, wExp w = 0 ∧ 2 ^ k ≤ wFrac w ∧ wFrac w < 2 ^ (k + 1)) ∨ (wExp w = 0 ∧ wFrac w = 0) ∨
    wExp w = 255 ∨ (0 < wExp w ∧ wExp w < 255) := by
  have h := wExp_lt w
  by_cases he : wExp w = 0
  · by_cases hf : wFrac w = 0
    · exact .inr (.inl ⟨he, hf⟩)
    · exact .inl ⟨Nat.log2 (wFrac w), he, Nat.log2_self_le hf, Nat.lt_log2_self⟩
  · omega

theorem wFrac_bound {w : Word} {k : Nat} (h : 2 ^ k ≤ wFrac w) : k < 23 := by
  by_contra hc
  have : 2 ^ 23 ≤ 2 ^ k := Nat.pow_le_pow_right (by omega) (by omega)
  have := wFrac_lt w
  omega

/-- A store after a load gives the word back, and the number loaded is one that single format holds. -/
theorem singleOf_doubleOf (w : Word) : singleDefined (doubleOf w) = true ∧ singleOf (doubleOf w) = w ∧
    singleRepresentable (doubleOf w) = true := by
  have hw := single_toNat w
  have hf := wFrac_lt w
  have hd := double_toNat (doubleOf w)
  have h4 := w.msb.toNat_lt
  have hdef : 874 ≤ dExp (doubleOf w) ∨ (doubleOf w).setWidth 63 = 0 → singleDefined (doubleOf w) = true := fun h => by
    unfold singleDefined
    rw [Bool.or_eq_true, decide_eq_true_iff, beq_iff_eq]
    exact h
  have hlow : (doubleOf w).setWidth 29 = 0 ↔ dFrac (doubleOf w) % 2 ^ 29 = 0 := by
    rw [← BitVec.toNat_inj, BitVec.toNat_setWidth, dFrac_eq]
    show _ = 0 ↔ _
    omega
  rcases single_cases w with ⟨k, he, h1, h2⟩ | ⟨he, hz⟩ | he | ⟨h0, h1⟩
  · have hk := wFrac_bound h1
    obtain ⟨hs, hx, hfr⟩ := doubleOf_denormal he h1 h2
    have hsig : 2 ^ 52 + dFrac (doubleOf w) = wFrac w * 2 ^ (52 - k) := by
      rw [hfr, show 2 ^ 52 = 2 ^ k * 2 ^ (52 - k) by rw [← pow_add]; congr 1; omega, ← Nat.add_mul]
      congr 1
      omega
    have hpow : 2 ^ (52 - k) = 2 ^ 29 * 2 ^ (23 - k) := by
      rw [← pow_add]
      congr 1
      omega
    refine ⟨hdef (.inl (by omega)), BitVec.eq_of_toNat_eq ?_, ?_⟩
    · rw [singleOf_shifted_toNat (by omega) (by omega), hsig, hx, hs, show 897 - (k + 874) = 23 - k by omega, hpow, ← Nat.mul_assoc,
        Nat.mul_div_cancel _ (by positivity), Nat.mul_div_cancel _ (by positivity), hw, he]
      omega
    · have hmod : dFrac (doubleOf w) % 2 ^ (29 + (897 - dExp (doubleOf w))) = 0 := by
        rw [hx, hfr, show 29 + (897 - (k + 874)) = 52 - k by omega]
        exact Nat.mul_mod_left _ _
      unfold singleRepresentable unpack
      rw [if_neg (by omega), if_neg (by omega)]
      simp only [Bool.or_eq_true, Bool.and_eq_true, decide_eq_true_iff]
      exact .inr ⟨⟨by omega, by omega⟩, hmod⟩
  · obtain ⟨hs, hx, hfr⟩ := doubleOf_zero he hz
    have hlz : (doubleOf w).setWidth 63 = 0 := (low63_eq_zero _).2 ⟨hx, hfr⟩
    refine ⟨hdef (.inr hlz), BitVec.eq_of_toNat_eq ?_, ?_⟩
    · rw [singleOf_kept_toNat (.inr hlz), hd, hs, hx, hfr, hw, he, hz]
      omega
    · unfold singleRepresentable
      rw [unpack_of_zero hlz]
      rfl
  · obtain ⟨hs, hx, hfr⟩ := doubleOf_special he
    refine ⟨hdef (.inl (by omega)), BitVec.eq_of_toNat_eq ?_, ?_⟩
    · rw [singleOf_kept_toNat (.inl (by omega)), hd, hs, hx, hfr, hw, he]
      omega
    · unfold singleRepresentable unpack
      rw [if_pos hx]
      split
      · rfl
      · rfl
      · next hu => split at hu <;> cases hu
  · obtain ⟨hs, hx, hfr⟩ := doubleOf_normal h0 h1
    refine ⟨hdef (.inl (by omega)), BitVec.eq_of_toNat_eq ?_, ?_⟩
    · rw [singleOf_kept_toNat (.inl (by omega)), hd, hs, hx, hfr, hw]
      rcases Nat.lt_or_ge (wExp w) 128 with hE | hE
      · omega
      · omega
    · unfold singleRepresentable unpack
      rw [if_neg (by omega), if_neg (by omega), hlow.2 (by rw [hfr]; exact Nat.mul_mod_left _ _)]
      simp only [Bool.or_eq_true, Bool.and_eq_true, decide_eq_true_iff]
      exact .inl (.inr ⟨⟨by omega, by omega⟩, rfl⟩)

/-- Settles O33: loads by the form of the single, stores by the exponent of the double. -/
theorem singleStoreUndoesLoad : Obligations.SingleStoreUndoesLoad := by
  intro w d exp frac loads dexp dfrac
  refine ⟨doubleOf_normal, fun k he hl hu => doubleOf_denormal he hl hu, doubleOf_zero, doubleOf_special, fun h => ?_, fun h1 h2 => ?_, ?_,
    singleOf_doubleOf w⟩
  · have hk := singleOf_kept h
    rw [hk]
    exact ⟨BitVec.extractLsb'_append_eq_left .., BitVec.setWidth_append_eq_right⟩
  · obtain ⟨-, hlt⟩ := shifted_lt h1 h2
    have hn := singleOf_shifted_toNat h1 h2
    have hs := single_toNat (singleOf d)
    have h3 := (singleOf d).msb.toNat_lt
    have h4 := d.msb.toNat_lt
    have h5 := wExp_lt (singleOf d)
    have h6 := wFrac_lt (singleOf d)
    change (singleOf d).toNat = d.msb.toNat * 2 ^ 31 + (2 ^ 52 + dfrac) / 2 ^ (897 - dexp) / 2 ^ 29 at hn
    change (2 ^ 52 + dfrac) / 2 ^ (897 - dexp) / 2 ^ 29 < 2 ^ 23 at hlt
    generalize (2 ^ 52 + dfrac) / 2 ^ (897 - dexp) / 2 ^ 29 = q at *
    refine ⟨bool_of_toNat (by omega), ?_, ?_⟩
    · show wExp (singleOf d) = 0
      omega
    · show wFrac (singleOf d) = q
      omega
  · unfold singleDefined
    rw [Bool.or_eq_true, decide_eq_true_iff, beq_iff_eq]
    exact Iff.rfl

end Sys2Proof.Machine


/-! Special-purpose registers: the access rules, and what each number reads (43 R1035 to R1037; 10 R49, R50). -/

namespace Sys2Proof.Machine

variable {s t : State} {n : BitVec 10} {row : SprRow}

/-! ### The access rules -/

/-- The lists of the claims name a number. -/
abbrev SprKnown (k : Nat) : Prop := k ∈ sprUserNumbers ∨ k ∈ sprGuestNumbers ∨ k ∈ sprHypervisorNumbers

/-- What the lists say of a number is what a row says. -/
abbrev RowListed (k : Nat) (row : SprRow) : Prop :=
  (row.readable = true ↔ k ∉ sprWriteOnly) ∧ (row.writable = true ↔ k ∉ sprReadOnly) ∧
    (row.cls = .user ↔ k ∈ sprUserNumbers) ∧
    (row.cls.hvOnly false = true ↔ k ∈ sprHypervisorNumbers ∧ k ∉ sprGuestReads) ∧
    (row.cls.hvOnly true = true ↔ k ∈ sprHypervisorNumbers ∨ k ∈ sprGuestReads)

theorem rows_listed : ∀ row ∈ sprTable, SprKnown row.num ∧ RowListed row.num row := by decide +kernel

theorem known_have_rows : ∀ k ∈ sprUserNumbers ++ sprGuestNumbers ++ sprHypervisorNumbers, ∃ row ∈ sprTable, row.num = k := by
  decide +kernel

theorem known_of_row (h : sprRow n = some row) : SprKnown n.toNat ∧ RowListed n.toNat row := by
  have hn : row.num = n.toNat := by simpa using List.find?_some h
  rw [← hn]
  exact rows_listed row (List.mem_of_find?_eq_some h)

theorem row_of_known (h : SprKnown n.toNat) : ∃ row, sprRow n = some row ∧ RowListed n.toNat row := by
  obtain ⟨row, hrow, hn⟩ := known_have_rows n.toNat (by simpa [or_assoc] using h)
  cases hr : sprRow n with
  | none => exact absurd hn (by simpa using List.find?_eq_none.1 hr row hrow)
  | some row' => exact ⟨row', rfl, (known_of_row hr).2⟩

/-- The answers of the access rules for a row. -/
theorem sprAccess_illegal {w : Bool} (h : ∀ row, sprRow n = some row → (if w then row.writable else row.readable) = false) :
    s.sprAccess n w = .illegal := by
  unfold State.sprAccess
  split
  · rfl
  · next row hrow => exact if_pos (h row hrow)

theorem sprAccess_privileged {w : Bool} (hrow : sprRow n = some row) (hr : (if w then row.writable else row.readable) = true)
    (hc : row.cls ≠ .user) (hp : bit s.msr 49 = true) : s.sprAccess n w = .privileged := by
  unfold State.sprAccess
  rw [hrow]
  exact (if_neg (by simp [hr])).trans (if_pos ⟨hc, hp⟩)

theorem sprAccess_hvPrivilege {w : Bool} (hrow : sprRow n = some row) (hr : (if w then row.writable else row.readable) = true)
    (hc : row.cls.hvOnly w = true) (hp : bit s.msr 49 = false) (hg : bit s.msr 35 = true) : s.sprAccess n w = .hvPrivilege := by
  unfold State.sprAccess
  rw [hrow]
  refine ((if_neg (by simp [hr])).trans (if_neg fun h => ?_)).trans (if_pos ⟨hc, hg⟩)
  have : bit s.msr 49 = true := h.2
  rw [hp] at this
  cases this

/-- The end of an access, by the answer. -/
def State.onAccess (s : State) (k : Spr → Out) : SprAccess → Out
  | .illegal => s.illegal
  | .privileged => s.privileged
  | .hvPrivilege => s.hvPrivilege
  | .ok r => k r

theorem onSpr_eq {w : Bool} {a : SprAccess} (h : s.sprAccess n w = a) (k : Spr → Out) : s.onSpr n w k = s.onAccess k a := by
  subst h
  unfold State.onSpr State.onAccess
  cases s.sprAccess n w <;> rfl

/-- Settles O38: each answer by the row of the number. -/
theorem sprAccessRules : Obligations.SprAccessRules := by
  intro s r n k pr gs known reading writing program hypervisor
  have illegal {w : Bool} {i : Instr} {f : Spr → Out} (hi : exec i s = s.onSpr n w f)
      (h : ∀ row, sprRow n = some row → (if w then row.writable else row.readable) = false) : program i 0x08000000 :=
    enters_illegal (hi.trans (onSpr_eq (sprAccess_illegal h) f))
  have privileged {w : Bool} {i : Instr} {f : Spr → Out} (hi : exec i s = s.onSpr n w f) {row : SprRow}
      (hrow : sprRow n = some row) (hr : (if w then row.writable else row.readable) = true) (hc : row.cls ≠ .user) (hp : pr) :
      program i 0x04000000 := enters_privileged (hi.trans (onSpr_eq (sprAccess_privileged hrow hr hc hp) f))
  have hypPriv {w : Bool} {i : Instr} {f : Spr → Out} (hi : exec i s = s.onSpr n w f) {row : SprRow}
      (hrow : sprRow n = some row) (hr : (if w then row.writable else row.readable) = true) (hc : row.cls.hvOnly w = true)
      (hp : ¬pr) (hg : gs) : hypervisor i :=
    enters_hvPrivilege (hi.trans (onSpr_eq (sprAccess_hvPrivilege hrow hr hc (Bool.eq_false_iff.2 hp) hg) f))
  have unread (h : ¬reading) : ∀ row, sprRow n = some row → row.readable = false := fun row hrow => by
    obtain ⟨hk, hr, -⟩ := known_of_row hrow
    exact Bool.eq_false_iff.2 fun hc => h ⟨hk, hr.1 hc⟩
  have unwritten (h : ¬writing) : ∀ row, sprRow n = some row → row.writable = false := fun row hrow => by
    obtain ⟨hk, -, hw, -⟩ := known_of_row hrow
    exact Bool.eq_false_iff.2 fun hc => h ⟨hk, hw.1 hc⟩
  refine ⟨fun h => ⟨illegal (w := false) rfl (unread h), illegal (w := false) rfl (unread h)⟩,
    fun h => illegal (w := true) rfl (unwritten h), fun h hu hp => ?_, fun h hu hp => ?_, fun h hh hg hp hgs => ?_,
    fun h hh hp hgs => ?_⟩
  · obtain ⟨row, hrow, hr, -, hc, -⟩ := row_of_known h.1
    have hr' := hr.2 h.2
    exact ⟨privileged (w := false) rfl hrow hr' (fun hcu => hu (hc.1 hcu)) hp,
      privileged (w := false) rfl hrow hr' (fun hcu => hu (hc.1 hcu)) hp⟩
  · obtain ⟨row, hrow, -, hw, hc, -⟩ := row_of_known h.1
    exact privileged (w := true) rfl hrow (hw.2 h.2) (fun hcu => hu (hc.1 hcu)) hp
  · obtain ⟨row, hrow, hr, -, -, hc, -⟩ := row_of_known h.1
    have hr' := hr.2 h.2
    exact ⟨hypPriv (w := false) rfl hrow hr' (hc.2 ⟨hh, hg⟩) hp hgs, hypPriv (w := false) rfl hrow hr' (hc.2 ⟨hh, hg⟩) hp hgs⟩
  · obtain ⟨row, hrow, -, hw, -, -, hc⟩ := row_of_known h.1
    exact hypPriv (w := true) rfl hrow (hw.2 h.2) (hc.2 hh) hp hgs

/-! ### Reading -/

/-- The register that a number stands for in guest supervisor state (10 R50). -/
def guestReg : Spr → Spr
  | .sprg3User => .gsprg 3
  | .srr0 => .gsrr0
  | .srr1 => .gsrr1
  | .epr => .gepr
  | .esr => .gesr
  | .dear => .gdear
  | .pir => .gpir
  | .sprg 0 => .gsprg 0
  | .sprg 1 => .gsprg 1
  | .sprg 2 => .gsprg 2
  | .sprg 3 => .gsprg 3
  | r => r

theorem guestMapped_supervisor (hp : s.pr = false) (r : Spr) : s.guestMapped r = if s.gs then guestReg r else r := by
  unfold State.guestMapped
  rw [hp]
  cases s.gs
  · rfl
  · simp only [Bool.not_true, Bool.false_eq_true, if_false, if_true]
    cases r with
    | sprg n => fin_cases n <;> rfl
    | _ => rfl

/-- mfspr and mftb of a number that may be read. -/
theorem readsSpr_of {r : Spr} {rD : BitVec 5} {v : Word} (h : s.sprAccess n false = .ok r) (hp : s.sprValue r = v) :
    ReadsSpr s rD n (· = v) := by
  have hx : s.onSpr n false (fun r => (s.setGpr rD (s.sprValue r)).finish) = (s.setGpr rD v).finish := by
    rw [onSpr_eq h, ← hp]
    rfl
  exact ⟨does_setGpr hx, does_setGpr hx⟩

end Sys2Proof.Machine


/-! What each SPR number reads (43 R1035, R1037). -/

namespace Sys2Proof.Machine

variable {s t : State} {n : BitVec 10} {row : SprRow} {rD : BitVec 5} {v : Word} {g : Bool}

/-- A register that user state reaches as supervisor state does. -/
def fixedInUser : Spr → Bool
  | .srr0 | .srr1 | .epr | .esr | .dear | .pir => false
  | .sprg n => decide (4 ≤ n.val)
  | _ => true

theorem guestMapped_user (r : Spr) (h : fixedInUser r = true) : s.guestMapped r = if s.gs then guestReg r else r := by
  unfold State.guestMapped
  cases s.gs
  · rfl
  · simp only [Bool.not_true, Bool.false_eq_true, if_false, if_true]
    cases r with
    | sprg n => fin_cases n <;> first | rfl | cases h
    | _ => first | rfl | cases h

/-! A number reads the register of its row, or the guest's in its place: what is left to say is the value. -/

theorem readsSpr_user (hg : s.gs = g) (h : sprRow n = some row) (hc : row.cls = .user := by rfl)
    (hr : row.readable = true := by rfl) (hf : fixedInUser row.reg = true := by rfl)
    (hv : s.sprValue (if g then guestReg row.reg else row.reg) = v := by rfl) : ReadsSpr s rD n (· = v) := by
  subst hg
  exact readsSpr_of (sprAccess_user h hc hr) ((congrArg s.sprValue (guestMapped_user _ hf)).trans hv)

theorem readsSpr_supervisor (hp : InSupervisor s) (hg : s.gs = g) (h : sprRow n = some row)
    (hc : row.cls.hvOnly false = false := by rfl) (hr : row.readable = true := by rfl)
    (hv : s.sprValue (if g then guestReg row.reg else row.reg) = v := by rfl) : ReadsSpr s rD n (· = v) := by
  subst hg
  exact readsSpr_of (sprAccess_supervisor hp h hc hr) ((congrArg s.sprValue (guestMapped_supervisor hp _)).trans hv)

theorem readsSpr_hypervisor (hs : InHypervisor s) (h : sprRow n = some row) (hr : row.readable = true := by rfl)
    (hv : s.sprValue row.reg = v := by rfl) : ReadsSpr s rD n (· = v) :=
  readsSpr_of (sprAccess_hypervisor hs.1 hs.2 h hr) ((congrArg s.sprValue (guestMapped_hypervisor hs _)).trans hv)

theorem does_mono {i : Instr} {e : Effect} {but : List (BitVec 36)} {p q : State → Prop} (h : Does i s e but p)
    (hpq : ∀ t, p t → q t) : Does i s e but q := by
  obtain ⟨t, ht, hpc, hk, hs, hp⟩ := h
  exact ⟨t, ht, hpc, hk, hs, hpq t hp⟩

/-- NSPD reads the register that NSPC names. -/
theorem nexus_value (d : Debug) :
    (d.nspc = 0x408 → d.nexus.getD 0 = d.dc1) ∧ (d.nspc = 0x40C → d.nexus.getD 0 = d.dc2) ∧
    (d.nspc = 0x414 → d.nexus.getD 0 = d.dc4) ∧ (d.nspc = 0x42C → d.nexus.getD 0 = d.wt1) ∧
    (d.nspc = 0x458 → d.nexus.getD 0 = d.wmsk) ∧ (d.nspc = 0x45C → d.nexus.getD 0 = d.ovcr) ∧
    (d.nspc ∉ ([0x408, 0x40C, 0x414, 0x42C, 0x458, 0x45C] : List Word) → d.nexus.getD 0 = 0) := by
  unfold Debug.nexus
  refine ⟨fun h => ?_, fun h => ?_, fun h => ?_, fun h => ?_, fun h => ?_, fun h => ?_, fun h => ?_⟩
  case refine_7 =>
    have hne : ∀ k ∈ ([0x408, 0x40C, 0x414, 0x42C, 0x458, 0x45C] : List Word), d.nspc.toNat ≠ k.toNat :=
      fun k hk he => h (BitVec.eq_of_toNat_eq he ▸ hk)
    simp only [List.forall_mem_cons] at hne
    obtain ⟨h1, h2, h3, h4, h5, h6, -⟩ := hne
    split <;> first | rfl | contradiction
  all_goals
    rw [h]
    rfl

/-- Settles O35: the row of each number, and the register that it reads. -/
theorem sprReads : Obligations.SprReads := by
  intro s rD gs reads
  have hg : s.gs = gs := rfl
  clear_value gs
  refine ⟨?_, fun hs => ⟨?_, ?_⟩, fun hh => ⟨?_, ?_, ?_, ?_⟩, fun hh => ?_⟩
  · simp only [reads, List.forall_mem_cons]
    cases gs <;>
    exact ⟨readsSpr_user hg sprRow_1, readsSpr_user hg sprRow_8, readsSpr_user hg sprRow_9,
      readsSpr_user hg sprRow_256, readsSpr_user hg sprRow_259, readsSpr_user hg sprRow_260,
      readsSpr_user hg sprRow_261, readsSpr_user hg sprRow_262, readsSpr_user hg sprRow_263,
      readsSpr_user hg sprRow_268, readsSpr_user hg sprRow_269, readsSpr_user hg sprRow_515,
      readsSpr_user hg sprRow_516, readsSpr_user hg sprRow_517, readsSpr_user hg sprRow_519,
      readsSpr_user hg sprRow_526, readsSpr_user hg sprRow_527, readsSpr_user hg sprRow_576,
      readsSpr_user hg sprRow_975, nofun⟩
  · simp only [reads, List.forall_mem_cons]
    cases gs <;>
    exact ⟨readsSpr_supervisor hs hg sprRow_26, readsSpr_supervisor hs hg sprRow_27,
      readsSpr_supervisor hs hg sprRow_48, readsSpr_supervisor hs hg sprRow_61, readsSpr_supervisor hs hg sprRow_62,
      readsSpr_supervisor hs hg sprRow_272, readsSpr_supervisor hs hg sprRow_273,
      readsSpr_supervisor hs hg sprRow_274, readsSpr_supervisor hs hg sprRow_275,
      readsSpr_supervisor hs hg sprRow_276, readsSpr_supervisor hs hg sprRow_277,
      readsSpr_supervisor hs hg sprRow_278, readsSpr_supervisor hs hg sprRow_279,
      readsSpr_supervisor hs hg sprRow_286, readsSpr_supervisor hs hg sprRow_287,
      readsSpr_supervisor hs hg sprRow_368, readsSpr_supervisor hs hg sprRow_369,
      readsSpr_supervisor hs hg sprRow_370, readsSpr_supervisor hs hg sprRow_371,
      readsSpr_supervisor hs hg sprRow_378, readsSpr_supervisor hs hg sprRow_379,
      readsSpr_supervisor hs hg sprRow_380, readsSpr_supervisor hs hg sprRow_381,
      readsSpr_supervisor hs hg sprRow_382, nofun⟩
  · simp only [reads, List.forall_mem_cons]
    cases gs <;>
    exact ⟨readsSpr_supervisor hs hg sprRow_383, readsSpr_supervisor hs hg sprRow_605,
      readsSpr_supervisor hs hg sprRow_624, readsSpr_supervisor hs hg sprRow_625,
      readsSpr_supervisor hs hg sprRow_626, readsSpr_supervisor hs hg sprRow_627,
      readsSpr_supervisor hs hg sprRow_628, readsSpr_supervisor hs hg sprRow_630,
      readsSpr_supervisor hs hg sprRow_702, readsSpr_supervisor hs hg sprRow_944,
      readsSpr_supervisor hs hg sprRow_947, readsSpr_supervisor hs hg sprRow_948,
      readsSpr_supervisor hs hg sprRow_1023, readsSpr_supervisor hs hg sprRow_440,
      readsSpr_supervisor hs hg sprRow_441, readsSpr_supervisor hs hg sprRow_442,
      readsSpr_supervisor hs hg sprRow_443, readsSpr_supervisor hs hg sprRow_444,
      readsSpr_supervisor hs hg sprRow_445, readsSpr_supervisor hs hg sprRow_447, nofun⟩
  · simp only [reads, List.forall_mem_cons]
    exact ⟨readsSpr_hypervisor hh sprRow_22, readsSpr_hypervisor hh sprRow_54, readsSpr_hypervisor hh sprRow_58,
      readsSpr_hypervisor hh sprRow_59, readsSpr_hypervisor hh sprRow_63, readsSpr_hypervisor hh sprRow_284,
      readsSpr_hypervisor hh sprRow_285, readsSpr_hypervisor hh sprRow_304, readsSpr_hypervisor hh sprRow_307,
      readsSpr_hypervisor hh sprRow_308, readsSpr_hypervisor hh sprRow_309, readsSpr_hypervisor hh sprRow_310,
      readsSpr_hypervisor hh sprRow_311, readsSpr_hypervisor hh sprRow_312, readsSpr_hypervisor hh sprRow_313,
      readsSpr_hypervisor hh sprRow_316, readsSpr_hypervisor hh sprRow_317, readsSpr_hypervisor hh sprRow_336,
      readsSpr_hypervisor hh sprRow_338, readsSpr_hypervisor hh sprRow_339, readsSpr_hypervisor hh sprRow_340,
      readsSpr_hypervisor hh sprRow_341, readsSpr_hypervisor hh sprRow_400, readsSpr_hypervisor hh sprRow_401, nofun⟩
  · simp only [reads, List.forall_mem_cons]
    exact ⟨readsSpr_hypervisor hh sprRow_402, readsSpr_hypervisor hh sprRow_403, readsSpr_hypervisor hh sprRow_404,
      readsSpr_hypervisor hh sprRow_405, readsSpr_hypervisor hh sprRow_406, readsSpr_hypervisor hh sprRow_407,
      readsSpr_hypervisor hh sprRow_408, readsSpr_hypervisor hh sprRow_409, readsSpr_hypervisor hh sprRow_410,
      readsSpr_hypervisor hh sprRow_411, readsSpr_hypervisor hh sprRow_412, readsSpr_hypervisor hh sprRow_413,
      readsSpr_hypervisor hh sprRow_414, readsSpr_hypervisor hh sprRow_415, readsSpr_hypervisor hh sprRow_531,
      readsSpr_hypervisor hh sprRow_532, readsSpr_hypervisor hh sprRow_533, readsSpr_hypervisor hh sprRow_432,
      readsSpr_hypervisor hh sprRow_433, readsSpr_hypervisor hh sprRow_434, readsSpr_hypervisor hh sprRow_435,
      readsSpr_hypervisor hh sprRow_563, readsSpr_hypervisor hh sprRow_569, readsSpr_hypervisor hh sprRow_570, nofun⟩
  · simp only [reads, List.forall_mem_cons]
    exact ⟨readsSpr_hypervisor hh sprRow_571, readsSpr_hypervisor hh sprRow_572, readsSpr_hypervisor hh sprRow_573,
      readsSpr_hypervisor hh sprRow_574, readsSpr_hypervisor hh sprRow_575, readsSpr_hypervisor hh sprRow_604,
      readsSpr_hypervisor hh sprRow_606, readsSpr_hypervisor hh sprRow_688, readsSpr_hypervisor hh sprRow_689,
      readsSpr_hypervisor hh sprRow_696, readsSpr_hypervisor hh sprRow_720, readsSpr_hypervisor hh sprRow_721,
      readsSpr_hypervisor hh sprRow_722, readsSpr_hypervisor hh sprRow_723, readsSpr_hypervisor hh sprRow_724,
      readsSpr_hypervisor hh sprRow_725, readsSpr_hypervisor hh sprRow_984, readsSpr_hypervisor hh sprRow_985,
      readsSpr_hypervisor hh sprRow_986, readsSpr_hypervisor hh sprRow_987, readsSpr_hypervisor hh sprRow_988,
      readsSpr_hypervisor hh sprRow_989, readsSpr_hypervisor hh sprRow_990, readsSpr_hypervisor hh sprRow_991, nofun⟩
  · simp only [reads, List.forall_mem_cons]
    exact ⟨readsSpr_hypervisor hh sprRow_1008, readsSpr_hypervisor hh sprRow_1010,
      readsSpr_hypervisor hh sprRow_1011, readsSpr_hypervisor hh sprRow_1012, readsSpr_hypervisor hh sprRow_1013,
      readsSpr_hypervisor hh sprRow_1015, readsSpr_hypervisor hh sprRow_1017, readsSpr_hypervisor hh sprRow_1018,
      nofun⟩
  · obtain ⟨h1, h2⟩ := readsSpr_hypervisor (rD := rD) hh sprRow_983
    have hv := nexus_value s.dbg
    exact ⟨does_mono h1 fun t ht => by rw [ht]; exact hv, does_mono h2 fun t ht => by rw [ht]; exact hv⟩

end Sys2Proof.Machine


/-! What a write of each SPR number leaves (43 R1036). -/

namespace Sys2Proof.Machine

variable {s t : State} {n : BitVec 10} {row : SprRow} {rS : BitVec 5} {g : Bool}

/-! A number writes the register of its row, or the guest's in its place: what is left to say is the state. -/

theorem writesSpr_user (hg : s.gs = g) (h : sprRow n = some row) (hc : row.cls = .user := by rfl)
    (hw : row.writable = true := by rfl) (hf : fixedInUser row.reg = true := by rfl)
    (ht : s.writeSpr (if g then guestReg row.reg else row.reg) (s.getGpr rS) = t := by rfl) : WritesSpr s rS n t := by
  subst hg ht
  rw [← guestMapped_user _ hf]
  exact exec_mtspr_ok (sprAccess_user_write h hc hw) rS

theorem writesSpr_supervisor (hp : InSupervisor s) (hg : s.gs = g) (h : sprRow n = some row)
    (hc : row.cls.hvOnly true = false := by rfl) (hw : row.writable = true := by rfl)
    (ht : s.writeSpr (if g then guestReg row.reg else row.reg) (s.getGpr rS) = t := by rfl) : WritesSpr s rS n t := by
  subst hg ht
  rw [← guestMapped_supervisor hp]
  exact exec_mtspr_ok (sprAccess_supervisor_write hp h hc hw) rS

theorem writesSpr_hypervisor (hs : InHypervisor s) (h : sprRow n = some row) (hw : row.writable = true := by rfl)
    (ht : s.writeSpr row.reg (s.getGpr rS) = t := by rfl) : WritesSpr s rS n t := by
  subst ht
  have hx := exec_mtspr_ok (sprAccess_hypervisor_write hs.1 hs.2 h hw) rS
  rwa [guestMapped_hypervisor hs] at hx

/-- The debug registers, outside external debug mode and in it (14 R250). -/
theorem writesSpr_debug (hs : InHypervisor s) (hd : bit s.dbg.edbcr0 32 = false) (h : sprRow n = some row)
    (hw : row.writable = true := by rfl)
    (ho : s.writeSpr row.reg (s.getGpr rS) = if s.edm then s else s.writeDebugSpr row.reg (s.getGpr rS) := by rfl)
    (ht : s.writeDebugSpr row.reg (s.getGpr rS) = t := by rfl) : WritesSpr s rS n t :=
  writesSpr_hypervisor hs h hw ((ho.trans (if_neg (by unfold State.edm; rw [hd]; exact Bool.false_ne_true))).trans ht)

theorem writesSpr_external (hs : InHypervisor s) (hd : bit s.dbg.edbcr0 32 = true) (h : sprRow n = some row)
    (hw : row.writable = true := by rfl)
    (ho : s.writeSpr row.reg (s.getGpr rS) = if s.edm then s else s.writeDebugSpr row.reg (s.getGpr rS) := by rfl) :
    WritesSpr s rS n s := writesSpr_hypervisor hs h hw (ho.trans (if_pos hd))

/-- EPLC and EPSC keep the hypervisor's fields in guest state. -/
theorem writeExternal_eq (hg : s.gs = g) (old v : Word) :
    s.writeExternal old v = if g then (old &&& 0x203F0000) ||| (v &&& 0xC00000FF) else v &&& 0xE03F00FF := by
  unfold State.writeExternal
  rw [hg]

/-- NSPD writes the register that NSPC names. -/
theorem writeNspd_eq (v : Word) (d : Debug) : d.writeNspd v =
    if d.nspc = 0x408 then { d with dc1 := v &&& 0x01007F2F }
    else if d.nspc = 0x40C then { d with dc2 := v }
    else if d.nspc = 0x414 then { d with dc4 := v }
    else if d.nspc = 0x42C then { d with wt1 := v &&& 0xFFFF0000 }
    else if d.nspc = 0x458 then { d with wmsk := v &&& 0x3FFF }
    else if d.nspc = 0x45C then { d with ovcr := v &&& 0x302F3001 }
    else d := by
  have named (k : Word) : d.nspc = k ↔ d.nspc.toNat = k.toNat := (BitVec.toNat_inj).symm
  unfold Debug.writeNspd
  simp only [named]
  generalize d.nspc.toNat = k
  split <;> simp_all

theorem withDbg_writeNspd (v : Word) (s : State) : s.withDbg (·.writeNspd v) =
    if s.dbg.nspc = 0x408 then { s with dbg := { s.dbg with dc1 := v &&& 0x01007F2F } }
    else if s.dbg.nspc = 0x40C then { s with dbg := { s.dbg with dc2 := v } }
    else if s.dbg.nspc = 0x414 then { s with dbg := { s.dbg with dc4 := v } }
    else if s.dbg.nspc = 0x42C then { s with dbg := { s.dbg with wt1 := v &&& 0xFFFF0000 } }
    else if s.dbg.nspc = 0x458 then { s with dbg := { s.dbg with wmsk := v &&& 0x3FFF } }
    else if s.dbg.nspc = 0x45C then { s with dbg := { s.dbg with ovcr := v &&& 0x302F3001 } }
    else s := by
  refine (congrArg (fun d : Debug => { s with dbg := d }) (writeNspd_eq v s.dbg)).trans ?_
  split_ifs <;> rfl

/-! The cache control registers, with the locks that they drop (12 R180 to R182, R190). -/

theorem writeL1csr0_eq (v : Word) (c : Cache) : c.writeL1csr0 v = { c with
    l1csr0 := (v &&& 0x00010E69) ||| (if bit v 47 then v &&& 0x8000 else 0)
    lockD := if bit v 55 ∨ bit v 62 then [] else c.lockD } := by
  unfold Cache.writeL1csr0
  simp only [Bool.or_eq_true]
  rfl

theorem writeL1csr1_eq (v : Word) (c : Cache) : c.writeL1csr1 v = { c with
    l1csr1 := (v &&& 0x00010E01) ||| (if bit v 47 then v &&& 0x8000 else 0)
    lockI := if bit v 55 ∨ bit v 62 then [] else c.lockI } := by
  unfold Cache.writeL1csr1
  simp only [Bool.or_eq_true]
  rfl

theorem writeL1csr2_eq (v : Word) (c : Cache) : c.writeL1csr2 v = { c with
    l1csr2 := v &&& 0x400000FF
    lockD := if bit v 33 = bit c.l1csr2 33 then c.lockD else [] } := by
  unfold Cache.writeL1csr2
  simp only [ne_eq, ite_not]

theorem writeL2csr0_eq (v : Word) (c : Cache) : c.writeL2csr0 v = { c with
    l2csr0 := (v &&& 0xDC1130A0) ||| (if bit c.l2csr0 32 then 0 else v &&& 0x800)
    lockL2 := if bit v 53 then [] else c.lockL2 } := by
  unfold Cache.writeL2csr0 maskIf
  simp only [Bool.not_eq_true', ← Bool.not_eq_true, ite_not]

/-- Settles O36: the row of each number, and the state that its write leaves. -/
theorem sprWrites : Obligations.SprWrites := by
  intro s rS v gs int mmu tim ctl cache dbg sprg gsprg ivor givor external writes
  have hg : s.gs = gs := rfl
  refine ⟨?_, fun hs => ⟨?_, ?_⟩, fun hh => ⟨?_, ?_, ?_, ?_⟩, fun hh hd => ?_, fun hh hd => ?_⟩
  · simp only [writes, List.forall_mem_cons]
    clear_value gs
    cases gs <;>
    exact ⟨writesSpr_user hg sprRow_1, writesSpr_user hg sprRow_8, writesSpr_user hg sprRow_9,
      writesSpr_user hg sprRow_256, writesSpr_user hg sprRow_517, writesSpr_user hg sprRow_576, List.forall_mem_nil _⟩
  · simp only [writes, List.forall_mem_cons]
    clear_value gs
    cases gs <;>
    exact ⟨writesSpr_supervisor hs hg sprRow_26, writesSpr_supervisor hs hg sprRow_27,
      writesSpr_supervisor hs hg sprRow_61, writesSpr_supervisor hs hg sprRow_62,
      writesSpr_supervisor hs hg sprRow_272, writesSpr_supervisor hs hg sprRow_273,
      writesSpr_supervisor hs hg sprRow_274, writesSpr_supervisor hs hg sprRow_275,
      writesSpr_supervisor hs hg sprRow_276, writesSpr_supervisor hs hg sprRow_277,
      writesSpr_supervisor hs hg sprRow_278, writesSpr_supervisor hs hg sprRow_279,
      writesSpr_supervisor hs hg sprRow_605, writesSpr_supervisor hs hg sprRow_368,
      writesSpr_supervisor hs hg sprRow_369, writesSpr_supervisor hs hg sprRow_370,
      writesSpr_supervisor hs hg sprRow_371, writesSpr_supervisor hs hg sprRow_378,
      writesSpr_supervisor hs hg sprRow_379, writesSpr_supervisor hs hg sprRow_380,
      writesSpr_supervisor hs hg sprRow_381, writesSpr_supervisor hs hg sprRow_383,
      writesSpr_supervisor hs hg sprRow_48, writesSpr_supervisor hs hg sprRow_624, List.forall_mem_nil _⟩
  · have ext (old : Word) : s.writeExternal old v = external old := writeExternal_eq hg old v
    have hl : s.withMmu ({ · with eplc := s.writeExternal s.mmu.eplc v }) = mmu { s.mmu with eplc := external s.mmu.eplc } := by
      rw [ext]
      rfl
    have hst : s.withMmu ({ · with epsc := s.writeExternal s.mmu.epsc v }) = mmu { s.mmu with epsc := external s.mmu.epsc } := by
      rw [ext]
      rfl
    simp only [writes, List.forall_mem_cons]
    clear_value external gs
    cases gs <;>
    exact ⟨writesSpr_supervisor hs hg sprRow_625, writesSpr_supervisor hs hg sprRow_626,
      writesSpr_supervisor hs hg sprRow_627, writesSpr_supervisor hs hg sprRow_628,
      writesSpr_supervisor hs hg sprRow_630, writesSpr_supervisor hs hg sprRow_944,
      writesSpr_supervisor hs hg sprRow_947 rfl rfl hl, writesSpr_supervisor hs hg sprRow_948 rfl rfl hst,
      List.forall_mem_nil _⟩
  · simp only [writes, List.forall_mem_cons]
    exact ⟨writesSpr_hypervisor hh sprRow_22, writesSpr_hypervisor hh sprRow_54, writesSpr_hypervisor hh sprRow_336,
      writesSpr_hypervisor hh sprRow_340, writesSpr_hypervisor hh sprRow_58, writesSpr_hypervisor hh sprRow_59,
      writesSpr_hypervisor hh sprRow_570, writesSpr_hypervisor hh sprRow_571, writesSpr_hypervisor hh sprRow_574,
      writesSpr_hypervisor hh sprRow_575, writesSpr_hypervisor hh sprRow_572, writesSpr_hypervisor hh sprRow_63,
      writesSpr_hypervisor hh sprRow_447, writesSpr_hypervisor hh sprRow_400, writesSpr_hypervisor hh sprRow_401,
      writesSpr_hypervisor hh sprRow_402, writesSpr_hypervisor hh sprRow_403, writesSpr_hypervisor hh sprRow_404,
      writesSpr_hypervisor hh sprRow_405, writesSpr_hypervisor hh sprRow_406, writesSpr_hypervisor hh sprRow_407,
      writesSpr_hypervisor hh sprRow_408, writesSpr_hypervisor hh sprRow_409, writesSpr_hypervisor hh sprRow_410,
      List.forall_mem_nil _⟩
  · simp only [writes, List.forall_mem_cons]
    exact ⟨writesSpr_hypervisor hh sprRow_411, writesSpr_hypervisor hh sprRow_412,
      writesSpr_hypervisor hh sprRow_413, writesSpr_hypervisor hh sprRow_414, writesSpr_hypervisor hh sprRow_415,
      writesSpr_hypervisor hh sprRow_531, writesSpr_hypervisor hh sprRow_532, writesSpr_hypervisor hh sprRow_533,
      writesSpr_hypervisor hh sprRow_432, writesSpr_hypervisor hh sprRow_433, writesSpr_hypervisor hh sprRow_434,
      writesSpr_hypervisor hh sprRow_435, writesSpr_hypervisor hh sprRow_440, writesSpr_hypervisor hh sprRow_441,
      writesSpr_hypervisor hh sprRow_442, writesSpr_hypervisor hh sprRow_443, writesSpr_hypervisor hh sprRow_444,
      writesSpr_hypervisor hh sprRow_445, writesSpr_hypervisor hh sprRow_307, writesSpr_hypervisor hh sprRow_311,
      writesSpr_hypervisor hh sprRow_286, writesSpr_hypervisor hh sprRow_382, writesSpr_hypervisor hh sprRow_1008,
      writesSpr_hypervisor hh sprRow_1013, List.forall_mem_nil _⟩
  · simp only [writes, List.forall_mem_cons]
    exact ⟨writesSpr_hypervisor hh sprRow_696, writesSpr_hypervisor hh sprRow_604,
      writesSpr_hypervisor hh sprRow_338, writesSpr_hypervisor hh sprRow_339, writesSpr_hypervisor hh sprRow_341,
      writesSpr_hypervisor hh sprRow_720, writesSpr_hypervisor hh sprRow_725, writesSpr_hypervisor hh sprRow_991,
      writesSpr_hypervisor hh sprRow_721, writesSpr_hypervisor hh sprRow_722, writesSpr_hypervisor hh sprRow_723,
      writesSpr_hypervisor hh sprRow_724, writesSpr_hypervisor hh sprRow_985, writesSpr_hypervisor hh sprRow_986,
      writesSpr_hypervisor hh sprRow_987, writesSpr_hypervisor hh sprRow_988, writesSpr_hypervisor hh sprRow_989,
      writesSpr_hypervisor hh sprRow_990, writesSpr_hypervisor hh sprRow_1018, List.forall_mem_nil _⟩
  · simp only [writes, List.forall_mem_cons]
    exact ⟨writesSpr_hypervisor hh sprRow_1010 rfl (congrArg cache (writeL1csr0_eq v s.cache)),
      writesSpr_hypervisor hh sprRow_1011 rfl (congrArg cache (writeL1csr1_eq v s.cache)),
      writesSpr_hypervisor hh sprRow_606 rfl (congrArg cache (writeL1csr2_eq v s.cache)),
      writesSpr_hypervisor hh sprRow_1017 rfl (congrArg cache (writeL2csr0_eq v s.cache)), List.forall_mem_nil _⟩
  · simp only [writes, List.forall_mem_cons]
    exact ⟨writesSpr_debug hh hd sprRow_304, writesSpr_debug hh hd sprRow_306, writesSpr_debug hh hd sprRow_309,
      writesSpr_debug hh hd sprRow_310, writesSpr_debug hh hd sprRow_563, writesSpr_debug hh hd sprRow_312,
      writesSpr_debug hh hd sprRow_313, writesSpr_debug hh hd sprRow_316, writesSpr_debug hh hd sprRow_317,
      writesSpr_debug hh hd sprRow_984, writesSpr_debug hh hd sprRow_983 rfl rfl (withDbg_writeNspd v s),
      List.forall_mem_nil _⟩
  · simp only [List.forall_mem_cons]
    exact ⟨writesSpr_external hh hd sprRow_304, writesSpr_external hh hd sprRow_306,
      writesSpr_external hh hd sprRow_308, writesSpr_external hh hd sprRow_309, writesSpr_external hh hd sprRow_310,
      writesSpr_external hh hd sprRow_312, writesSpr_external hh hd sprRow_313, writesSpr_external hh hd sprRow_316,
      writesSpr_external hh hd sprRow_317, writesSpr_external hh hd sprRow_563, writesSpr_external hh hd sprRow_983,
      writesSpr_external hh hd sprRow_984, List.forall_mem_nil _⟩

end Sys2Proof.Machine


/-! The invalidations of TLB entries (21 R351, R353). -/

namespace Sys2Proof.Machine

variable {s : State}

/-- The place is in TLB1. -/
def TlbLoc.inOne : TlbLoc → Bool
  | .tlb0 .. => false
  | .tlb1 _ => true

/-- Whether a page holds an address depends on the array alone. -/
theorem pageOf_iff (l : TlbLoc) (e : TlbEntry) (ea : Word) : e.pageOf l.inOne ea = true ↔ pageHolds l e ea := by
  cases l with
  | tlb0 set way => exact covers_iff (.tlb0 0 0) e ea
  | tlb1 n => exact covers_iff (.tlb1 0) e ea

/-- The arrays after an invalidation of the entries that a test selects in each of them. -/
structure Invalidated (q : Bool → TlbEntry → Bool) (m m' : Mmu) : Prop where
  tlb0 : ∀ set way, m'.entry (.tlb0 set way) =
    if q false (m.entry (.tlb0 set way)) then { m.entry (.tlb0 set way) with v := false } else m.entry (.tlb0 set way)
  tlb1 : ∀ n, m'.entry (.tlb1 n) = (m.entry (.tlb1 n)).invalidateIf (q true (m.entry (.tlb1 n)))
  frame : { m' with tlb0 := m.tlb0, tlb1 := m.tlb1 } = m

theorem invalidated_tlbilx (t : BitVec 2) (ea : Word) (m : Mmu) {q : Bool → TlbEntry → Bool}
    (hq : ∀ one e, q one e = match t.toNat with
      | 0 => e.tlpid == m.mas5.setWidth 6
      | 1 => e.tlpid == m.mas5.setWidth 6 && e.tid == m.mas6.extractLsb' 16 8
      | 3 => e.tlpid == m.mas5.setWidth 6 && e.tid == m.mas6.extractLsb' 16 8 && e.pageOf one ea
      | _ => false) : Invalidated q m (m.tlbilx t ea) := by
  obtain rfl := funext fun one => funext (hq one)
  exact ⟨fun set way => entry_invalidate0 _ m set way, fun n => entry_invalidate1 _ (m.invalidate0 _) n, rfl⟩

theorem invalidated_tlbivax (ea : Word) (slpid : BitVec 6) (sgs : Bool) (m : Mmu) :
    Invalidated (fun one e => (one == bit ea 60) &&
      (bit ea 61 || (e.pageOf one ea && e.tlpid == slpid && e.tgs == sgs))) m (m.tlbivax ea slpid sgs) := by
  unfold Mmu.tlbivax
  cases bit ea 60
  · exact ⟨entry_invalidate0 _ m, fun _ => rfl, rfl⟩
  · exact ⟨fun _ _ => rfl, entry_invalidate1 _ m, rfl⟩

/-- At a place that an invalidation selects the valid bit falls, unless TLB1 protects the entry. -/
theorem Invalidated.entry {q : Bool → TlbEntry → Bool} {m m' : Mmu} (h : Invalidated q m m') (l : TlbLoc) :
    let e := m.entry l
    let falls := q l.inOne e = true ∧ ∀ n, l = .tlb1 n → e.iprot = false
    (falls → m'.entry l = { e with v := false }) ∧ (¬falls → m'.entry l = e) := by
  cases l with
  | tlb0 set way =>
    have hp : ∀ n, TlbLoc.tlb0 set way = .tlb1 n → (m.entry (.tlb0 set way)).iprot = false := by simp
    refine ⟨fun hf => (h.tlb0 set way).trans (if_pos hf.1), fun hf => (h.tlb0 set way).trans (if_neg ?_)⟩
    exact fun hq => hf ⟨hq, hp⟩
  | tlb1 n =>
    have he := h.tlb1 n
    unfold TlbEntry.invalidateIf at he
    refine ⟨fun hf => he.trans (if_pos ?_), fun hf => he.trans (if_neg ?_)⟩
    · rw [Bool.and_eq_true, Bool.not_eq_true']
      exact ⟨hf.1, hf.2 n rfl⟩
    · rw [Bool.and_eq_true, Bool.not_eq_true']
      exact fun hq => hf ⟨hq.1, fun _ _ => hq.2⟩

/-- An instruction that invalidates entries leaves the arrays so, and the next-victim numbers free. -/
theorem invalidates_of {i : Instr} {q : Bool → TlbEntry → Bool} {m : Mmu} {selected : TlbLoc → TlbEntry → Prop}
    (hx : exec i s = (({ s with mmu := m } : State).freeNv.noteStores 1).finish) (h : Invalidated q s.mmu m)
    (hs : ∀ l e, q l.inOne e = true ↔ selected l e) : Invalidates i s selected := by
  refine does_finish hx rfl
    (((keeps_draws _ s (s.draws + 1)).trans (keeps_mmu _ _ rfl)).trans (keeps_setLog _ _ _))
    (storageKept_of_mem [] rfl) ⟨fun l => ?_, ?_⟩
  · have he := h.entry l
    simp only [hs] at he
    rw [show (({ s with mmu := m } : State).freeNv.noteStores 1).advance.mmu.entry l = m.entry l from
      entry_freeNv { s with mmu := m } l]
    exact he
  · have hf : m.mas0 = s.mmu.mas0 := (congrArg Mmu.mas0 h.frame :)
    have h0 : (({ s with mmu := m } : State).freeNv.noteStores 1).advance.mmu.mas0 &&& 0xFFFFFFFC =
        s.mmu.mas0 &&& 0xFFFFFFFC := hf ▸ freeNv_mas0 { s with mmu := m }
    rw [h0]
    exact congrArg (fun k : Mmu => { k with nv := s.mmu.nv, mas0 := s.mmu.mas0 &&& 0xFFFFFFFC }) h.frame

/-- An instruction that selects no entry. -/
theorem invalidates_none {i : Instr} (hx : exec i s = (s.noteStores 1).finish) : Invalidates i s fun _ _ => False :=
  does_finish hx rfl (keeps_setLog _ s _) (storageKept_of_mem [] rfl) ⟨fun _ => ⟨fun h => h.1.elim, fun _ => rfl⟩, rfl⟩

/-! ### The selections (21 R351, R353) -/

theorem ofNat_setWidth_iff {n : Nat} (x : BitVec n) (w : Word) : (x == w.setWidth n) = true ↔ x.toNat = w.toNat % 2 ^ n := by
  rw [beq_iff_eq, ← BitVec.toNat_inj, BitVec.toNat_setWidth]

theorem tid_iff (x : BitVec 8) (w : Word) : (x == w.extractLsb' 16 8) = true ↔ x.toNat = w.toNat / 2 ^ 16 % 256 := by
  rw [beq_iff_eq, ← BitVec.toNat_inj, extract_eq_ofNat, BitVec.toNat_ofNat]

/-- tlbilx where it may execute. -/
theorem exec_tlbilx {t : BitVec 2} (rA rB : Gpr) (hp : InSupervisor s) (hg : bit s.msr 35 = false ∨ bit s.ctl.epcr 40 = false) :
    exec (.tlbilx t rA rB) s = if t = 2 then (s.noteStores 1).finish
      else (({ s with mmu := s.mmu.tlbilx t (s.eaX rA rB) } : State).freeNv.noteStores 1).finish := by
  refine (supervisorOnly_ok hp _).trans (if_neg ?_)
  show ¬(bit s.msr 35 && bit s.ctl.epcr 40) = true
  obtain hg | hg := hg <;> simp [hg]

/-- Settles O46: both instructions end in an invalidation by a test on the entries, which is read off their operands. -/
theorem tlbInvalidations : Obligations.TlbInvalidations := by
  intro s rA rB hp ea lpid pid inOne
  have hl (e : TlbEntry) : (e.tlpid == s.mmu.mas5.setWidth 6) = true ↔ lpid e := ofNat_setWidth_iff _ _
  have hd (e : TlbEntry) : (e.tid == s.mmu.mas6.extractLsb' 16 8) = true ↔ pid e := tid_iff _ _
  refine ⟨fun hg => ⟨?_, ?_, ?_, ?_⟩, fun hg => ⟨?_, ?_⟩⟩
  · exact invalidates_of (exec_tlbilx rA rB hp hg) (invalidated_tlbilx 0 _ _ fun _ _ => rfl) fun _ e => hl e
  · refine invalidates_of (exec_tlbilx rA rB hp hg) (invalidated_tlbilx 1 _ _ fun _ _ => rfl) fun _ e => ?_
    rw [← hl, ← hd]
    exact Bool.and_eq_true_iff
  · exact invalidates_none (exec_tlbilx rA rB hp hg)
  · refine invalidates_of (exec_tlbilx rA rB hp hg) (invalidated_tlbilx 3 _ _ fun _ _ => rfl) fun l e => ?_
    rw [← hl, ← hd, ← pageOf_iff, ← and_assoc, ← Bool.and_eq_true_iff, ← Bool.and_eq_true_iff]
    rfl
  · refine invalidates_of (hypervisorOnly_ok ⟨hp, hg⟩ _) (invalidated_tlbivax _ _ _ _) fun l e => ?_
    rw [← hl, ← pageOf_iff]
    have hi : TlbLoc.inOne l = inOne l := by cases l <;> rfl
    simp only [hi, Bool.and_eq_true, Bool.or_eq_true, beq_iff_eq, hl]
    have hx : s.eaX rA rB = ea := rfl
    rw [hx]
    tauto
  · exact does_finish (hypervisorOnly_ok ⟨hp, hg⟩ _) rfl (Keeps.refl _ s) (storageKept_of_mem [] rfl) trivial

end Sys2Proof.Machine


/-! tlbwe and tlbre (21 R348, R349, R352). -/

namespace Sys2Proof.Machine

variable {s : State} (m : Mmu)

/-! ### The arrays after tlbwe -/

theorem entry_tlbWrite (k : TlbLoc) :
    m.tlbWrite.entry k = if k = chosenEntry m then describedEntry m else m.entry k := by
  have h : m.tlbWrite.entry k = (m.setEntry m.selected m.entryFromMas).entry k := by
    unfold Mmu.tlbWrite
    cases m.selected <;> cases k <;> rfl
  rw [h, entry_setEntry, selected_eq, entryFromMas_eq]

/-- Of what is not the arrays, tlbwe changes the next-victim number of the written set alone. -/
theorem tlbWrite_frame : { m.tlbWrite with tlb0 := m.tlb0, nv := m.nv, tlb1 := m.tlb1 } = m := by
  unfold Mmu.tlbWrite
  cases m.selected <;> rfl

theorem selected_tlb1 (h : bit m.mas0 35 = true) : m.selected = .tlb1 (m.mas0.extractLsb' 16 6) := if_pos h

theorem selected_tlb0 (h : ¬bit m.mas0 35 = true) : m.selected = .tlb0 (tlbSet m.mas2) (m.mas0.extractLsb' 16 2) := if_neg h

theorem tlbSet_toNat (ea : Word) : (tlbSet ea).toNat = ea.toNat / 4096 % 128 := by
  unfold tlbSet
  rw [extract_eq_ofNat, BitVec.toNat_ofNat]
  rfl

theorem nv_tlbWrite (k : Fin 128) :
    m.tlbWrite.nv[k] = if ¬bit m.mas0 35 = true ∧ k.val = m.mas2.toNat / 4096 % 128 then BitVec.ofNat 2 m.mas0.toNat
      else m.nv[k] := by
  unfold Mmu.tlbWrite
  by_cases h : bit m.mas0 35 = true
  · rw [selected_tlb1 m h, if_neg fun g => g.1 h]
    rfl
  · rw [selected_tlb0 m h]
    show (m.nv.set (tlbSet m.mas2).toNat (m.mas0.setWidth 2) (tlbSet m.mas2).isLt)[k.val] = _
    rw [Vector.getElem_set, setWidth_eq_ofNat]
    have hk : (tlbSet m.mas2).toNat = k.val ↔ ¬bit m.mas0 35 = true ∧ k.val = m.mas2.toNat / 4096 % 128 := by
      rw [tlbSet_toNat, eq_comm, and_iff_right h]
    simp only [hk]
    rfl

/-! ### What tlbre shows -/

theorem nvOf_eq (l : TlbLoc) : m.nvOf l = victimOf m l := by cases l <;> rfl

/-- MAS0 after tlbre: NV is the next-victim number of the set. -/
theorem mas0_tlbRead (s : State) :
    s.tlbRead.mas0.toNat = s.mmu.mas0.toNat / 4 * 4 + (victimOf s.mmu s.mmu.selected).toNat := by
  have hv := (victimOf s.mmu s.mmu.selected).isLt
  have h1 : (s.mmu.mas0 &&& 0xFFFFFFFC).toNat = s.mmu.mas0.toNat / 4 * 4 := and_not_mask s.mmu.mas0 (k := 2) (by decide)
  have h2 : ((victimOf s.mmu s.mmu.selected).setWidth 32).toNat = (victimOf s.mmu s.mmu.selected).toNat := by
    rw [BitVec.toNat_setWidth]
    omega
  show ((s.mmu.mas0 &&& 0xFFFFFFFC) ||| (s.mmu.nvOf s.mmu.selected).setWidth 32).toNat = _
  rw [nvOf_eq, or_toNat 2 (by omega) (by omega), h1, h2]

/-! ### A register that is read back as the same fields of a register -/

/-- A field put back at its place is that part of the word. -/
theorem field_self (w : Word) (a n : Nat) :
    (w.extractLsb' a n).setWidth 32 <<< a = w &&& ((BitVec.allOnes n).setWidth 32 <<< a) := by
  apply BitVec.eq_of_getLsbD_eq
  intro i hi
  simp only [BitVec.getLsbD_and, BitVec.getLsbD_shiftLeft, BitVec.getLsbD_setWidth, BitVec.getLsbD_extractLsb',
    BitVec.getLsbD_allOnes]
  by_cases ha : i < a
  · simp [ha]
  · simp [ha, hi, show i - a < 32 by omega, show a + (i - a) = i by omega, Bool.and_comm]

theorem maskIf_bit (w : Word) (n : Nat) : maskIf (bit w n) (BitVec.twoPow 32 (63 - n)) = w &&& BitVec.twoPow 32 (63 - n) := by
  rw [BitVec.and_twoPow]
  rfl

theorem setWidth_self (w : Word) (n : Nat) : (w.setWidth n).setWidth 32 = w &&& (BitVec.allOnes n).setWidth 32 := by
  have h := field_self w 0 n
  have hx : w.extractLsb' 0 n = w.setWidth n := by rw [extract_eq_ofNat, setWidth_eq_ofNat, Nat.pow_zero, Nat.div_one]
  rwa [BitVec.shiftLeft_zero, BitVec.shiftLeft_zero, hx] at h

/-- The page number that tlbwe writes reads back. -/
theorem epnRead_written : m.entryFromMas.epnRead m.selected = m.mas2.extractLsb' 12 20 := by
  by_cases h : bit m.mas0 35 = true
  · rw [selected_tlb1 m h]
    rfl
  · rw [selected_tlb0 m h]
    show ((m.mas2.extractLsb' 12 20).extractLsb' 7 13 ++ m.mas2.extractLsb' 12 7 : BitVec 20) = _
    apply BitVec.eq_of_toNat_eq
    rw [append_toNat]
    simp only [BitVec.extractLsb'_toNat, Nat.shiftRight_eq_div_pow]
    omega

theorem mas2_written :
    ((m.entryFromMas.epnRead m.selected).setWidth 32 <<< 12) ||| (m.entryFromMas.x.setWidth 32 <<< 5) |||
      m.entryFromMas.wimge.setWidth 32 = m.mas2 &&& 0xFFFFF07F := by
  rw [epnRead_written]
  show (m.mas2.extractLsb' 12 20).setWidth 32 <<< 12 ||| (m.mas2.extractLsb' 5 2).setWidth 32 <<< 5 |||
    (m.mas2.setWidth 5).setWidth 32 = _
  rw [field_self, field_self, setWidth_self, ← BitVec.and_or_distrib_left, ← BitVec.and_or_distrib_left]
  rfl

theorem mas3_written :
    ((m.entryFromMas.rpn.setWidth 20).setWidth 32 <<< 12) ||| (m.entryFromMas.u.setWidth 32 <<< 6) |||
      m.entryFromMas.perm.setWidth 32 = m.mas3 &&& 0xFFFFF3FF := by
  have hr : m.entryFromMas.rpn.setWidth 20 = m.mas3.extractLsb' 12 20 := by
    apply BitVec.eq_of_toNat_eq
    show ((m.mas7.setWidth 4 ++ m.mas3.extractLsb' 12 20).setWidth 20).toNat = _
    have h3 := (m.mas3.extractLsb' 12 20).isLt
    rw [BitVec.toNat_setWidth, append_toNat]
    omega
  rw [hr]
  show (m.mas3.extractLsb' 12 20).setWidth 32 <<< 12 ||| (m.mas3.extractLsb' 6 4).setWidth 32 <<< 6 |||
    (m.mas3.setWidth 6).setWidth 32 = _
  rw [field_self, field_self, setWidth_self, ← BitVec.and_or_distrib_left, ← BitVec.and_or_distrib_left]
  rfl

theorem rpnHigh_written : (m.entryFromMas.rpn.extractLsb' 20 4).setWidth 32 = m.mas7 &&& 0xF := by
  have hr : m.entryFromMas.rpn.extractLsb' 20 4 = m.mas7.setWidth 4 := by
    apply BitVec.eq_of_toNat_eq
    show ((m.mas7.setWidth 4 ++ m.mas3.extractLsb' 12 20).extractLsb' 20 4).toNat = _
    rw [BitVec.extractLsb'_toNat, append_toNat, Nat.shiftRight_eq_div_pow]
    omega
  rw [hr, setWidth_self]
  rfl

theorem mas8_written : maskIf m.entryFromMas.tgs 0x80000000 ||| maskIf m.entryFromMas.vf 0x40000000 |||
    m.entryFromMas.tlpid.setWidth 32 = m.mas8 &&& 0xC000003F := by
  have h0 : maskIf (bit m.mas8 32) 0x80000000 = m.mas8 &&& 0x80000000 := maskIf_bit _ 32
  have h1 : maskIf (bit m.mas8 33) 0x40000000 = m.mas8 &&& 0x40000000 := maskIf_bit _ 33
  show maskIf (bit m.mas8 32) 0x80000000 ||| maskIf (bit m.mas8 33) 0x40000000 ||| (m.mas8.setWidth 6).setWidth 32 = _
  rw [h0, h1, setWidth_self, ← BitVec.and_or_distrib_left, ← BitVec.and_or_distrib_left]
  rfl

/-- MAS1 of an entry with the V, TID and TS that MAS1 describes. -/
theorem mas1Of_written (w : Word) (b : Bool) (z : BitVec 4) :
    mas1Of (bit w 32) (b && bit w 33) (w.extractLsb' 16 8) (bit w 51) z =
      (w &&& (if b then 0xC0FF1000 else 0x80FF1000)) ||| z.setWidth 32 <<< 8 := by
  have h0 : maskIf (bit w 32) 0x80000000 = w &&& 0x80000000 := maskIf_bit _ 32
  have h1 : maskIf (bit w 33) 0x40000000 = w &&& 0x40000000 := maskIf_bit _ 33
  have h2 : maskIf (bit w 51) 0x1000 = w &&& 0x1000 := maskIf_bit _ 51
  have hi : maskIf (b && bit w 33) 0x40000000 = w &&& (if b then 0x40000000 else 0) := by
    cases b
    · exact (BitVec.and_zero).symm
    · exact h1
  unfold mas1Of
  rw [h0, hi, h2, field_self, ← BitVec.and_or_distrib_left, ← BitVec.and_or_distrib_left, ← BitVec.and_or_distrib_left]
  cases b <;> rfl

/-! ### tlbre after tlbwe -/

/-- The state after tlbwe. -/
def State.tlbWritten (s : State) : State := ({ s with mmu := s.mmu.tlbWrite } : State).advance

theorem selected_tlbWrite : m.tlbWrite.selected = m.selected := by
  unfold Mmu.tlbWrite
  cases h : m.selected <;> exact h

theorem entry_written : m.tlbWrite.entry m.selected = m.entryFromMas := by
  rw [entry_tlbWrite, selected_eq, if_pos rfl, entryFromMas_eq]

theorem mas0_tlbWrite : m.tlbWrite.mas0 = m.mas0 := (congrArg Mmu.mas0 (tlbWrite_frame m) :)

theorem mas7_tlbWrite : m.tlbWrite.mas7 = m.mas7 := (congrArg Mmu.mas7 (tlbWrite_frame m) :)

section ReadBack

/-! A state whose selected entry is the one that MAS registers m describe, at the place that they select. -/

variable {t : State} {m : Mmu} (he : t.mmu.entry m.selected = m.entryFromMas) (hl : t.mmu.selected = m.selected)

include he hl

theorem mas2_readBack : t.tlbRead.mas2 = m.mas2 &&& 0xFFFFF07F := by
  show (((t.mmu.entry t.mmu.selected).epnRead t.mmu.selected).setWidth 32 <<< 12) |||
    ((t.mmu.entry t.mmu.selected).x.setWidth 32 <<< 5) ||| (t.mmu.entry t.mmu.selected).wimge.setWidth 32 = _
  rw [hl, he]
  exact mas2_written m

theorem mas3_readBack : t.tlbRead.mas3 = m.mas3 &&& 0xFFFFF3FF := by
  show (((t.mmu.entry t.mmu.selected).rpn.setWidth 20).setWidth 32 <<< 12) |||
    ((t.mmu.entry t.mmu.selected).u.setWidth 32 <<< 6) ||| (t.mmu.entry t.mmu.selected).perm.setWidth 32 = _
  rw [hl, he]
  exact mas3_written m

theorem mas7_readBack : t.tlbRead.mas7 = if bit t.ctl.hid0 56 then m.mas7 &&& 0xF else t.mmu.mas7 := by
  show (if bit t.ctl.hid0 56 then ((t.mmu.entry t.mmu.selected).rpn.extractLsb' 20 4).setWidth 32 else t.mmu.mas7) = _
  rw [hl, he, rpnHigh_written]

theorem mas8_readBack : t.tlbRead.mas8 = m.mas8 &&& 0xC000003F := by
  show maskIf (t.mmu.entry t.mmu.selected).tgs 0x80000000 ||| maskIf (t.mmu.entry t.mmu.selected).vf 0x40000000 |||
    (t.mmu.entry t.mmu.selected).tlpid.setWidth 32 = _
  rw [hl, he]
  exact mas8_written m

theorem mas1_readBack_tlb1 (h : bit m.mas0 35 = true) :
    t.tlbRead.mas1 = (m.mas1 &&& 0xC0FF1000) |||
      (if 1 ≤ m.mas1.toNat / 256 % 16 ∧ m.mas1.toNat / 256 % 16 ≤ 11 then m.mas1 &&& 0xF00 else 0x100) := by
  have hr : t.tlbRead.mas1 = (t.masFromEntry t.mmu.selected).mas1 := rfl
  rw [hr, hl]
  rw [selected_tlb1 m h] at he ⊢
  have hz : (m.mas1.extractLsb' 8 4).toNat = m.mas1.toNat / 256 % 16 := by rw [extract_eq_ofNat, BitVec.toNat_ofNat]; rfl
  show mas1Of (t.mmu.entry (.tlb1 _)).v (t.mmu.entry (.tlb1 _)).iprot (t.mmu.entry (.tlb1 _)).tid
    (t.mmu.entry (.tlb1 _)).ts (t.mmu.entry (.tlb1 _)).tsize = _
  rw [he]
  refine (mas1Of_written m.mas1 (bit m.mas0 35) _).trans ?_
  rw [h, if_pos rfl]
  congr 1
  show (if (bit m.mas0 35 && _ && _) = true then _ else (1 : BitVec 4)).setWidth 32 <<< 8 = _
  rw [h, hz]
  by_cases hs : 1 ≤ m.mas1.toNat / 256 % 16 ∧ m.mas1.toNat / 256 % 16 ≤ 11
  · rw [if_pos (by simpa using hs), if_pos hs, field_self]
    rfl
  · rw [if_neg (by simpa using hs), if_neg hs]
    rfl

theorem mas1_readBack_tlb0 (h : ¬bit m.mas0 35 = true) : t.tlbRead.mas1 = (m.mas1 &&& 0x80FF1000) ||| 0x100 := by
  have hr : t.tlbRead.mas1 = (t.masFromEntry t.mmu.selected).mas1 := rfl
  rw [hr, hl]
  rw [selected_tlb0 m h] at he ⊢
  show mas1Of (t.mmu.entry (.tlb0 _ _)).v false (t.mmu.entry (.tlb0 _ _)).tid (t.mmu.entry (.tlb0 _ _)).ts 1 = _
  rw [he]
  exact mas1Of_written m.mas1 false 1

omit he in
theorem mas0_readBack_tlb1 (h : bit m.mas0 35 = true) : t.tlbRead.mas0 = t.mmu.mas0 &&& 0xFFFFFFFC := by
  show (t.mmu.mas0 &&& 0xFFFFFFFC) ||| (t.mmu.nvOf t.mmu.selected).setWidth 32 = _
  rw [hl, selected_tlb1 m h]
  exact BitVec.or_zero

omit he in
theorem mas0_readBack_tlb0 (h : ¬bit m.mas0 35 = true) (hn : t.mmu.nextVictim (tlbSet m.mas2) = t.mmu.mas0.setWidth 2) :
    t.tlbRead.mas0 = t.mmu.mas0 := by
  show (t.mmu.mas0 &&& 0xFFFFFFFC) ||| (t.mmu.nvOf t.mmu.selected).setWidth 32 = _
  rw [hl, selected_tlb0 m h]
  show (t.mmu.mas0 &&& 0xFFFFFFFC) ||| (t.mmu.nextVictim (tlbSet m.mas2)).setWidth 32 = _
  rw [hn, setWidth_self, ← BitVec.and_or_distrib_left]
  exact BitVec.and_allOnes

end ReadBack

theorem nextVictim_tlbWrite (h : ¬bit m.mas0 35 = true) :
    m.tlbWrite.nextVictim (tlbSet m.mas2) = m.tlbWrite.mas0.setWidth 2 := by
  rw [mas0_tlbWrite]
  unfold Mmu.tlbWrite
  rw [selected_tlb0 m h]
  exact Vector.getElem_set_self _

/-- Settles O44: the arrays after tlbwe hold the described entry, tlbre shows the selected one, and a field put back at its
place is that part of the MAS register it came from. -/
theorem tlbReadsBackWrite : Obligations.TlbReadsBackWrite := by
  intro s hs m l one size set writes
  have hw : exec .tlbwe s = ({ s with mmu := m.tlbWrite } : State).finish := hypervisorOnly_ok hs _
  have hr : exec .tlbre s = ({ s with mmu := s.tlbRead } : State).finish := hypervisorOnly_ok hs _
  have hl : s.mmu.selected = l := selected_eq m
  have he : s.tlbWritten.mmu.entry m.selected = m.entryFromMas := entry_written m
  have hl' : s.tlbWritten.mmu.selected = m.selected := selected_tlbWrite m
  have h0 : s.tlbWritten.mmu.mas0 = m.mas0 := mas0_tlbWrite m
  have h7 : s.tlbWritten.mmu.mas7 = m.mas7 := mas7_tlbWrite m
  refine ⟨?_, ?_, s.tlbWritten, _, hw, hypervisorOnly_ok (s := s.tlbWritten) hs _, rfl, fun h => ⟨?_, ?_⟩,
    fun h => ⟨?_, ?_⟩, mas2_readBack he hl', mas3_readBack he hl', ?_, mas8_readBack he hl'⟩
  · refine does_finish hw rfl (keeps_mmu s _ rfl) (storageKept_of_mem [] rfl) ⟨?_, fun k hk => ?_, nv_tlbWrite m, tlbWrite_frame m⟩
    · exact (entry_tlbWrite m l).trans (if_pos rfl)
    · exact (entry_tlbWrite m k).trans (if_neg hk)
  · refine does_finish hr rfl (keeps_mmu s _ rfl) (storageKept_of_mem [] rfl) ⟨?_, ?_, rfl⟩
    · exact hl ▸ masFromEntry_shows s s.mmu.selected
    · exact hl ▸ mas0_tlbRead s
  · exact h0 ▸ mas0_readBack_tlb1 hl' h
  · exact mas1_readBack_tlb1 he hl' h
  · exact h0 ▸ mas0_readBack_tlb0 hl' h (nextVictim_tlbWrite m h)
  · exact mas1_readBack_tlb0 he hl' h
  · exact (mas7_readBack he hl').trans (by rw [h7]; rfl)

end Sys2Proof.Machine


/-! tlbsx (21 R350). -/

namespace Sys2Proof.Machine

variable {s : State}

theorem searchCtx_eq (s : State) : s.searchCtx =
    { gs := bit s.mmu.mas5 32, lpid := BitVec.ofNat 6 s.mmu.mas5.toNat, as := bit s.mmu.mas6 63,
      pid := BitVec.ofNat 8 (s.mmu.mas6.toNat / 2 ^ 16), pr := false } := by
  unfold State.searchCtx
  rw [setWidth_eq_ofNat, extract_eq_ofNat]

/-- The proposed victim, as a number. -/
theorem victimMas0_toNat (s : State) (ea : Word) :
    let nv := (s.mmu.nv[ea.toNat / 4096 % 128]'(Nat.mod_lt _ (by decide))).toNat
    (s.victimMas0 ea).toNat = if bit s.mmu.mas4 35 then 2 ^ 28 else nv * 2 ^ 16 + (nv + 1) % 4 := by
  intro nv
  have hn : (s.mmu.nextVictim (tlbSet ea)).toNat = nv := by
    unfold Mmu.nextVictim
    simp only [tlbSet_toNat]
    rfl
  have hlt := (s.mmu.nextVictim (tlbSet ea)).isLt
  unfold State.victimMas0
  split
  · rfl
  · rw [mas0Of_toNat, BitVec.toNat_setWidth, BitVec.toNat_add, hn, show (1 : BitVec 2).toNat = 1 from rfl,
      Bool.toNat_false]
    omega

/-- MAS1 after a search that finds nothing. -/
theorem mas1_notFound (m : Mmu) :
    mas1Of false false (m.mas6.extractLsb' 16 8) (bit m.mas6 63) (m.mas4.extractLsb' 8 4) =
      (m.mas6 &&& 0x00FF0000) ||| (if bit m.mas6 63 then 0x1000 else 0) ||| (m.mas4 &&& 0xF00) := by
  have hz (w : Word) : maskIf false 0x80000000 ||| maskIf false 0x40000000 ||| w = w := BitVec.zero_or
  unfold mas1Of
  rw [hz, field_self, field_self]
  rfl

/-- MAS0 after a search that finds a place. -/
theorem mas0At_toNat (m : Mmu) (l : TlbLoc) :
    (m.mas0At l).toNat = (match l with
      | .tlb0 _ way => way.toNat * 2 ^ 16
      | .tlb1 n => 2 ^ 28 + n.toNat * 2 ^ 16) + (victimOf m l).toNat := by
  cases l with
  | tlb0 set way =>
    have hw := way.isLt
    refine (mas0Of_toNat _ _ _).trans ?_
    rw [BitVec.toNat_setWidth, Nat.mod_eq_of_lt (by omega), Bool.toNat_false, Nat.zero_mul, Nat.zero_add]
    rfl
  | tlb1 n => exact (mas0Of_toNat true n 0).trans rfl

/-- How a search ends, by the places that it finds. -/
def State.searchEnds (s : State) (ea : Word) : List TlbLoc → Out
  | [] => ({ s with mmu := s.missTemplate ea false s.searchCtx.pid s.searchCtx.as } : State).finish
  | [l] => ({ s with mmu := s.tlbFound l } : State).finish
  | _ :: _ :: _ => s.multipleHit 0x00004000 ea

theorem exec_tlbsx (hs : InHypervisor s) (rB : Gpr) :
    exec (.tlbsx 0 rB) s = s.searchEnds (s.eaX 0 rB) (s.mmu.matches s.searchCtx (s.eaX 0 rB)) :=
  (hypervisorOnly_ok hs _).trans (if_neg fun hn => hn rfl)

/-- Settles O45: the cases are those of the search's list of places. -/
theorem tlbSearches : Obligations.TlbSearches := by
  intro s rA rB hs ea m c nv
  have hx (h : rA = 0) : exec (.tlbsx rA rB) s = s.searchEnds ea (m.matches c ea) := by
    have he : s.eaX 0 rB = ea := BitVec.zero_add _
    have hc : s.searchCtx = c := searchCtx_eq s
    exact h ▸ he ▸ hc ▸ exec_tlbsx hs rB
  refine ⟨fun h => ?_, fun h hn => ?_, fun h l hl h1 => ?_, fun h l l' hne hl hl' => ?_⟩
  · exact enters_illegal ((hypervisorOnly_ok hs _).trans (if_pos h))
  · have hx := hx h
    rw [matches_eq_nil.2 hn] at hx
    exact does_finish hx rfl (keeps_mmu s _ rfl) (storageKept_of_mem [] rfl)
      ⟨victimMas0_toNat s ea, mas1_notFound m, rfl, rfl, rfl, rfl⟩
  · have hx := hx h
    rw [matches_eq_singleton hl h1] at hx
    exact does_finish hx rfl (keeps_mmu s _ rfl) (storageKept_of_mem [] rfl)
      ⟨masFromEntry_shows s l, mas0At_toNat m l, rfl⟩
  · have hx := hx h
    obtain ⟨a, b, r, hm⟩ := matches_of_two hne hl hl'
    rw [hm] at hx
    split
    · next hd => exact ⟨_, _, hx.trans (multipleHit_eq hd)⟩
    · next hd => exact hx.trans (if_neg hd)

end Sys2Proof.Machine


/-! Cache blocks that are zeroed or leave the caches (44 R1071 to R1080, R1092 to R1098). -/

namespace Sys2Proof.Machine

variable {s : State} {i : Instr} {a : Access} {ea : Word} {p : Placed} {n : Nat}

/-! ### Blocks -/

/-- A real address cut off below a block. -/
theorem block_base (x : BitVec 36) (k : Nat) :
    (x &&& ~~~(BitVec.ofNat 36 (2 ^ k - 1))).toNat = x.toNat / 2 ^ k * 2 ^ k := by
  have h : x &&& ~~~(BitVec.ofNat 36 (2 ^ k - 1)) = (x >>> k) <<< k := by
    apply BitVec.eq_of_getLsbD_eq
    intro i hi
    rw [BitVec.getLsbD_and, BitVec.getLsbD_not, BitVec.getLsbD_ofNat, Nat.testBit_two_pow_sub_one, BitVec.getLsbD_shiftLeft,
      BitVec.getLsbD_ushiftRight]
    by_cases hik : i < k
    · simp [hi, hik]
    · simp [hi, hik, show k + (i - k) = i by omega]
  have hx := x.isLt
  have hm : x.toNat / 2 ^ k * 2 ^ k ≤ x.toNat := Nat.div_mul_le_self _ _
  rw [h, BitVec.toNat_shiftLeft, BitVec.toNat_ushiftRight, Nat.shiftRight_eq_div_pow, Nat.shiftLeft_eq,
    Nat.mod_eq_of_lt (by omega)]

/-- The block of the claims is the block of the model, for each size that is a power of two. -/
theorem blockOf_eq (p : Placed) (k : Nat) : blockOf p.ra (2 ^ k) = blockBytes p (2 ^ k) := by
  unfold blockOf blockBytes realRange
  refine List.map_congr_left fun j _ => ?_
  apply BitVec.eq_of_toNat_eq
  rw [BitVec.toNat_add, block_base, BitVec.toNat_ofNat, BitVec.toNat_ofNat, Nat.add_mod_mod]
  rfl

/-- The sizes of the blocks. -/
def BlockSize (n : Nat) : Prop := n = 32 ∨ n = 64

theorem bytes_block (p : Placed) (hn : BlockSize n) : (p.block n).bytes = blockBytes p n := by
  rcases hn with rfl | rfl
  · exact blockOf_eq p 5
  · exact blockBytes_eq p

theorem nodup_block (p : Placed) (hn : BlockSize n) : (p.block n).bytes.Nodup := by
  refine nodup_realRange _ _ ?_
  rcases hn with rfl | rfl <;> norm_num

theorem blockSize_zeroSize (s : State) : BlockSize s.zeroSize := by
  unfold State.zeroSize
  split
  · exact .inl rfl
  · exact .inr rfl

/-- Bytes that hold the number 0 are 0. -/
theorem readByte_of_holds_zero {t : State} (h : Holds t p 0) {x : BitVec 36} (hx : x ∈ p.bytes) : t.readByte x = 0 := by
  obtain ⟨i, hi, rfl⟩ := List.mem_iff_getElem.1 hx
  apply BitVec.eq_of_toNat_eq
  rw [h.2 i hi, Nat.zero_div]
  rfl

/-! ### Zeroing -/

/-- A block that is stored as zeros. -/
theorem does_zeroBlock (hw : s.mem.wf) (hn : BlockSize n) (hq : s.debugAction (s.dacEvents true ea) s.de = .ignore)
    (hr : s.regionOf (blockBytes p n) = none) (hx : exec i s = s.zeroBlock ea n p) :
    Does i s {} (blockBytes p n) fun t => ∀ x ∈ blockBytes p n, t.readByte x = 0 := by
  have hb := bytes_block p hn
  rw [← hb] at hr ⊢
  unfold State.zeroBlock at hx
  rw [blockEvents_quiet hq, storePlaced_storage (s := s.setLog (s.noteDac true ea).log) hr] at hx
  refine does_finish hx rfl ?_ (storageKept_writeBytes hw rfl) fun x hx => ?_
  · exact ((keeps_setLog _ s _).trans (keeps_writeBytes _ _ _)).trans (keeps_setLog _ _ _)
  · refine readByte_of_holds_zero ?_ hx
    exact Nat.zero_mod _ ▸ holds_writeBytes (v := 0) hw (nodup_block p hn) rfl

/-- dcbz and its kin. -/
theorem zeroes_of_zero (hw : s.mem.wf) (hn : BlockSize n) (hd : a.dacWrite = true) (hx : exec i s = s.zero a ea n) :
    ZeroesBlock i s a ea n ∧ RefusesWI i s a ea := by
  unfold State.zero at hx
  refine ⟨fun p hp h1 h2 hr => ?_, fun p hp h => ?_⟩
  · rw [located_ok hp.placed, if_neg (by rw [h1, h2]; decide)] at hx
    exact does_zeroBlock hw hn (hd ▸ hp.quiet) hr hx
  · rw [located_ok hp.placed, if_pos (by rwa [Bool.or_eq_true])] at hx
    exact enters_of_takeHere hx rfl

/-- dcba while the data cache is enabled. -/
theorem zeroes_of_allocate (hw : s.mem.wf) (hn : BlockSize n) (he : bit s.cache.l1csr0 63 = true)
    (hx : exec i s = s.allocate ea n) : ZeroesBlock i s .store ea n := by
  intro p hp h1 h2 hr
  unfold State.allocate State.locatedOrNop at hx
  simp only [hp.placed] at hx
  rw [if_neg (by rw [h1, h2, he]; decide)] at hx
  exact does_zeroBlock hw hn hp.quiet hr hx

/-- An instruction that counts stores and does nothing else. -/
theorem does_nothing {m : Nat} (hx : exec i s = (s.noteStores m).finish) : Does i s {} [] fun _ => True :=
  does_finish hx rfl (keeps_setLog _ s _) (storageKept_of_mem [] rfl) trivial

/-- dcba that may not zero its block. -/
theorem nothing_of_allocate (hm : ∀ x, s.place .store ea 1 ≠ .error (.xlate .multiple, x))
    (hp : ∀ p, s.place .store ea 1 = .ok p → p.w = true ∨ p.i = true ∨ bit s.cache.l1csr0 63 = false)
    (hx : exec i s = s.allocate ea n) : Does i s {} [] fun _ => True := by
  unfold State.allocate State.locatedOrNop at hx
  split at hx
  · next h => exact absurd h (hm _)
  · exact does_nothing hx
  · next p h => exact does_nothing (hx.trans (if_pos (by simpa [or_assoc] using hp p h)))

/-- Settles O47: a block that is reached is stored as the number 0, whose bytes are 0. -/
theorem blocksZeroed : Obligations.BlocksZeroed := by
  intro s rA rB hw ea n zeroes
  have hz : BlockSize n := blockSize_zeroSize s
  have h64 : BlockSize 64 := .inr rfl
  refine ⟨zeroes_of_zero hw hz rfl rfl, zeroes_of_zero hw h64 rfl rfl, fun hs => ⟨?_, ?_⟩, fun he => ⟨?_, ?_⟩,
    fun hm hp => ⟨?_, ?_⟩⟩
  · exact zeroes_of_zero hw hz rfl (supervisorOnly_ok hs _)
  · exact zeroes_of_zero hw h64 rfl (supervisorOnly_ok hs _)
  · exact zeroes_of_allocate hw hz he rfl
  · exact zeroes_of_allocate hw h64 he rfl
  · exact nothing_of_allocate hm hp rfl
  · exact nothing_of_allocate hm hp rfl

/-! ### Leaving the caches -/

/-- An instruction that reaches its byte and makes its block leave caches. -/
theorem leavesCaches_of {w : Bool} {m : Nat} {f : BitVec 30 → Cache → Cache} (hd : a.dacWrite = w)
    (hx : exec i s = s.located a ea fun p =>
      s.blockEvents w ea fun t => ((t.withCache (f (granuleOf p.ra))).noteStores m).finish) : LeavesCaches i s a ea f := by
  intro p hp
  subst hd
  rw [located_ok hp.placed, blockEvents_quiet hp.quiet, granuleOf_ra] at hx
  exact does_finish hx rfl (((keeps_setLog _ s _).trans (keeps_cache _ _ rfl)).trans (keeps_setLog _ _ _))
    (storageKept_of_mem [] rfl) rfl

/-- Settles O48: every one is the shared operation, with the locks that it drops. -/
theorem blocksFlushed : Obligations.BlocksFlushed := by
  intro s rA rB ea data instr
  refine ⟨leavesCaches_of rfl rfl, leavesCaches_of rfl rfl, leavesCaches_of rfl rfl, fun hs => ⟨?_, ?_, ?_, ?_⟩⟩
  · exact leavesCaches_of (m := 0) rfl (supervisorOnly_ok hs _)
  · exact leavesCaches_of rfl (supervisorOnly_ok hs _)
  · exact leavesCaches_of rfl (supervisorOnly_ok hs _)
  · exact leavesCaches_of rfl (supervisorOnly_ok hs _)

end Sys2Proof.Machine


/-! Touches (44 R1076, R1077, R1081). -/

namespace Sys2Proof.Machine

variable {s t u : State} {i : Instr} {ea : Word} {b : BitVec 30}

/-! ### States that differ in the caches -/

/-- From s to t the caches changed, and the model's own bookkeeping. -/
def CacheOnly (s t : State) : Prop := t = { s with cache := t.cache, log := t.log, draws := t.draws }

theorem CacheOnly.trans (h : CacheOnly s t) (g : CacheOnly t u) : CacheOnly s u :=
  Eq.trans g (congrArg (fun x : State => { x with cache := u.cache, log := u.log, draws := u.draws }) h)

theorem cacheOnly_setLog (s : State) (l : StepLog) : CacheOnly s (s.setLog l) := rfl

theorem cacheOnly_withCache (s : State) (f : Cache → Cache) : CacheOnly s (s.withCache f) := rfl

theorem cacheOnly_noteCt (s : State) (l2 : Bool) (b : BitVec 30) : CacheOnly s (s.noteCt l2 b) := by
  unfold State.noteCt
  simp only
  split <;> rfl

/-- An instruction that completes after changes of the caches. -/
theorem changesCaches_of {p : State → Prop} (hx : exec i s = t.finish) (h : CacheOnly s t) (hp : p t.advance) :
    ChangesCaches i s p := by
  have hk : Keeps { cache := true } s t := by
    rw [h]
    exact ((keeps_cache s t.cache rfl).trans (keeps_setLog _ _ t.log)).trans (keeps_draws _ _ t.draws)
  refine does_finish hx ?_ hk (storageKept_of_mem [] ?_) hp
  · rw [h]
  · rw [h]

theorem CachesAre.refl (s : State) (b : BitVec 30) (other : Bool) (h : t.cache = s.cache) :
    CachesAre s t b other s.cache := by
  refine ⟨?_, fun x _ => ?_, fun _ => ?_⟩ <;> rw [h]

/-! ### Touches -/

/-- What a touch is claimed to leave. -/
def Touched (s : State) (ctx : PidContext) (ct : BitVec 4) (ea : Word) (t : State) : Prop :=
  ((ct ≠ 2 ∨ ∀ p, s.place { Access.load with ctx := ctx } ea 1 ≠ .ok p) → t.cache = s.cache) ∧
    ∀ p, s.place { Access.load with ctx := ctx } ea 1 = .ok p → CachesAre s t (blockNumber p) false s.cache

/-- A touch that does nothing. -/
theorem touched_nothing (ctx : PidContext) (ct : BitVec 4) (hx : exec i s = s.finish) :
    ChangesCaches i s (Touched s ctx ct ea) :=
  changesCaches_of hx rfl ⟨fun _ => rfl, fun _ _ => CachesAre.refl s _ _ rfl⟩

/-- A touch that is performed names its block with CT = 2 and is counted with another CT. -/
theorem touched_noteTouch {ctx : PidContext} {ct : BitVec 4} {p : Placed} {l : StepLog} {data : Bool}
    (hp : s.place { Access.load with ctx := ctx } ea 1 = .ok p) (hc : s.touchable data ct = true)
    (hx : exec i s = ((s.setLog l).noteTouch ct (blockNumber p)).finish) : ChangesCaches i s (Touched s ctx ct ea) := by
  have same {t : State} (h : t.cache = s.cache) : Touched s ctx ct ea t :=
    ⟨fun _ => h, fun _ _ => CachesAre.refl s _ _ h⟩
  unfold State.noteTouch at hx
  unfold State.touchable at hc
  by_cases h0 : ct = 0
  · rw [if_pos h0] at hx
    exact changesCaches_of hx rfl (same rfl)
  by_cases h1 : ct = 1
  · rw [if_neg h0, if_pos h1] at hx
    exact changesCaches_of hx rfl (same rfl)
  rw [if_neg h0, if_neg h1] at hx
  rw [if_neg h0] at hc
  have h2 : ct = 2 := by
    by_contra h2
    rw [if_neg h2] at hc
    exact h1 (eq_of_beq hc)
  refine changesCaches_of hx ((cacheOnly_setLog s l).trans (cacheOnly_noteCt _ _ _)) ⟨fun h => ?_, fun q hq => ?_⟩
  · exact h.elim (fun h => absurd h2 h) fun h => absurd hp (h p)
  · obtain rfl : p = q := Except.ok.inj (hp.symm.trans hq)
    exact noteCt_cachesAre s (s.setLog l) true _ rfl

theorem touched_of {ctx : PidContext} {ct : BitVec 4} {data : Bool} (hx : exec i s = s.touch ctx data ct ea)
    (hq : s.debugAction (s.dacEvents false ea) s.de = .ignore)
    (hm : ∀ x, s.place { Access.load with ctx := ctx } ea 1 ≠ .error (.xlate .multiple, x)) :
    ChangesCaches i s (Touched s ctx ct ea) := by
  unfold State.touch at hx
  split at hx
  · exact touched_nothing ctx ct hx
  unfold State.locatedOrNop at hx
  split at hx
  · next h => exact absurd h (hm _)
  · exact touched_nothing ctx ct hx
  · next p hp =>
    dsimp only at hx
    split at hx
    · exact touched_nothing ctx ct hx
    · next hn =>
      rw [blockEvents_quiet hq, granuleOf_ra] at hx
      simp only [Bool.or_eq_true, not_or, Bool.not_eq_true', Bool.not_eq_false] at hn
      exact touched_noteTouch (data := data) hp hn.2 hx

/-- Settles O50: a touch completes at once, or names its block. -/
theorem touchesOnlyComplete : Obligations.TouchesOnlyComplete := by
  intro s rA rB ct ea touches
  refine ⟨touched_of rfl, touched_of rfl, touched_of rfl, fun hs => ⟨?_, ?_⟩⟩
  · exact touched_of (supervisorOnly_ok hs _)
  · exact touched_of (supervisorOnly_ok hs _)

end Sys2Proof.Machine


/-! The cache locking instructions (44 R1084 to R1089). -/

namespace Sys2Proof.Machine

variable {s t u : State} {i : Instr} {ea : Word} {p : Placed} {data w : Bool} {ct : BitVec 4}

/-! ### Locked lines -/

theorem addLock_eq (b : BitVec 30) (l : List (BitVec 30)) : addLock b l = withLock b l := by
  unfold addLock withLock
  simp only [List.contains_iff_mem]

theorem setFull_64 (b : BitVec 30) (l : List (BitVec 30)) : setFull 6 b l = !decide (roomFor 64 b l) := setFull_iff 6 b l

theorem setFull_256 (b : BitVec 30) (l : List (BitVec 30)) : setFull 8 b l = !decide (roomFor 256 b l) := setFull_iff 8 b l

theorem setFull_of_room {k : Nat} {b : BitVec 30} {l : List (BitVec 30)} (h : roomFor (2 ^ k) b l) :
    ¬setFull k b l = true := by
  rw [setFull_iff, decide_eq_true h]
  decide

theorem setFull_of_not_room {k : Nat} {b : BitVec 30} {l : List (BitVec 30)} (h : ¬roomFor (2 ^ k) b l) :
    setFull k b l = true := by
  rw [setFull_iff, decide_eq_false h]
  rfl

theorem mem_lockedSet {k : Nat} {b x : BitVec 30} {l : List (BitVec 30)} :
    x ∈ lockedSet k b l ↔ x ∈ l ∧ x.toNat % 2 ^ k = b.toNat % 2 ^ k := by
  rw [lockedSet_eq, List.mem_filter, decide_eq_true_eq]

/-! ### Why a line is not locked (20 R323 a) -/

/-- The block of an access is absent. -/
def absentBlock (s : State) (p : Placed) : Bool := decide (s.regionOf (blockBytes p 64) = some .absent)

theorem absentBlock_eq (s : State) (p : Placed) : (s.regionOf (blockOf p.ra 64) == some .absent) = absentBlock s p := by
  unfold absentBlock
  rw [blockBytes_eq, Bool.eq_iff_iff, beq_iff_eq, decide_eq_true_eq]

theorem cannotLock_l1 (s : State) (data : Bool) (p : Placed) :
    s.cannotLock data 0 p = ((!(if data then bit s.cache.l1csr0 63 else bit s.cache.l1csr1 63) || p.i) ||
      (absentBlock s p &&
        (decide (roomFor 64 (blockNumber p) (if data then s.cache.lockD else s.cache.lockI)) || false))) := by
  unfold State.cannotLock State.loadsLine Cache.enabled
  rw [absentBlock_eq, granuleOf_ra, if_neg (show ¬(0 : BitVec 4) = 2 by decide),
    if_neg (show ¬(0 : BitVec 4) = 2 by decide), setFull_64, Bool.not_not,
    show ((0 : BitVec 4) == 2) = false from rfl, Bool.false_and, Bool.or_false, Bool.or_false, Bool.and_comm]

theorem cannotLock_l2 (s : State) (data : Bool) (p : Placed) :
    s.cannotLock data 2 p =
      ((!bit s.cache.l2csr0 32 || p.i || bit s.cache.l2csr0 (if data then 43 else 47)) ||
        (absentBlock s p && (decide (roomFor 256 (blockNumber p) s.cache.lockL2) || bit s.cache.l2csr0 56))) := by
  unfold State.cannotLock State.loadsLine Cache.enabled
  rw [absentBlock_eq, granuleOf_ra, if_pos rfl, if_pos rfl, setFull_256, Bool.not_not,
    show ((2 : BitVec 4) == 2) = true from rfl, Bool.true_and, Bool.and_comm (absentBlock s p)]

/-! ### Setting a lock -/

theorem cacheOnly_lockL2 (s : State) (b : BitVec 30) : CacheOnly s (s.lockL2 b) := by
  unfold State.lockL2
  simp only
  split
  · split <;> rfl
  · rfl

theorem cacheOnly_setLock (s : State) (data : Bool) (ct : BitVec 4) (p : Placed) : CacheOnly s (s.setLock data ct p) := by
  unfold State.setLock
  simp only
  split
  · exact (cacheOnly_lockL2 _ _).trans (cacheOnly_noteCt _ _ _)
  · split
    · exact (cacheOnly_withCache _ _).trans (cacheOnly_noteCt _ _ _)
    · exact cacheOnly_withCache _ _

theorem cacheOnly_clearLock (s : State) (data : Bool) (ct : BitVec 4) (b : BitVec 30) : CacheOnly s (s.clearLock data ct b) := by
  unfold State.clearLock
  split
  · rfl
  · split
    · exact (cacheOnly_withCache _ _).trans (cacheOnly_noteCt _ _ _)
    · split
      · exact (cacheOnly_withCache _ _).trans (cacheOnly_noteCt _ _ _)
      · exact cacheOnly_withCache _ _

/-- The L1 data cache after a lock instruction with CT = 0. -/
theorem setLock_data (s : State) (p : Placed) :
    CachesAre s (s.setLock true 0 p) (blockNumber p) true
      (if roomFor 64 (blockNumber p) s.cache.lockD then { s.cache with lockD := withLock (blockNumber p) s.cache.lockD }
        else { s.cache with l1csr0 := s.cache.l1csr0 ||| 0x200 }) := by
  have hc : s.cache.lockL1 true (blockNumber p) =
      if roomFor 64 (blockNumber p) s.cache.lockD then { s.cache with lockD := withLock (blockNumber p) s.cache.lockD }
        else { s.cache with l1csr0 := s.cache.l1csr0 ||| 0x200 } := by
    unfold Cache.lockL1
    rw [if_pos rfl, addLock_eq]
    by_cases h : roomFor 64 (blockNumber p) s.cache.lockD
    · rw [if_pos h, if_neg (setFull_of_room (k := 6) h)]
    · rw [if_neg h, if_pos (setFull_of_not_room (k := 6) h)]
  have hr : (s.withCache (·.lockL1 true (blockNumber p))).cache.recent = s.cache.recent := by
    show (s.cache.lockL1 true (blockNumber p)).recent = _
    rw [hc]
    split <;> rfl
  rw [← hc]
  show CachesAre s ((s.withCache (·.lockL1 true (granuleOf p.ra))).noteCt false (granuleOf p.ra)) _ _ _
  rw [granuleOf_ra]
  exact noteCt_cachesAre s _ false _ hr

/-- The L1 instruction cache after a lock instruction with CT = 0. -/
theorem setLock_instr (s : State) (p : Placed) :
    (s.setLock false 0 p).cache =
      if roomFor 64 (blockNumber p) s.cache.lockI then { s.cache with lockI := withLock (blockNumber p) s.cache.lockI }
        else { s.cache with l1csr1 := s.cache.l1csr1 ||| 0x200 } := by
  show s.cache.lockL1 false (granuleOf p.ra) = _
  unfold Cache.lockL1
  rw [granuleOf_ra, if_neg (by decide), addLock_eq]
  by_cases h : roomFor 64 (blockNumber p) s.cache.lockI
  · rw [if_pos h, if_neg (setFull_of_room (k := 6) h)]
  · rw [if_neg h, if_pos (setFull_of_not_room (k := 6) h)]

/-- A lock instruction with CT = 2 locks as lockL2 does. -/
theorem setLock_l2 (s : State) (data : Bool) (p : Placed) (hr : (s.lockL2 (blockNumber p)).cache.recent = s.cache.recent) :
    CachesAre s (s.setLock data 2 p) (blockNumber p) false (s.lockL2 (blockNumber p)).cache := by
  show CachesAre s ((s.lockL2 (granuleOf p.ra)).noteCt true (granuleOf p.ra)) _ _ _
  rw [granuleOf_ra]
  exact noteCt_cachesAre s _ true _ hr

theorem lockL2_room {b : BitVec 30} (h : roomFor 256 b s.cache.lockL2) :
    (s.lockL2 b).cache = { s.cache with lockL2 := withLock b s.cache.lockL2 } := by
  unfold State.lockL2
  rw [if_neg (setFull_of_room (k := 8) h)]
  show { s.cache with lockL2 := addLock b s.cache.lockL2 } = _
  rw [addLock_eq]

theorem lockL2_full {b : BitVec 30} (h : ¬roomFor 256 b s.cache.lockL2) (hg : bit s.cache.l2csr0 56 = false) :
    (s.lockL2 b).cache = { s.cache with l2csr0 := s.cache.l2csr0 ||| 0x20 } := by
  unfold State.lockL2
  rw [if_pos (setFull_of_not_room (k := 8) h), if_neg (by rw [hg]; decide)]
  rfl

/-- With L2CSR0[L2LOA] a locked line of the full set gives way. -/
theorem lockL2_giveWay {b : BitVec 30} (h : ¬roomFor 256 b s.cache.lockL2) (hg : bit s.cache.l2csr0 56 = true) :
    ∃ y ∈ s.cache.lockL2, y.toNat % 256 = b.toNat % 256 ∧ (s.lockL2 b).cache =
      { s.cache with l2csr0 := s.cache.l2csr0 ||| 0x20, lockL2 := withLock b (withoutLock y s.cache.lockL2) } := by
  have hlen : 8 ≤ (lockedSet 8 b s.cache.lockL2).length := by
    rw [lockedSet_eq]
    unfold roomFor at h
    push Not at h
    exact h.2
  have hlt : s.drawWord.1.toNat % (lockedSet 8 b s.cache.lockL2).length < (lockedSet 8 b s.cache.lockL2).length :=
    Nat.mod_lt _ (by omega)
  have hy := mem_lockedSet.1 (List.getElem_mem hlt)
  refine ⟨_, hy.1, hy.2, ?_⟩
  unfold State.lockL2
  rw [if_pos (setFull_of_not_room (k := 8) h), if_pos hg]
  show { s.cache with
    l2csr0 := s.cache.l2csr0 ||| 0x20
    lockL2 := addLock b (dropLock ((lockedSet 8 b s.cache.lockL2).getD
      (s.drawWord.1.toNat % (lockedSet 8 b s.cache.lockL2).length) b) s.cache.lockL2) } = _
  rw [addLock_eq, List.getD_eq_getElem _ _ hlt]
  rfl

/-! ### The instructions -/

/-- A lock-set instruction, once it has reached its byte. -/
theorem exec_lockSet (ha : mayLock s) (hp : ReachesBlock s (blockRead w .running) ea p)
    (hc : ct = 0 ∨ ct = 2) (hx : exec i s = s.lockSet data w ct ea) :
    ∃ l, exec i s = if s.cannotLock data ct p then ((s.setLog l).withCache (·.unable data)).finish
      else ((s.setLog l).setLock data ct p).finish := by
  obtain ⟨l, hl⟩ := lockAccess_ok (data := data) (ct := ct) ha hp fun p t =>
    if t.cannotLock data ct p then (t.withCache (·.unable data)).finish else (t.setLock data ct p).finish
  rw [if_pos hc] at hl
  exact ⟨l, hx.trans hl⟩

/-- A lock-clear instruction, once it has reached its byte. -/
theorem exec_lockClear (ha : mayLock s) (hp : ReachesBlock s (blockRead w .running) ea p)
    (hc : ct = 0 ∨ ct = 2) (hx : exec i s = s.lockClear data w ct ea) :
    ∃ l, exec i s = ((s.setLog l).clearLock data ct (blockNumber p)).finish := by
  obtain ⟨l, hl⟩ := lockAccess_ok (data := data) (ct := ct) ha hp fun p t => (t.clearLock data ct (granuleOf p.ra)).finish
  rw [if_pos hc, granuleOf_ra] at hl
  exact ⟨l, hx.trans hl⟩

/-- With another CT nothing happens (log 63). -/
theorem nothing_of_lockAccess {k : Placed → State → Out} (ha : mayLock s)
    (hp : ReachesBlock s (blockRead w .running) ea p) (h0 : ct ≠ 0) (h2 : ct ≠ 2)
    (hx : exec i s = s.lockAccess data w ct ea k) : ChangesCaches i s fun t => t.cache = s.cache := by
  obtain ⟨l, hl⟩ := lockAccess_ok (data := data) (ct := ct) ha hp k
  rw [if_neg (not_or.2 ⟨h0, h2⟩)] at hl
  exact changesCaches_of (hx.trans hl) (cacheOnly_setLog s l) rfl

/-- What a lock-set instruction is claimed to do, by why it cannot lock and what its set holds. -/
def Locks (s : State) (i : Instr) (p : Placed) (cannot room giveWay : Bool) (are : State → Cache → Prop)
    (unable full locked : Cache) : Prop :=
  (cannot || (absentBlock s p && (room || giveWay)) → ChangesCaches i s fun t => t.cache = unable) ∧
  (!cannot && !absentBlock s p && room → ChangesCaches i s fun t => are t locked) ∧
  (!cannot && !room && !giveWay → ChangesCaches i s fun t => are t full)

/-- A lock-set instruction that locks where it can. -/
theorem locks_of {cannot room giveWay : Bool} {are : State → Cache → Prop} {full locked : Cache} {l : StepLog}
    (hx : exec i s = if s.cannotLock data ct p then ((s.setLog l).withCache (·.unable data)).finish
      else ((s.setLog l).setLock data ct p).finish)
    (hc : s.cannotLock data ct p = (cannot || (absentBlock s p && (room || giveWay))))
    (hr : room = true → are ((s.setLog l).setLock data ct p).advance locked)
    (hf : room = false → giveWay = false → are ((s.setLog l).setLock data ct p).advance full) :
    Locks s i p cannot room giveWay are (s.cache.unable data) full locked := by
  have hlock (h : ¬s.cannotLock data ct p = true) : exec i s = ((s.setLog l).setLock data ct p).finish := hx.trans (if_neg h)
  have hk : CacheOnly s ((s.setLog l).setLock data ct p) := (cacheOnly_setLog s l).trans (cacheOnly_setLock _ _ _ _)
  rw [hc] at hx hlock
  refine ⟨fun h => ?_, fun h => ?_, fun h => ?_⟩
  · rw [if_pos h] at hx
    exact changesCaches_of hx ((cacheOnly_setLog s l).trans (cacheOnly_withCache _ _)) rfl
  · simp only [Bool.and_eq_true, Bool.not_eq_true'] at h
    obtain ⟨⟨h1, h2⟩, h3⟩ := h
    exact changesCaches_of (hlock (by simp [h1, h2])) hk (hr h3)
  · simp only [Bool.and_eq_true, Bool.not_eq_true'] at h
    obtain ⟨⟨h1, h2⟩, h3⟩ := h
    exact changesCaches_of (hlock (by simp [h1, h2, h3])) hk (hf h2 h3)

/-- CT = 0 in the data caches. -/
theorem locks_data (ha : mayLock s) (hp : ReachesBlock s (blockRead w .running) ea p)
    (hx : exec i s = s.lockSet true w 0 ea) :
    Locks s i p (!bit s.cache.l1csr0 63 || p.i) (decide (roomFor 64 (blockNumber p) s.cache.lockD)) false
      (CachesAre s · (blockNumber p) true) { s.cache with l1csr0 := s.cache.l1csr0 ||| 0x400 }
      { s.cache with l1csr0 := s.cache.l1csr0 ||| 0x200 }
      { s.cache with lockD := withLock (blockNumber p) s.cache.lockD } := by
  obtain ⟨l, hl⟩ := exec_lockSet ha hp (.inl rfl) hx
  have hs := setLock_data (s.setLog l) p
  refine locks_of hl (cannotLock_l1 s true p) (fun h => ?_) (fun h _ => ?_)
  · rwa [if_pos (show roomFor 64 (blockNumber p) (s.setLog l).cache.lockD from of_decide_eq_true h)] at hs
  · rwa [if_neg (show ¬roomFor 64 (blockNumber p) (s.setLog l).cache.lockD from of_decide_eq_false h)] at hs

/-- CT = 0 in the instruction cache. -/
theorem locks_instr (ha : mayLock s) (hp : ReachesBlock s (blockRead w .running) ea p)
    (hx : exec i s = s.lockSet false w 0 ea) :
    Locks s i p (!bit s.cache.l1csr1 63 || p.i) (decide (roomFor 64 (blockNumber p) s.cache.lockI)) false
      (·.cache = ·) { s.cache with l1csr1 := s.cache.l1csr1 ||| 0x400 }
      { s.cache with l1csr1 := s.cache.l1csr1 ||| 0x200 }
      { s.cache with lockI := withLock (blockNumber p) s.cache.lockI } := by
  obtain ⟨l, hl⟩ := exec_lockSet ha hp (.inl rfl) hx
  have hs := setLock_instr (s.setLog l) p
  refine locks_of hl (cannotLock_l1 s false p) (fun h => ?_) (fun h _ => ?_)
  · exact hs.trans (if_pos (of_decide_eq_true h))
  · exact hs.trans (if_neg (of_decide_eq_false h))

/-- CT = 2. -/
theorem locks_l2 (ha : mayLock s) (hp : ReachesBlock s (blockRead w .running) ea p)
    (hx : exec i s = s.lockSet data w 2 ea) :
    Locks s i p (!bit s.cache.l2csr0 32 || p.i || bit s.cache.l2csr0 (if data then 43 else 47))
      (decide (roomFor 256 (blockNumber p) s.cache.lockL2)) (bit s.cache.l2csr0 56)
      (CachesAre s · (blockNumber p) false) (s.cache.unable data) { s.cache with l2csr0 := s.cache.l2csr0 ||| 0x20 }
      { s.cache with lockL2 := withLock (blockNumber p) s.cache.lockL2 } := by
  obtain ⟨l, hl⟩ := exec_lockSet ha hp (.inr rfl) hx
  have hs := setLock_l2 (s.setLog l) data p
  refine locks_of hl (cannotLock_l2 s data p) (fun h => ?_) (fun h hg => ?_)
  · have he := lockL2_room (s := s.setLog l) (of_decide_eq_true h)
    exact he ▸ hs (by rw [he])
  · have he := lockL2_full (s := s.setLog l) (of_decide_eq_false h) hg
    exact he ▸ hs (by rw [he])

/-- CT = 2 with a full set of which a line gives way. -/
theorem gives_way_l2 (ha : mayLock s) (hp : ReachesBlock s (blockRead w .running) ea p)
    (hx : exec i s = s.lockSet data w 2 ea) :
    let b := blockNumber p
    (!(!bit s.cache.l2csr0 32 || p.i || bit s.cache.l2csr0 (if data then 43 else 47)) &&
      !decide (roomFor 256 b s.cache.lockL2) && bit s.cache.l2csr0 56) →
    s.regionOf (blockBytes p 64) ≠ some .absent → ChangesCaches i s fun t =>
      ∃ y ∈ s.cache.lockL2, y.toNat % 256 = b.toNat % 256 ∧
        CachesAre s t b false { s.cache with
          l2csr0 := s.cache.l2csr0 ||| 0x20
          lockL2 := withLock b (withoutLock y s.cache.lockL2) } := by
  intro b h habs
  simp only [Bool.and_eq_true, Bool.not_eq_true'] at h
  obtain ⟨⟨h1, h2⟩, h3⟩ := h
  obtain ⟨l, hl⟩ := exec_lockSet ha hp (.inr rfl) hx
  have hn : s.cannotLock data 2 p = false := by
    have ha : absentBlock s p = false := decide_eq_false habs
    rw [cannotLock_l2, h1, ha]
    rfl
  rw [hn, if_neg (by decide)] at hl
  obtain ⟨y, hy, hb, he⟩ := lockL2_giveWay (s := s.setLog l) (of_decide_eq_false h2) h3
  refine changesCaches_of hl ((cacheOnly_setLog s l).trans (cacheOnly_setLock _ _ _ _)) ⟨y, hy, hb, ?_⟩
  exact he ▸ setLock_l2 (s.setLog l) data p (by rw [he])

end Sys2Proof.Machine


/-! The lock-clear instructions, who may lock, and the claim of all of them (44 R1084 to R1089; 20 R327). -/

namespace Sys2Proof.Machine

variable {s : State} {i : Instr} {ea : Word} {p : Placed} {data w : Bool} {ct : BitVec 4}

/-! ### Clearing a lock -/

/-- dcblc with CT = 0. -/
theorem clears_data (ha : mayLock s) (hp : ReachesBlock s (blockRead w .running) ea p)
    (hx : exec i s = s.lockClear true w 0 ea) :
    ChangesCaches i s fun t =>
      if bit s.cache.l1csr0 63 then
        CachesAre s t (blockNumber p) true { s.cache with lockD := withoutLock (blockNumber p) s.cache.lockD }
      else t.cache = s.cache := by
  obtain ⟨l, hl⟩ := exec_lockClear ha hp (.inl rfl) hx
  refine changesCaches_of hl ((cacheOnly_setLog s l).trans (cacheOnly_clearLock _ _ _ _)) ?_
  have hc : (s.setLog l).cache.enabled true 0 = bit s.cache.l1csr0 63 := rfl
  unfold State.clearLock
  rw [hc]
  cases bit s.cache.l1csr0 63
  · rfl
  · exact noteCt_cachesAre s _ false (blockNumber p) rfl

/-- icblc with CT = 0. -/
theorem clears_instr (ha : mayLock s) (hp : ReachesBlock s (blockRead w .running) ea p)
    (hx : exec i s = s.lockClear false w 0 ea) :
    ChangesCaches i s fun t => t.cache = { s.cache with
      lockI := if bit s.cache.l1csr1 63 then withoutLock (blockNumber p) s.cache.lockI else s.cache.lockI } := by
  obtain ⟨l, hl⟩ := exec_lockClear ha hp (.inl rfl) hx
  refine changesCaches_of hl ((cacheOnly_setLog s l).trans (cacheOnly_clearLock _ _ _ _)) ?_
  have hc : (s.setLog l).cache.enabled false 0 = bit s.cache.l1csr1 63 := rfl
  unfold State.clearLock
  rw [hc]
  cases bit s.cache.l1csr1 63 <;> rfl

/-- CT = 2. -/
theorem clears_l2 (ha : mayLock s) (hp : ReachesBlock s (blockRead w .running) ea p)
    (hx : exec i s = s.lockClear data w 2 ea) :
    ChangesCaches i s fun t =>
      if bit s.cache.l2csr0 32 then
        CachesAre s t (blockNumber p) false { s.cache with lockL2 := withoutLock (blockNumber p) s.cache.lockL2 }
      else t.cache = s.cache := by
  obtain ⟨l, hl⟩ := exec_lockClear ha hp (.inr rfl) hx
  refine changesCaches_of hl ((cacheOnly_setLog s l).trans (cacheOnly_clearLock _ _ _ _)) ?_
  have hc : (s.setLog l).cache.enabled data 2 = bit s.cache.l2csr0 32 := rfl
  unfold State.clearLock
  rw [hc]
  cases bit s.cache.l2csr0 32
  · rfl
  · exact noteCt_cachesAre s _ true (blockNumber p) rfl

theorem nothing_of_lockSet (data : Bool) (ha : mayLock s) (hp : ReachesBlock s (blockRead w .running) ea p) (h0 : ct ≠ 0)
    (h2 : ct ≠ 2) (hx : exec i s = s.lockSet data w ct ea) : ChangesCaches i s fun t => t.cache = s.cache :=
  nothing_of_lockAccess ha hp h0 h2 hx

theorem nothing_of_lockClear (data : Bool) (ha : mayLock s) (hp : ReachesBlock s (blockRead w .running) ea p) (h0 : ct ≠ 0)
    (h2 : ct ≠ 2) (hx : exec i s = s.lockClear data w ct ea) : ChangesCaches i s fun t => t.cache = s.cache :=
  nothing_of_lockAccess ha hp h0 h2 hx

/-! ### Who may lock -/

/-- How a lock instruction is refused, with ESR[DLK] or ESR[ILK] in user state. -/
def RefusesLock (i : Instr) (s : State) (ea esr : Word) : Prop :=
  if bit s.msr 49 then Enters i s .dataStorage (bit s.msr 35 && bit s.ctl.epcr 35) s.pc (some esr) (some ea)
  else Enters i s .hvPrivilege false s.pc none none

theorem refused_of_lockAllowed {rest : Out} (ha : ¬mayLock s) (hx : exec i s = s.lockAllowed data w ea rest) :
    RefusesLock i s ea (if data then 0x00200000 else 0x00100000) := by
  unfold mayLock at ha
  unfold RefusesLock
  by_cases hp : bit s.msr 49 = true
  · rw [if_pos hp] at ha ⊢
    replace hx := hx.trans ((if_pos hp).trans (if_neg ha))
    rw [← Bool.and_true (bit s.msr 35 && bit s.ctl.epcr 35)]
    exact ⟨_, _, hx⟩
  · rw [if_neg hp] at ha ⊢
    have hk : (s.gs && bit s.ctl.msrp 37) = true := by
      rw [not_or, Bool.not_eq_false, Bool.not_eq_false] at ha
      rw [Bool.and_eq_true]
      exact ha
    exact enters_hvPrivilege (hx.trans ((if_neg hp).trans (if_pos hk)))

/-- Settles O49: a lock instruction that the state may execute goes on with its byte, and then its cache decides. -/
theorem blocksLocked : Obligations.BlocksLocked := by
  intro s rA rB ct write ea c allowed lockData locks locks2 unableData unableInstr unlocks2 nothing
  have hdata (ct : BitVec 4) : exec (lockData ct) s = s.lockSet true write ct ea := by
    show exec (if write then .dcbtstls ct rA rB else .dcbtls ct rA rB) s = _
    cases write <;> rfl
  refine ⟨fun ha p hp => ⟨?_, ⟨?_, ?_⟩, ?_⟩, fun ha p hp => ⟨?_, ⟨?_, ?_⟩, ?_, ?_, ?_, ?_⟩,
    fun ha p hp => ⟨?_, ?_, ?_⟩, fun ha => ⟨?_, ?_, ?_, ?_, ?_⟩⟩
  · exact locks_data ha hp (hdata 0)
  · exact locks_l2 (data := true) ha hp (hdata 2)
  · exact gives_way_l2 (data := true) ha hp (hdata 2)
  · exact fun h0 h2 => nothing_of_lockSet true ha hp h0 h2 (hdata ct)
  · exact locks_instr ha hp rfl
  · exact locks_l2 (data := false) ha hp rfl
  · exact gives_way_l2 (data := false) ha hp rfl
  · exact fun h0 h2 => nothing_of_lockSet false ha hp h0 h2 rfl
  · exact clears_instr ha hp rfl
  · exact clears_l2 (data := false) ha hp rfl
  · exact fun h0 h2 => nothing_of_lockClear false ha hp h0 h2 rfl
  · exact clears_data ha hp rfl
  · exact clears_l2 (data := true) ha hp rfl
  · exact fun h0 h2 => nothing_of_lockClear true ha hp h0 h2 rfl
  · exact refused_of_lockAllowed (data := true) (w := false) ha rfl
  · exact refused_of_lockAllowed (data := true) (w := true) ha rfl
  · exact refused_of_lockAllowed (data := true) (w := true) ha rfl
  · exact refused_of_lockAllowed (data := false) (w := false) ha rfl
  · exact refused_of_lockAllowed (data := false) (w := false) ha rfl

end Sys2Proof.Machine
